-- ==== Sys2Proof/Word.lean ====
section
/-! DEFINITION. The word types of the module (spec 00_scope.md R7, R8). -/

namespace Sys2Proof

/-- A byte (R7). -/
abbrev Byte := BitVec 8

/-- A 64-bit word: the unit that carries a full/empty tag (R7). -/
abbrev Word := BitVec 64

/-- A general register number, g0 to g31 (R8). -/
abbrev Reg := BitVec 5

/-- A pointer register number, p0 to p3 (R8). -/
abbrev Ptr := BitVec 2

end Sys2Proof
end

