-- ==== Sys2Proof/Config.lean ====
section
/-! DEFINITION. The free values: what the spec leaves open, as constants without a body (notes/assumptions/5, 7 to 14).
Each takes a plain counter of State, so that every step meets a fresh value. -/

namespace Sys2Proof.Config

/-- A free choice between two permitted outcomes: the use it is put to, and the counter. -/
opaque freeBit (use n : Nat) : Bool

/-- A free natural number: which of several permitted outcomes happens. -/
opaque freeNat (use n : Nat) : Nat

/-- A free 64-bit value. -/
opaque freeWord (use n : Nat) : Word

/-- What a read under one key returns of a line encrypted under another (R125): the key used, the key of the data, the
line's PA[51:6], its bytes, and the index of the byte read. -/
opaque undecrypted (key dataKey line : Nat) (data : List Byte) (i : Nat) : Byte

/-- The signature bytes of an attestation report (R20, R87): the report signed, and the index of the byte. -/
opaque signature (report : List Byte) (i : Nat) : Byte

/-- SHA-512 (R20), and the bytes of the certificate of the device identity key. -/
opaque sha512 (data : List Byte) : BitVec 512
opaque certificate : List Byte

/-- Whether an image is signed by the firmware key (R20). -/
opaque signedImage (image : List Byte) : Bool

/-- What the churn engine's compressor makes of a page (R121): any LZ4 block. -/
opaque lz4 (page : List Byte) : List Byte

/-- The word that records which words of a page are empty, when it fits (R121), and what such a word records. -/
opaque tagWord (empties : List Nat) : Option Word
opaque tagList (w : Word) : List Nat

/-- Which register lies at an offset of the MMIO window for which the spec places none: the kind of the register and its
number within the kind; none where there is no register (R108). -/
opaque mmioReg (off : Nat) : Option (Nat × Nat)

/-- Whether a cluster of another module lies in a partition: the runs of clusters that the other modules give it (R135). -/
opaque foreignRun (part modid cluster : Nat) : Bool

-- The uses of the free choices (DESIGN CHOICE: numbers below 64 that only keep the choices apart; a use that is made of
-- several things at once adds 64 times their number).
def useLateRead : Nat := 0
def useLateWrite : Nat := 1
def useDelivery : Nat := 2
def useTranslation : Nat := 3
def useDockCore : Nat := 4
def useEvict : Nat := 5
def useCodeLine : Nat := 6
def useDropped : Nat := 9
def useTool : Nat := 10
def useAbsent : Nat := 12
def useFuture : Nat := 13
def useTimeout : Nat := 14
def useViol : Nat := 15
def usePeer : Nat := 16
def useAck : Nat := 17
def useVa : Nat := 18
def useDrain : Nat := 19
def useSlot : Nat := 20
def useCopy : Nat := 21
def useLock : Nat := 22

end Sys2Proof.Config
end

