-- ==== Sys2Proof/Syntax.lean ====
section
/-! DEFINITION. The instructions, stream commands and events of the module: one constructor for each row of
spec/opcode_table.json, and the operand records they carry (spec 12_isa_encoding.md R292 to R302). -/

namespace Sys2Proof

/-- The operands of a G3 instruction that names three registers (R292): destination d, sources a and b, whether
each source is read synchronisingly, whether the destination is transient. -/
structure Ops3 where
  d : Reg
  a : Reg
  b : Reg
  sa : Bool
  sb : Bool
  t : Bool
  deriving DecidableEq, Repr

/-- The operands of a G3 instruction with one source (R292). -/
structure Ops2 where
  d : Reg
  a : Reg
  sa : Bool
  t : Bool
  deriving DecidableEq, Repr

/-- The operands of a GI instruction (R293). -/
structure OpsI where
  d : Reg
  a : Reg
  sa : Bool
  imm : BitVec 15
  deriving DecidableEq, Repr

/-- The operands of a GI shift (R293). -/
structure OpsSh where
  d : Reg
  a : Reg
  sa : Bool
  c : BitVec 6
  deriving DecidableEq, Repr

/-- Destination and synchronising source of a G3 instruction without a transient form. -/
structure OpsDA where
  d : Reg
  a : Reg
  sa : Bool
  deriving DecidableEq, Repr

/-- Destination and two synchronising sources, without a transient form. -/
structure OpsDAB where
  d : Reg
  a : Reg
  b : Reg
  sa : Bool
  sb : Bool
  deriving DecidableEq, Repr

/-- Two synchronising sources, no destination. -/
structure OpsAB where
  a : Reg
  b : Reg
  sa : Bool
  sb : Bool
  deriving DecidableEq, Repr

/-- A scratchpad scalar access (R346): register, base, synchronising base, size code, displacement. -/
structure OpsLds where
  d : Reg
  base : Reg
  sb : Bool
  size : BitVec 2
  disp : BitVec 10
  deriving DecidableEq, Repr

/-- Vector operands, one source (R296). -/
structure V1 where
  pd : Ptr
  pa : Ptr
  sd : Bool
  sa : Bool
  deriving DecidableEq, Repr

/-- Vector operands, two sources (R296). -/
structure V2 where
  pd : Ptr
  pa : Ptr
  pb : Ptr
  sd : Bool
  sa : Bool
  sb : Bool
  deriving DecidableEq, Repr

/-- Vector operands, three sources (R296). -/
structure V3 where
  pd : Ptr
  pa : Ptr
  pb : Ptr
  pc : Ptr
  sd : Bool
  sa : Bool
  sb : Bool
  sc : Bool
  deriving DecidableEq, Repr

/-- A vector source and a scalar register (R363). -/
structure VS where
  pa : Ptr
  sa : Bool
  g : Reg
  deriving DecidableEq, Repr

/-- The second word of MMA and MMAZ (R377). -/
structure MmaOps where
  tile : BitVec 2
  k : BitVec 3
  acore : BitVec 4
  arow : BitVec 7
  bcore : BitVec 4
  brow : BitVec 7
  s : Bool
  x : BitVec 4
  deriving DecidableEq, Repr

/-- The second word of MMST and MMLD (R380). -/
structure MmstOps where
  tile : BitVec 2
  row0 : BitVec 4
  nr : BitVec 4
  core : BitVec 4
  row : BitVec 10
  deriving DecidableEq, Repr

/-- The address form of a copy command (R383): core, first row, rows minus one, address, stride, core mask. -/
structure CpOps where
  core : BitVec 4
  row : BitVec 10
  nrow : BitVec 10
  va : BitVec 54
  stride : BitVec 16
  mask : BitVec 16
  deriving DecidableEq, Repr

/-- Eight 64-bit words: a task packet (R136), a mailbox message (R145) or a host message (R86). -/
structure Words8 where
  w0 : Word
  w1 : Word
  w2 : Word
  w3 : Word
  w4 : Word
  w5 : Word
  w6 : Word
  w7 : Word
  deriving DecidableEq, Repr

/-- A slot of a core of this module: module core identifier and slot number. -/
structure SlotId where
  core : Nat
  slot : Nat
  deriving DecidableEq, Repr

/-- What a barrier request asks of its home (R358). -/
inductive BarReq
  | joinSelf
  | joinAnnounce (n : Word)
  | leaveSelf
  | leaveAnnounce (n : Word)
  | arrive (wait : Bool)
  deriving DecidableEq, Repr

/-- What an access does at the place where it is performed (R272, R276, R277, R340, R342, R349, R350, R358). -/
inductive Perform
  | load (func3 : BitVec 3)
  | store (size : Nat) (v : Word)
  | fill (v : Word)
  | tagWrite (full : Bool)
  | red (op : BitVec 4) (ty : BitVec 2) (v : Word)
  | syncRead
  | syncWrite (v : Word)
  | tagRead
  | amo (aop : BitVec 4) (width : BitVec 2) (x : Word)
  | cas (expected new : Word)
  | cas2 (elo ehi nlo nhi : Word)
  | barrier (r : BarReq) (scope : BitVec 3)
  /-- A dispatcher's read of a WAIT word: it waits for full and leaves the tag (R140). -/
  | await
  /-- A whole line that an engine or a unit reads, or writes (R251). -/
  | line (data : Option (List Byte))
  deriving DecidableEq, Repr

/-- A source slot of an acknowledgement with its count (R65, R68). -/
structure Source where
  core : Nat
  slot : Nat
  count : Nat
  deriving DecidableEq, Repr

/-- An access on its way to the home that performs it: its originator of the tie rule, identifier·16 + slot (R262, R445),
the address of a slot's instruction, and what its fault record says of its task. -/
structure Access where
  srcs : List Source
  org : Nat
  va : Word
  pa : Nat
  pc : Word
  job : Nat
  launch : Nat
  part : Nat
  user : Bool
  ord : Bool
  handler : Bool
  release : Bool
  dst : Nat
  how : Perform
  deriving DecidableEq, Repr

/-- A migrant packet (R229), with the slot it left, its home core, or for an access the address from which the destination
module determines it (R62), the colour it carries (R179), its partition, and the cycle of its first send (R63). -/
structure Migrant where
  src : Nat
  slot : Nat
  home : Nat
  addr : Option Nat
  reserve : Bool
  colour : Bool
  part : Nat
  sent : Nat
  h0 : Word
  h1 : Word
  regs : List Word
  t0 : Word
  t1 : Word
  deriving DecidableEq, Repr

/-- A SPAWN or SPAWNW request on its way (R139, R392). -/
structure SpawnReq where
  src : Nat
  slot : Nat
  dst : Reg
  target : Nat
  entry : Word
  regs : BitVec 2
  g1 : Word
  g2 : Word
  g3 : Word
  g4 : Word
  launch : Nat
  job : Nat
  wait : Bool
  deriving DecidableEq, Repr

/-- A lease-control message (R40). -/
structure SluiceMsg where
  seq : BitVec 8
  dir : BitVec 3
  count : Nat
  modid : Nat
  mask : BitVec 64
  term : Nat
  gen : Nat
  reason : Nat
  deriving DecidableEq, Repr

/-- A gang-control message (R75), with the module that sent it. -/
structure GangMsg where
  src : Nat
  init : Nat
  part : Nat
  launch : Word
  ntask : Nat
  reason : Nat
  desc : Word
  deriving DecidableEq, Repr

/-- A sweep message (R181), with the node that reports. MINK is carried whole. -/
structure SweepMsg where
  src : Nat
  part : Nat
  colour : Bool
  flip : Bool
  idle : Bool
  fail : Bool
  num : Nat
  sent : Nat
  recv : Nat
  key : BitVec 128
  deriving DecidableEq, Repr

/-- The header of a packet of the scale-up fabric (R59): its class, its destination with the address there, the global core
identifier and slot of its source, its partition, its DETOUR count, dateline bit and mark; its sequence number in its
ordered set (R60), plus 1, or 0 while it has none; the number of its flits, the launch it serves, what a router reads of a
reduction (R67), and the source, ordered set, number and flits of each packet merged into it (notes/assumptions/92). -/
structure FabHdr where
  cls : Nat
  response : Bool
  dst : Nat
  dstAddr : Nat
  src : Nat
  slot : Nat
  part : Nat
  detour : Nat
  dateline : Bool
  marked : Bool
  launch : Nat
  flits : Nat
  redKey : Nat
  value : Word
  srcs : List Source
  seq : Nat
  also : List (Nat × Nat × Nat × Nat)
  deriving DecidableEq, Repr

/-- The request of a guest of another module to a unit of its dispatching core's module (notes/assumptions/91): the
instruction, the registers it writes (64, 65 and 66 stand for the counts of requests on q4 and q5 and of RECVs), and the
guest's context. -/
structure GuestReq where
  word : BitVec 32
  dests : List Nat
  m : Migrant
  deriving DecidableEq, Repr

/-- What a packet of the fabric carries (R57, R58): requests of classes 1 to 6, and their responses. -/
inductive Payload
  | none
  /-- An access for its home, its results, and word that it has been aborted or met poison (R114, R338, R415). -/
  | access (a : Access)
  | result (a : Access) (v0 v1 : Word)
  | aborted (a : Access) (psn : Bool)
  | migrant (m : Migrant)
  | mack (id : SlotId)
  | mnak (id : SlotId)
  | pwack (id : SlotId) (count : Nat)
  | task (cluster : Nat) (src : SlotId) (colour : Bool) (pkt : Words8)
  | anti (cluster : Nat) (colour : Bool) (hdr : Words8)
  | message (core level : Nat) (src : SlotId) (msg : Words8)
  | msgack (id : SlotId) (launch : Nat) (task : Bool)
  | spawn (r : SpawnReq)
  | spawnReply (r : SpawnReq) (v : Nat)
  | spawnwResend (r : SpawnReq)
  /-- A NOROUTE response: the header and the contents of the packet that was dropped. -/
  | noroute (h : FabHdr) (what : Payload)
  | gang (kind : Nat) (m : GangMsg)
  | sweep (kind : Nat) (m : SweepMsg)
  /-- Coherence requests for a line: a copy, shared under the peer directory or not tracked (PHASED), and ownership
  for an agent (R72 to R74). -/
  | lineRequest (line cache : Nat) (shared : Bool)
  | lineOwn (line agent : Nat)
  | lineData (cache line : Nat) (data : List Byte) (psn : BitVec 8) (key : Nat)
  | lineWrite (line cache : Nat) (data : List Byte) (mask : BitVec 64) (psn : Bool) (key : Nat)
  | lineWritten (cache line : Nat)
  | lineFault (cache line cause : Nat)
  | recall (line : Nat)
  /-- The answer to a recall: dirty data with their key, no bytes for a line owned and not yet written, or nothing. -/
  | recalled (line : Nat) (data : Option (List Byte × Bool × Nat))
  | tlbi (job vpage : Option Nat)        -- no job: TLBI.ALL
  | tlbiDone (id : SlotId)
  | phase (part : Nat)
  | phaseDone (part : Nat)
  /-- A guest's request to its dispatching core's module. Its answer: the registers written and the nest joined, or the trap
  that the unit found, with the request. -/
  | request (q : GuestReq)
  | answer (id : SlotId) (regs : List (Nat × Word)) (nest : Option (Nat × Nat × Nat))
      (trap : Option (Nat × Nat × Word × GuestReq))
  | promote (cluster : Nat) (id : SlotId)
  | promoted (id : SlotId)
  | stop (part : Nat) (launch : Option Nat) (resume fatal : Bool)
  /-- A task ended away from the module of its dispatching core (R128): what that core held for it, whether it executed
  QUIT, and whether it failed its launch. -/
  | ended (dcore launch spec sgen : Nat) (nest : Option (Nat × Nat × Nat)) (quit fail : Bool)
  /-- A fault record for the handler of a launch of another module (R64). -/
  | record (launch job : Nat) (w0 w1 w2 w3 : Word)
  /-- A launch's cancellation, for the modules on which its tasks may run (R134). -/
  | cancelled (launch : Nat)
  /-- A MULTI launch has ended at its initiator in a state (R128, R162). -/
  | launchOver (launch st : Nat)
  /-- A rolled-back task's thread is to be killed at its next issue (R171). -/
  | doomed (dcore launch spec sgen : Nat)
  | credit (set flits : Nat)
  deriving DecidableEq, Repr

/-- A packet of the scale-up fabric (R58, R59). -/
structure FabPkt extends FabHdr where
  pay : Payload
  deriving DecidableEq, Repr

/-- A reply message of a remote tool as the endpoint hands it over (R99, R100). -/
structure UetReply where
  addr : BitVec 128
  ujob : Nat
  pid : Nat
  w0 : Word
  w1 : Word
  data : List Byte
  deriving DecidableEq, Repr

/-- The supervisor registers of the hub that have no event of their own (R9). -/
inductive HubReg
  | sluiceCtl
  | dispcfg
  | syncretry
  | seqcfg
  | churnCfg
  | churnPool (c : Nat)
  | mboxCtl
  | sldir (d : Nat)
  | localTool (i word : Nat)
  | remoteTool (i word : Nat)
  | tvec (core : Nat)
  | features
  | mboxStat
  deriving DecidableEq, Repr

/-- What a tool-core access does (R209). -/
inductive ToolAccess
  | load
  | store (v : Word)
  | amo (v : Word)
  | fetch
  deriving DecidableEq, Repr

/-- The page an address translation service completion translates (R90): its number in 4 KiB units and its size, 0 for
4 KiB, 1 for 2 MiB and 2 for 1 GiB. -/
structure AtsPage where
  page : Nat
  size : Nat
  deriving DecidableEq, Repr

/-- The instructions, stream commands and events of the module: the rows of spec/opcode_table.json in its order. -/
inductive Instr
  -- major 0x01, system (R409 to R412)
  | nop
  | trap (n : BitVec 4) (a : Reg)
  | bkpt
  | stamp (d : Reg)
  | feat (d : Reg) (sel : BitVec 5)
  | impl (d : Reg) (sel : BitVec 5)
  | srr (d : Reg) (n : BitVec 10)
  -- major 0x02, integer (R313 to R317)
  | add (o : Ops3) (w : BitVec 2)
  | sub (o : Ops3) (w : BitVec 2)
  | mul (o : Ops3) (w : BitVec 2)
  | mulh (o : Ops3) (w : BitVec 2)
  | mulhn (o : Ops3) (w : BitVec 2)
  | madd (o : Ops3) (w : BitVec 2)
  | div (o : Ops3) (w : BitVec 2)
  | divn (o : Ops3) (w : BitVec 2)
  | rem (o : Ops3) (w : BitVec 2)
  | remn (o : Ops3) (w : BitVec 2)
  | min (o : Ops3) (w : BitVec 2)
  | max (o : Ops3) (w : BitVec 2)
  | minn (o : Ops3) (w : BitVec 2)
  | maxn (o : Ops3) (w : BitVec 2)
  | abs (o : Ops2) (w : BitVec 2)
  | and (o : Ops3)
  | or (o : Ops3)
  | xor (o : Ops3)
  | andn (o : Ops3)
  | orn (o : Ops3)
  | xnor (o : Ops3)
  | shl (o : Ops3) (w : BitVec 2)
  | shr (o : Ops3) (w : BitVec 2)
  | sar (o : Ops3) (w : BitVec 2)
  | rol (o : Ops3) (w : BitVec 2)
  | ror (o : Ops3) (w : BitVec 2)
  | clz (o : Ops2) (w : BitVec 2)
  | ctz (o : Ops2) (w : BitVec 2)
  | popc (o : Ops2) (w : BitVec 2)
  | brev (o : Ops2)
  | bswap (o : Ops2)
  | sext (o : Ops2) (w : BitVec 2)
  | zext (o : Ops2) (w : BitVec 2)
  | bext (o : Ops3)
  | bins (o : Ops3)
  | addsc (o : Ops3) (w : BitVec 2)
  -- major 0x03, compare and select (R318)
  | cmpeq (o : Ops3) (w : BitVec 1)
  | cmpne (o : Ops3) (w : BitVec 1)
  | cmplt (o : Ops3) (w : BitVec 1)
  | cmpltn (o : Ops3) (w : BitVec 1)
  | cmple (o : Ops3) (w : BitVec 1)
  | cmplen (o : Ops3) (w : BitVec 1)
  | sel (o : Ops3)
  -- majors 0x04 to 0x0D, immediates (R319, R320)
  | addi (o : OpsI)
  | andi (o : OpsI)
  | ori (o : OpsI)
  | xori (o : OpsI)
  | shli (o : OpsSh)
  | shri (o : OpsSh)
  | sari (o : OpsSh)
  | cmpeqi (o : OpsI)
  | cmplti (o : OpsI)
  | muli (o : OpsI)
  | ldi (d : Reg) (imm : BitVec 32)
  | ldih (d : Reg) (imm : BitVec 32)
  -- majors 0x0E and 0x0F, float (R321 to R329)
  | fadd (o : Ops3) (rm : BitVec 3) (f : BitVec 2)
  | fsub (o : Ops3) (rm : BitVec 3) (f : BitVec 2)
  | fmul (o : Ops3) (rm : BitVec 3) (f : BitVec 2)
  | ffma (o : Ops3) (rm : BitVec 3) (f : BitVec 2)
  | fmin (o : Ops3) (f : BitVec 2)
  | fmax (o : Ops3) (f : BitVec 2)
  | fdiv (o : Ops3) (rm : BitVec 3) (f : BitVec 2)
  | fsqrt (o : Ops2) (rm : BitVec 3) (f : BitVec 2)
  | fabs (o : Ops2) (f : BitVec 2)
  | fneg (o : Ops2) (f : BitVec 2)
  | fcpys (o : Ops3) (f : BitVec 2)
  | fcmpeq (o : Ops3) (f : BitVec 2)
  | fcmplt (o : Ops3) (f : BitVec 2)
  | fcmple (o : Ops3) (f : BitVec 2)
  | fcmpun (o : Ops3) (f : BitVec 2)
  | fclass (o : Ops2) (f : BitVec 2)
  | fcvt (o : Ops2) (x : BitVec 2) (rm : BitVec 3) (f : BitVec 2)
  | fcvti (o : Ops2) (x : BitVec 2) (rm : BitVec 3) (f : BitVec 2)
  | icvtf (o : Ops2) (x : BitVec 2) (rm : BitVec 3) (f : BitVec 2)
  | frnd (o : Ops2) (rm : BitVec 3) (f : BitVec 2)
  -- majors 0x10 to 0x14, control and nests (R330 to R335)
  | br (disp : BitVec 26)
  | call (d : Reg) (disp : BitVec 21)
  | brz (a : Reg) (disp : BitVec 12)
  | brnz (a : Reg) (disp : BitVec 12)
  | brltz (a : Reg) (disp : BitVec 12)
  | brgez (a : Reg) (disp : BitVec 12)
  | brbit (a : Reg) (bit : BitVec 6) (disp : BitVec 12)
  | jmp (o : OpsDA)
  | nest (o : OpsDA)
  | iter (d : Reg) (n : BitVec 2)
  -- majors 0x18 to 0x1B, memory (R340 to R344)
  | ld (d base : Reg) (sb : Bool) (func3 : BitVec 3) (disp : BitVec 12)
  | ldx (d base : Reg) (sb : Bool) (b : Reg)
  | st (d base : Reg) (sb : Bool) (size : BitVec 2) (disp : BitVec 12)
  | stx (d base : Reg) (sb : Bool) (b : Reg)
  | ldf (o : Ops2)
  | stf (o : OpsAB)
  | tagr (o : Ops2)
  | tagwE (a : Reg) (sa : Bool)
  | tagwF (a : Reg) (sa : Bool)
  | ldacq (o : Ops2) (scope : BitVec 3)
  | strel (o : OpsAB) (scope : BitVec 3)
  | std (o : OpsAB) (size : BitVec 2)
  -- majors 0x1C to 0x1F, moves, atomics, ordering (R345 to R358)
  | home
  | visit (a : Reg) (sa : Bool)
  | amo (o : Ops3) (aop : BitVec 4) (width : BitVec 2)
  | cas (o : Ops3)
  | cas2 (o : Ops3)
  | red (o : OpsAB) (op : BitVec 4) (ty : BitVec 2)
  | fence (kind : BitVec 2) (scope : BitVec 3)
  | promote (a : Reg) (sa : Bool)
  | phase (o : OpsDA)
  | ackw (scope : BitVec 3)
  | barjoin (o : OpsDAB)
  | barleave (o : OpsDAB)
  | bararr (o : OpsDA) (scope : BitVec 3)
  | bararn (o : OpsDA) (scope : BitVec 3)
  -- major 0x20, scratchpad (R346 to R348)
  | lds (o : OpsLds)
  | ldsN (o : OpsLds)
  | sts (o : OpsLds)
  | ldbit (d : Reg) (sx : Bool) (step : Bool) (p : Ptr) (len : BitVec 6)
  | stbit (d : Reg) (step : Bool) (p : Ptr) (len : BitVec 6)
  | pset (d : Reg) (p : Ptr)
  | pget (d : Reg) (p : Ptr)
  | rowtagR (d base : Reg) (sb : Bool)
  | rowtagF (base : Reg) (sb : Bool)
  | rowtagE (base : Reg) (sb : Bool)
  | rowtagC (base : Reg) (sb : Bool)
  -- majors 0x24 to 0x27, vector (R361 to R372)
  | vadd (v : V2) (ty : BitVec 4)
  | vsub (v : V2) (ty : BitVec 4)
  | vmul (v : V2) (ty : BitVec 4)
  | vfma (v : V3) (ty : BitVec 4)
  | vmin (v : V2) (ty : BitVec 4)
  | vmax (v : V2) (ty : BitVec 4)
  | vabs (v : V1) (ty : BitVec 4)
  | vneg (v : V1) (ty : BitVec 4)
  | vaddSat (v : V2) (ty : BitVec 4)
  | vsubSat (v : V2) (ty : BitVec 4)
  | vand (v : V2)
  | vor (v : V2)
  | vxor (v : V2)
  | vshl (v : V2) (ty : BitVec 4)
  | vshr (v : V2) (ty : BitVec 4)
  | vshlS (v : V1) (ty : BitVec 4) (g : Reg)
  | vshrS (v : V1) (ty : BitVec 4) (g : Reg)
  | vcmpEq (v : V2) (ty : BitVec 4)
  | vcmpNe (v : V2) (ty : BitVec 4)
  | vcmpLt (v : V2) (ty : BitVec 4)
  | vcmpLe (v : V2) (ty : BitVec 4)
  | vcmpUn (v : V2) (ty : BitVec 4)
  | vsel (v : V3) (ty : BitVec 4)
  | vcvt (v : V1) (ty : BitVec 4) (narrow : Bool) (k : BitVec 2)
  | vdec (v : V1) (ty : BitVec 4) (k : BitVec 3)
  | venc (v : V1) (ty : BitVec 4) (k : BitVec 3)
  | vscl (v : V1) (ty : BitVec 4) (g : Reg)
  | vsum (v : VS) (ty : BitVec 4)
  | vmaxr (v : VS) (ty : BitVec 4)
  | vexp (v : V1)
  | vrcp (v : V1)
  | vrsq (v : V1)
  | vbcst (pd : Ptr) (sd : Bool) (ty : BitVec 4) (g : Reg)
  | vmov (v : V1)
  | vperm (v : V2) (ty : BitVec 4)
  | vpack (v : V2) (ty : BitVec 4)
  | vunpackLo (v : V1) (ty : BitVec 4)
  | vunpackHi (v : V1) (ty : BitVec 4)
  | vmask (v : VS) (ty : BitVec 4)
  -- major 0x28, queue ports (R389)
  | movqPush (g : Reg) (q : BitVec 3) (s : Bool) (func : BitVec 8)
  | movqPop (g : Reg) (q : BitVec 3) (func : BitVec 8)
  -- major 0x2C, work (R391 to R400)
  | quit
  | spawn (d a b : Reg) (sa : Bool)
  | spawnw (d a b : Reg) (sa : Bool)
  | post (o : OpsDAB)
  | launch (o : OpsDA)
  | graph (o : OpsDA)
  | cancel (o : OpsDAB)
  | joinw (o : OpsDAB)
  -- majors 0x2D and 0x2E, messages and virtual time (R401 to R405)
  | send (a b : Reg) (sa : Bool)
  | recv (d : Reg)
  | recvp (d b : Reg) (sb : Bool)
  | vtkey (d : Reg)
  | levee (d : Reg)
  | irrev (a : Reg)
  | sendvt (d a b : Reg) (sa : Bool)
  -- major 0x2F, agents (R406, R407)
  | callt (o : OpsDA)
  | waitf (o : OpsDA)
  | pollf (o : OpsDA)
  | canf (o : OpsDA)
  | tokc (o : OpsDAB)
  | tokenc (o : OpsDAB)
  | tokdec (o : OpsDAB)
  | maskq (o : OpsDAB)
  -- major 0x30, leases (R408)
  | lease (o : OpsDA)
  | leaserel (o : OpsDA)
  | leaseq (o : OpsDA)
  -- major 0x38, privileged (R418 to R422)
  | eret
  | srw (d : Reg) (n : BitVec 10)
  | tlbiPage (o : OpsAB) (scope : BitVec 3)
  | tlbiJob (b : Reg) (sb : Bool) (scope : BitVec 3)
  | tlbiAll (scope : BitVec 3)
  | wsopen (o : OpsDA)
  | wsclose (o : OpsDA)
  | keykill (o : OpsDA)
  | haltgStop (d : Reg)
  | haltgStopl (o : OpsDA)
  | haltgResume (d : Reg)
  | keySweepDone (key : Nat)
  | tlbiComplete (id : SlotId)
  -- matrix-stream commands (R302, R376 to R381); s is the stamp
  | mmnop (s : BitVec 26)
  | mma (s : BitVec 26) (o : MmaOps)
  | mmaz (s : BitVec 26) (o : MmaOps)
  | mmst (s : BitVec 26) (o : MmstOps)
  | mmld (s : BitVec 26) (o : MmstOps)
  | mmz (s : BitVec 26) (tile : BitVec 2)
  | mmwait (s : BitVec 26) (core : BitVec 4) (row : BitVec 10) (full : Bool)
  | mmwaitMatch (core : Nat)
  | mmsig (s : BitVec 26) (val : BitVec 12)
  | mmend (s : BitVec 26)
  -- copy-stream commands (R301, R383 to R386)
  | cpnop
  | cpget (o : CpOps)
  | cpput (o : CpOps)
  | cpmc (o : CpOps)
  | cpws (o : CpOps)
  | cpww (o : CpOps)
  | cpfill (core : BitVec 4) (row nrow : BitVec 10) (pat : Word)
  | cptag (core : BitVec 4) (row nrow : BitVec 10) (act : BitVec 2)
  | cpwait (core : BitVec 4) (row : BitVec 10) (full : Bool)
  | cpwaitMatch (cluster sid : Nat)
  | cpsig (val : BitVec 12)
  | cpend
  | copySourceRowFull (cluster sid : Nat)
  | copyWritebackAck (cluster sid : Nat)
  | lineRecall (cluster line : Nat)
  -- tool-core custom-0 instructions (R211)
  | futArgTake (rs2 rs1 rd : Reg)
  | futArgLen (rs2 rs1 rd : Reg)
  | futArgDeadline (rs2 rs1 rd : Reg)
  | futArgTool (rs2 rs1 rd : Reg)
  | futArgCopy (rs2 rs1 rd : Reg)
  | futResolve (rs2 rs1 rd : Reg)
  | futFail (rs2 rs1 rd : Reg)
  | capProbe (rs2 rs1 rd : Reg)
  -- tool-cluster events (R208 to R210)
  | capCsrWrite (hart csr : Nat) (mMode : Bool) (v : Word)
  | toolAccessFault (hart cause : Nat) (va : Word)
  | toolException (hart cause : Nat) (served : Bool)
  -- host messages and the mailbox (R80 to R89)
  | jobstart (m : Words8)
  | jobcancel (m : Words8)
  | futres (m : Words8)
  | mgmtReadCounters (m : Words8)
  | mgmtAttest (m : Words8)
  | mgmtLoadKey (m : Words8)
  | mgmtSetPowerCap (m : Words8)
  | mgmtFirmwareImage (m : Words8)
  | h2dBadType (m : Words8)
  | h2dEnqueueDrop
  | d2hDequeue
  | mboxIrqTimeout
  -- host translation (R90 to R92)
  | atsCompletion (pasid : Nat) (page : AtsPage) (read write : Bool)
  | priResponseSuccess (pasid page : Nat)
  | priResponseInvalid (pasid page : Nat)
  | priResponseFailure (pasid page : Nat)
  | priTimeout (pasid page : Nat)
  | atsInvalidateRequest (pasid base len : Nat)
  | atsInvalidateCompletion (pasid base len : Nat)
  -- pool memory and remote tools (R93 to R101)
  | poolCompletion (token : Nat) (data : List Byte) (poison : Bool)
  | poolTimeout (token : Nat)
  | cxlwinWrite (n : Nat) (v : Word)
  | uetReplyArrival (r : UetReply)
  | uetUndeliverable (handle : BitVec 32)
  -- faults and replay (R113, R114, R133)
  | faultRingRetry (launch : Nat)
  | replayQueueFree
  | freplayReplay (token : Nat)
  | freplayAbort (token : Nat)
  -- heat and the churn engine (R115 to R124)
  | heatDecay
  | heatcfgWrite (v : Word)
  | migrate (cmd : Nat)
  | compress (cmd : Nat)
  | decompress (cmd : Nat)
  | churnQOverflow (cmd : Nat)
  | freeze (cmd : Nat)
  | copy (cmd : Nat)
  | release (cmd : Nat)
  | done (cmd : Nat)
  | zPageDecompress (token : Nat)
  | freeFramePoll
  -- dispatch and work (R128 to R160)
  | dispatchStep (cluster : Nat)
  | waitWordRead (cluster task : Nat)
  | footprintFetchDone (id : SlotId)
  | save (id : SlotId)
  | saveComplete (id : SlotId)
  | taskPacketArrival (cluster : Nat) (src : SlotId) (colour : Bool) (pkt : Words8)
  | overflowReturn (cluster : Nat)
  | messageArrival (core level : Nat) (src : SlotId) (msg : Words8)
  | messagePlacement (core level : Nat)
  | msgack (id : SlotId) (launch : Nat) (task : Bool)
  | spawnRequestArrival (r : SpawnReq)
  | spawnwResend (r : SpawnReq)
  | primarySlotFree (core : Nat)
  | launchComplete (idx : Nat)
  | phaseAdvance (part : Nat)
  | lmigGo (v : Word)
  | lmigStreamDone
  | lmigFwdClear (i : Nat)
  -- register writes (R9, R79, R135, R222, R238, R447)
  | qovfWrite (d : Nat) (v : Word)
  | partcfgWrite (n : Nat) (v : Word)
  | corecfgWrite (core : Nat) (v : Word)
  | mxmodeWrite (core : Nat) (v : Word)
  | fabricCfgWrite (v : Word)
  | registerWrite (r : HubReg) (v : Word)
  -- fabric, homes, migrants (R54 to R74, R261)
  | routeHop (p : FabPkt)
  | norouteArrival (p : FabPkt)
  | homeAccess (a : Access)
  | migrantArrival (m : Migrant)
  | migrantEntry (core : Nat)
  | mack (id : SlotId)
  | mnak (id : SlotId)
  | migrantResend (id : SlotId)
  | pwack (id : SlotId) (count : Nat)
  | pwackCombineTimeout (id : SlotId)
  | weirMark (target : Nat)
  | weirTick
  | weirFree
  | weirAdmit (target : Nat)
  | peerOwnershipRequest (line modid agent : Nat)
  | peerRecallDone (line : Nat)
  | peerLoss (modid : Nat)
  -- gang launch (R75 to R78)
  | gprep (m : GangMsg)
  | gpack (m : GangMsg)
  | gpnak (m : GangMsg)
  | gcommit (m : GangMsg)
  | gstart (m : GangMsg)
  | gabort (m : GangMsg)
  | gstop (m : GangMsg)
  | gangTaskFetchDone (init : Nat) (launch : Word)
  | gangPrepareTimeout (launch : Word)
  | gangStartTimeout (launch : Word)
  | orphanTimeout (init : Nat) (launch : Word)
  -- the sluice (R31 to R47)
  | lgreq (m : SluiceMsg)
  | lgack (m : SluiceMsg)
  | lgnak (m : SluiceMsg)
  | lshrink (m : SluiceMsg)
  | lrecall (m : SluiceMsg)
  | lswap (m : SluiceMsg) (next : SluiceMsg)
  | llit (m : SluiceMsg)
  | lalive (m : SluiceMsg)
  | laliveSend
  | sluiceBadType (m : SluiceMsg)
  | lgreqTimeout (d : Nat)
  | reversionResend (d : Nat)
  | leaseExpiry (d : Nat)
  | retuneTimeout (d lane : Nat)
  | drainDone (d lane : Nat)
  | drainTimeout (d lane : Nat)
  | laneFailure (d lane : Nat)
  | slotClear (d lane : Nat)
  | directionTrained (d modid : Nat)
  | directionDown (d : Nat)
  -- the levee and rollback (R170 to R185, R448)
  | leveeSweepStart (part : Nat)
  | sweep (m : SweepMsg)
  | report (m : SweepMsg)
  | levpub (m : SweepMsg)
  | csweepStart (idx : Nat)
  | csweep (m : SweepMsg)
  | creport (m : SweepMsg)
  | rollBack (core : Nat) (victims : List Nat)
  | antiMessageArrival (cluster : Nat) (colour : Bool) (hdr : Words8)
  -- futures and sequences (R192 to R203)
  | futureQueueEntry (ctx : Nat)
  | futureTimeout (idx : Nat)
  | injection (idx : Nat)
  | waitingToCalling
  -- memory-side retries and fills (R253, R273, R290)
  | syncRetry (a : Access)
  | codeLineFill (cluster line : Nat)
  | wsRefresh (group : Nat)
  -- power, heat, counters, reset (R16 to R25)
  | powerCapCheck (average : Nat)
  | thermalWarning (die temp : Nat)
  | fatalThermal (die temp : Nat)
  | counterFlush
  | mctpCounterRead
  | powerOn (verified : Bool) (digests : List (BitVec 512))
  | moduleReset
  | powerLoss
  | multiRotationResult (id : SlotId)
  | hostReadCompletion (token : Nat) (data : List Byte)
  | lineFill (cluster dev line : Nat) (data : List Byte)
  | creditReturn (modid set flits : Nat)
  | priEnable (pasid : Nat)
  | orderlyShutdown
  | toolCoreAccess (hart : Nat) (va : Word) (size : Nat) (k : ToolAccess)
  | secondsSpent (temps : List Nat) (bers : List Nat)
  | illegalInstruction (w : BitVec 32)
  | streamDecodeCondition (copy : Bool) (core sid dsub : Nat)
  deriving DecidableEq, Repr

end Sys2Proof
end

