-- ==== Sys2Proof/Machine/Event.lean ====
section
/-! DEFINITION. The events of the module as the schedule holds them: one for each row of the table that is no
instruction word, with the same operands as its constructor of Instr (notes/assumptions/4); and after them the arrivals
and the outside's acts that the spec describes and the table gives no row (notes/assumptions/91). -/

namespace Sys2Proof.Machine

open Sys2Proof

/-- An event due, timed or in flight. -/
inductive Ev
  | keySweepDone (key : Nat)
  | tlbiComplete (id : SlotId)
  | mmwaitMatch (core : Nat)
  | cpwaitMatch (cluster sid : Nat)
  | copySourceRowFull (cluster sid : Nat)
  | copyWritebackAck (cluster sid : Nat)
  | lineRecall (cluster line : Nat)
  | capCsrWrite (hart csr : Nat) (mMode : Bool) (v : Word)
  | toolAccessFault (hart cause : Nat) (va : Word)
  | toolException (hart cause : Nat) (served : Bool)
  | jobstart (m : Words8)
  | jobcancel (m : Words8)
  | futres (m : Words8)
  | mgmtReadCounters (m : Words8)
  | mgmtAttest (m : Words8)
  | mgmtLoadKey (m : Words8)
  | mgmtSetPowerCap (m : Words8)
  | mgmtFirmwareImage (m : Words8)
  | h2dBadType (m : Words8)
  | h2dEnqueueDrop
  | d2hDequeue
  | mboxIrqTimeout
  | atsCompletion (pasid : Nat) (page : AtsPage) (read write : Bool)
  | priResponseSuccess (pasid page : Nat)
  | priResponseInvalid (pasid page : Nat)
  | priResponseFailure (pasid page : Nat)
  | priTimeout (pasid page : Nat)
  | atsInvalidateRequest (pasid base len : Nat)
  | atsInvalidateCompletion (pasid base len : Nat)
  | poolCompletion (token : Nat) (data : List Byte) (poison : Bool)
  | poolTimeout (token : Nat)
  | cxlwinWrite (n : Nat) (v : Word)
  | uetReplyArrival (r : UetReply)
  | uetUndeliverable (handle : BitVec 32)
  | faultRingRetry (launch : Nat)
  | replayQueueFree
  | freplayReplay (token : Nat)
  | freplayAbort (token : Nat)
  | heatDecay
  | heatcfgWrite (v : Word)
  | migrate (cmd : Nat)
  | compress (cmd : Nat)
  | decompress (cmd : Nat)
  | churnQOverflow (cmd : Nat)
  | freeze (cmd : Nat)
  | copy (cmd : Nat)
  | release (cmd : Nat)
  | done (cmd : Nat)
  | zPageDecompress (token : Nat)
  | freeFramePoll
  | dispatchStep (cluster : Nat)
  | waitWordRead (cluster task : Nat)
  | footprintFetchDone (id : SlotId)
  | save (id : SlotId)
  | saveComplete (id : SlotId)
  | taskPacketArrival (cluster : Nat) (src : SlotId) (colour : Bool) (pkt : Words8)
  | overflowReturn (cluster : Nat)
  | messageArrival (core level : Nat) (src : SlotId) (msg : Words8)
  | messagePlacement (core level : Nat)
  | msgack (id : SlotId) (launch : Nat) (task : Bool)
  | spawnRequestArrival (r : SpawnReq)
  | spawnwResend (r : SpawnReq)
  | primarySlotFree (core : Nat)
  | launchComplete (idx : Nat)
  | phaseAdvance (part : Nat)
  | lmigGo (v : Word)
  | lmigStreamDone
  | lmigFwdClear (i : Nat)
  | qovfWrite (d : Nat) (v : Word)
  | partcfgWrite (n : Nat) (v : Word)
  | corecfgWrite (core : Nat) (v : Word)
  | mxmodeWrite (core : Nat) (v : Word)
  | fabricCfgWrite (v : Word)
  | registerWrite (r : HubReg) (v : Word)
  | routeHop (p : FabPkt)
  | norouteArrival (p : FabPkt)
  | homeAccess (a : Access)
  | migrantArrival (m : Migrant)
  | migrantEntry (core : Nat)
  | mack (id : SlotId)
  | mnak (id : SlotId)
  | migrantResend (id : SlotId)
  | pwack (id : SlotId) (count : Nat)
  | pwackCombineTimeout (id : SlotId)
  | weirMark (target : Nat)
  | weirTick
  | weirFree
  | weirAdmit (target : Nat)
  | peerOwnershipRequest (line modid agent : Nat)
  | peerRecallDone (line : Nat)
  | peerLoss (modid : Nat)
  | gprep (m : GangMsg)
  | gpack (m : GangMsg)
  | gpnak (m : GangMsg)
  | gcommit (m : GangMsg)
  | gstart (m : GangMsg)
  | gabort (m : GangMsg)
  | gstop (m : GangMsg)
  | gangTaskFetchDone (init : Nat) (launch : Word)
  | gangPrepareTimeout (launch : Word)
  | gangStartTimeout (launch : Word)
  | orphanTimeout (init : Nat) (launch : Word)
  | lgreq (m : SluiceMsg)
  | lgack (m : SluiceMsg)
  | lgnak (m : SluiceMsg)
  | lshrink (m : SluiceMsg)
  | lrecall (m : SluiceMsg)
  | lswap (m : SluiceMsg) (next : SluiceMsg)
  | llit (m : SluiceMsg)
  | lalive (m : SluiceMsg)
  | laliveSend
  | sluiceBadType (m : SluiceMsg)
  | lgreqTimeout (d : Nat)
  | reversionResend (d : Nat)
  | leaseExpiry (d : Nat)
  | retuneTimeout (d lane : Nat)
  | drainDone (d lane : Nat)
  | drainTimeout (d lane : Nat)
  | laneFailure (d lane : Nat)
  | slotClear (d lane : Nat)
  | directionTrained (d modid : Nat)
  | directionDown (d : Nat)
  | leveeSweepStart (part : Nat)
  | sweep (m : SweepMsg)
  | report (m : SweepMsg)
  | levpub (m : SweepMsg)
  | csweepStart (idx : Nat)
  | csweep (m : SweepMsg)
  | creport (m : SweepMsg)
  | rollBack (core : Nat) (victims : List Nat)
  | antiMessageArrival (cluster : Nat) (colour : Bool) (hdr : Words8)
  | futureQueueEntry (ctx : Nat)
  | futureTimeout (idx : Nat)
  | injection (idx : Nat)
  | waitingToCalling
  | syncRetry (a : Access)
  | codeLineFill (cluster line : Nat)
  | wsRefresh (group : Nat)
  | powerCapCheck (average : Nat)
  | thermalWarning (die temp : Nat)
  | fatalThermal (die temp : Nat)
  | counterFlush
  | mctpCounterRead
  | powerOn (verified : Bool) (digests : List (BitVec 512))
  | moduleReset
  | powerLoss
  | multiRotationResult (id : SlotId)
  | hostReadCompletion (token : Nat) (data : List Byte)
  | lineFill (cluster dev line : Nat) (data : List Byte)
  | creditReturn (modid set flits : Nat)
  | priEnable (pasid : Nat)
  | orderlyShutdown
  | toolCoreAccess (hart : Nat) (va : Word) (size : Nat) (k : ToolAccess)
  | secondsSpent (temps : List Nat) (bers : List Nat)
  | illegalInstruction (w : BitVec 32)
  | streamDecodeCondition (copy : Bool) (core sid dsub : Nat)
  -- lanes and links (R40, R43, R45, R46)
  | sluiceIn (d : Nat) (w0 w1 w2 w3 : Word)
  | tuneBegin (d lane : Nat)
  | rxTune (d lane : Nat)
  | rxLock (d lane : Nat)
  | laneWindow (d lane errs bits : Nat)
  | flitCheck (d lane : Nat) (ok : Bool)
  | linkAck (d num : Nat)
  | packetIn (d num : Nat) (p : FabPkt)
  -- what packets of other modules bring (R57, R58)
  | resultArrival (a : Access) (v0 v1 : Word)
  | abortArrival (a : Access) (psn : Bool)
  | spawnReply (r : SpawnReq) (v : Nat)
  | requestArrival (q : GuestReq)
  | answer (id : SlotId) (regs : List (Nat × Word)) (nest : Option (Nat × Nat × Nat))
      (trap : Option (Nat × Nat × Word × GuestReq))
  | lineAsked (modid line cache : Nat) (shared : Bool)
  | lineDataArrival (modid cache line : Nat) (data : List Byte) (psn : BitVec 8) (key : Nat)
  | lineStored (modid line cache : Nat) (data : List Byte) (mask : BitVec 64) (psn : Bool) (key : Nat)
  | lineWritten (cache dev line : Nat)
  | lineFaulted (modid cache line cause : Nat)
  | recallArrival (modid line : Nat)
  | recalledArrival (modid line : Nat) (data : Option (List Byte × Bool × Nat))
  | tlbiArrival (src slot : Nat) (job vpage : Option Nat)
  | tlbiReply (id : SlotId)
  | phaseArrival (src part : Nat)
  | phaseReply (part : Nat)
  | cancelAgain (launch : Nat)
  | promoteArrival (modid cluster : Nat) (id : SlotId)
  | promoted (id : SlotId)
  | haltDone (id : SlotId) (d part : Nat)
  | stopArrival (modid part : Nat) (launch : Option Nat) (resume fatal : Bool)
  | endedArrival (dcore launch spec sgen : Nat) (nest : Option (Nat × Nat × Nat)) (quit fail : Bool)
  | commitGo (core : Nat)
  | doomedArrival (dcore launch spec sgen : Nat)
  | recordArrival (launch job : Nat) (w0 w1 w2 w3 : Word)
  | cancelledArrival (modid launch : Nat)
  | launchOver (modid launch st : Nat)
  -- a command of the churn engine goes on, and what ECC finds (R117, R24)
  | churnGo (n : Nat)
  | eccError (channel bank : Nat) (corrected : Bool)
  -- the host's accesses to the BARs (R80 to R85)
  | barRead (bar off size : Nat)
  | barWrite (bar off size v : Nat)
  deriving DecidableEq, Repr

end Sys2Proof.Machine
end

