-- ==== Sys2Proof/Machine/State.lean ====
section
/-! DEFINITION. The state of one module as plain data, the reasons a step can stop, and the state after reset
(spec 01 to 11, 16). The model is of one module; the other modules, the host, the pool memory and the remote tools lie
outside it, and what leaves for them is recorded in `Sched.out`. -/

namespace Sys2Proof.Machine

open Sys2Proof

/-- The reasons for which the machine stops with a fault: none. Every fault that the spec names is an exception, a
status or a record of the machine itself, and the module goes on (R111, R304, R415). -/
inductive Fault
  deriving DecidableEq, Repr

/-- The reasons for which a meaning is refused. -/
inductive Refusal
  /-- An instruction that this model has not reached. Raised by the dispatch table. Safe. -/
  | notModelled (mnemonic : String)
  /-- A vector instruction of a tool core with its vector unit on: R207 names the unit, V 1.0, and gives none of its
  registers or instructions. Raised by the step for a tool core's turn. Safe. -/
  | toolVectorInstruction (word : BitVec 32)
  deriving DecidableEq, Repr

/-- A map from numbers to data: a list of pairs with strictly rising keys. -/
abbrev Map (α : Type) := List (Nat × α)

/-- The three parts of R1. -/
inductive Part | ny7740 | ny7720 | ny7710
  deriving DecidableEq, Repr

/-! ## Threads (09 R220 to R230, 16 R413) -/

/-- A general register: its value, its full/empty bit and whether a write to it is pending (R225). -/
structure RegCell where
  val : Word
  full : Bool
  pend : Bool
  deriving DecidableEq, Repr

/-- A transient latch (R226): the register it is bound to, its value and the cycle of its write. -/
structure Latch where
  reg : Nat
  val : Word
  at_ : Nat
  deriving DecidableEq, Repr

/-- A multi-rotation result in flight (R221): its register, its value and the cycle at which it is written. -/
structure Late where
  reg : Nat
  val : Word
  due : Nat
  deriving DecidableEq, Repr

/-- A trap as taken (R415, R416). -/
structure Trap where
  cause : Nat
  sub : Nat
  val : Word
  epc : Word
  deriving DecidableEq, Repr

/-- What a slot is doing (R220, R224, R63). -/
inductive SlotSt
  | free
  | running
  /-- Parked on a fault that holds the replay token (R114). -/
  | fault (token : Nat)
  /-- Its migrant packet is outstanding (R63). -/
  | away
  /-- Parked until a unit or a home answers: a waiter list, a fetcher, a barrier (R224). -/
  | waiting
  /-- A speculative task whose trap is held (R186). -/
  | trapHeld (t : Trap)
  /-- Being saved after its quiet point (R152): the block once its context is written, and whether V is written too. -/
  | saving (block : Option (Word × Bool))
  deriving DecidableEq, Repr

/-- The task a slot runs (R229, R136): what the migrant packet or the task packet gave it. -/
structure Task where
  regs : BitVec 2          -- REGS code: 8, 16, 24 or 32 registers
  prio : BitVec 2
  ord : Bool
  handler : Bool           -- posted under R133
  launch : Nat
  job : Nat
  part : Nat               -- its partition
  dcore : Nat              -- global core identifier of the dispatching core
  pkt : Words8             -- the task packet; words 0 and 1 are the key (R163)
  tfmt : Word
  tfi : Nat                -- its table-cache entry on DCORE
  tscl : BitVec 16
  nest : Option (Nat × Nat × Nat)  -- NCLU, nest number and participant entry (R229)
  joins : List Word        -- barrier join list (R357)
  pins : List Nat          -- rows pinned for it on its dispatching core (R140)
  spec : Nat               -- speculation entry and generation (R166)
  sgen : BitVec 8
  enq : Nat                -- enqueue STAMP
  start : Nat              -- STAMP of the start
  spawned : Bool           -- placed by SPAWN, not dispatched (R139, R151)
  pre : Bool               -- its pre-emption was requested before it left (R153)
  deriving DecidableEq, Repr

/-- A slot of a core. -/
structure Slot where
  st : SlotSt
  guest : Bool             -- holds a migrant (R222)
  reserved : Bool          -- reserved by the dispatcher at CHOSEN (R140)
  halted : Bool            -- stopped by a gang stop (R158)
  doomed : Bool            -- to be killed at its next issue (R134, R171)
  preempt : Bool           -- a pre-emption or a live-migration save is requested (R151, R155)
  pc : Word
  fell : Bool              -- pc was reached by falling past a line whose NEXT is 0 (R287)
  entry : Bool             -- an entry line is required at pc (R288)
  quietBad : Option (Nat × Word)   -- quiet-point violation due: subcode and TVAL (R149)
  lines : Nat              -- lines left since a quiet point (R149)
  regs : Map RegCell
  latches : List Latch
  expired : BitVec 32      -- registers whose transient lost its latch or expired by an event (R226)
  late : List Late
  p : Map Word             -- p0 to p3 (R234)
  plost : BitVec 4
  tepc : Word
  tcause : Word
  tval : Word
  intrap : Bool
  psup : Bool
  sup : Bool
  posted : Nat
  task : Task
  outst : Nat              -- results of accesses sent without migration, not yet written (R338)
  acq : Option (BitVec 3)  -- acquire whose steps are not complete (R343, R352)
  relBegun : Bool          -- the steps of a release have begun (R343)
  unackMsg : Nat           -- unacknowledged messages (R146)
  q4 : Nat                 -- unanswered token-engine requests (R407)
  q5 : Nat                 -- unanswered future-table requests
  spawns : Nat             -- unanswered SPAWN and SPAWNW requests (R139)
  recvs : Nat              -- waiting RECV and RECVP requests (R402)
  toks0 : List (Word × Nat)   -- q0: completion tokens (R374), each with the subcode of R165 of an ORDER cause
  toks1 : List (Word × Nat)   -- q1
  streams0 : Nat           -- matrix streams of the slot outstanding
  streams1 : Nat           -- copy streams of the slot outstanding
  mack : Option Migrant    -- the migrant outstanding (R63)
  mnaks : Nat              -- refusals in a row
  next : Word              -- where a waiting instruction continues
  nextFell : Bool
  wreg : Nat               -- register a waiting instruction writes
  serving : Option GuestReq   -- in a slot from 16 on, the guest's request that it serves (notes/assumptions/91)
  deriving DecidableEq, Repr

/-! ## Cores -/

/-- Row tags (R231). -/
structure RowTag where
  full : Bool
  pin : Bool
  poison : Bool
  deriving DecidableEq, Repr

/-- A scratchpad write on its way to its bank (R232): when later accesses see it, its slot, its offset, its bytes, and
the row whose poison tag it clears. -/
structure ScrWrite where
  due : Nat
  slot : Nat
  off : Nat
  data : List Byte
  clean : Option Nat
  deriving DecidableEq, Repr

/-- A write to c0 to c7 on its way (R227). -/
structure CWrite where
  due : Nat
  n : Nat
  val : Word
  deriving DecidableEq, Repr

/-- A table-cache entry (R255): the job and address of its image, the tasks that use it, the image. -/
structure TableEnt where
  job : Nat
  va : Word
  users : Nat
  data : List Byte
  deriving DecidableEq, Repr

/-- States of a speculation-table entry (R166); `committing` once its task's stores have been released (R183, R281). -/
inductive SpecSt | running | held | committing
  deriving DecidableEq, Repr

/-- An entry in use of the speculation table (R166). -/
structure SpecEnt where
  pkt : Words8
  key : Nat
  rset : BitVec 768
  wset : BitVec 768
  st : SpecSt
  slot : Nat
  enq : Nat
  annihilated : Bool
  deriving DecidableEq, Repr

/-- What a log entry records (R172, R173). -/
inductive LogKind
  | rowImg (row : Nat) (image : List Byte) (fe psn : Bool)
  | child (pkt : Words8) (target : Nat)
  | dstore (recs : List (Word × Word))
  | irrev (recs : List (Word × Word × Word × Word))
  deriving DecidableEq, Repr

/-- A valid log entry: its index, its owner in the speculation table, its order (R172). -/
structure LogEnt where
  idx : Nat
  spec : Nat
  ordn : Nat
  kind : LogKind
  deriving DecidableEq, Repr

/-- A waiting RECV or RECVP (R402): slot, first destination, level. -/
structure RecvWait where
  core : Nat
  slot : Nat
  d : Nat
  level : Option Nat
  deriving DecidableEq, Repr

/-- A matrix stream (R240, R382): its slot, job and launch, its commands as word pairs, what ends the lines held, the
command to run, the stamp base, the first array cycle at which that command may begin, the offsets already passed in it,
the rows read by offset with their poison, the tables of its operands, the user tag, what its tokens say of poison and
dropped signals, the array cycle at which an MMWAIT began to pause, and whether it stops after its command. -/
structure MxStream where
  slot : Nat
  job : Nat
  launch : Nat
  ord : Bool
  cmds : List (BitVec 32 × BitVec 32)
  ends : Nat
  idx : Nat
  base : Nat
  free : Nat
  off : Option Nat
  got : Map (List Byte × Bool)
  eta : Nat
  etb : Nat
  tfi : Nat
  tscl : Nat
  tag : Nat
  psn : Bool
  ovf : Bool
  pause : Option Nat
  stop : Bool
  deriving DecidableEq, Repr

/-- A copy stream (R250, R374): the slot that started it, the line and the command in it, the commands decoded, where
the command stands, and what the stream has done. -/
structure CpStream where
  core : Nat
  slot : Nat
  job : Nat
  launch : Nat
  ord : Bool
  spec : Nat
  handler : Bool
  line : Word
  cmd : Nat                -- command within the line
  first : Bool             -- no line has been read yet: an entry line is required
  idx : Nat
  begun : Bool             -- rows entered, command under way
  seg : Nat                -- first row of the ownership segment
  owned : Nat              -- rows of the command whose lines are owned
  row : Nat                -- rows of the command moved
  tag : Nat
  psn : Bool
  fault : Option Nat       -- waits on this token (R114)
  outstanding : Nat        -- write-backs not acknowledged (R251)
  waitFor : Option (Bool × Nat × Nat × Bool)   -- waits on a tag (R385, R386): CPWAIT or a source row, core, row, tag
  user : Bool
  ww : Bool                -- a CPWW has begun (R420)
  stop : Bool
  fin : Option (Nat × Nat × Nat × Bool × Bool)  -- has ended: CAUSE, DSUB, subcode, DEC, ERR of its token
  deriving DecidableEq, Repr

/-- A line that a copy engine owns (R251, R252): its stream, the command's row, module and line, the key, the merged data with the words
that are poisoned, once the command has written them, and whether it has been recalled; `va` is the row's address. -/
structure OwnLine where
  sid : Nat
  row : Nat
  dev : Nat
  line : Nat
  key : Nat
  va : Word
  data : Option (List Byte × Bool)
  recalled : Bool
  deriving DecidableEq, Repr

/-- A core: tile core, dock core or hub dock core (R13). -/
structure Core where
  c : Map Word             -- c0 to c7
  cWrites : List CWrite
  guests : Nat             -- CORECFG.GUESTS
  tvec : Word
  post : BitVec 32         -- post counter (R136)
  rows : Map RowTag        -- rows whose tags have been written; the others are full, unpinned, clean
  writes : List ScrWrite
  vuBusy : Nat             -- first cycle on which the vector unit is free again (R233)
  tables : Map TableEnt    -- by entry number, 0 to 3
  mail : Map (List Words8) -- mailbox levels, oldest first, with their senders
  recvs : List RecvWait
  spawnws : List SpawnReq
  spec : Map SpecEnt
  gens : Map (BitVec 8)    -- generations of the speculation entries
  log : List LogEnt
  ordn : Nat
  rolls : Nat              -- VTSTAT.ROLLS
  sentN : Nat              -- messages and posted tasks sent and received since job start (R159)
  recvN : Nat
  levee : Option Nat       -- the levee as last published at the core (R182)
  gsStamp : Word
  gsSent : Nat
  gsRecv : Nat
  mx : List MxStream       -- matrix streams, the running one first (R382)
  away : List Task         -- tasks dispatched from this core that run elsewhere (R230, R357)
  heldPins : List (Nat × Nat × List Nat)   -- rows of ended tasks that their last commands still use: core, slot, rows (R134)
  slots : Map Slot
  deriving DecidableEq, Repr

/-! ## Memory -/

/-- An access at a home that waits for a tag, with its retries so far (R273), or an arrival that waits for its episode, with
the GEN of that episode (R358). -/
structure Waiter where
  acc : Access
  tries : Nat
  parked : Bool
  deriving DecidableEq, Repr

/-- A cached page-table entry (R109): where it is cached, the tag of the job or partition, the level, the virtual page
of that level, the entry, and the physical address it was read from. -/
structure TcEnt where
  loc : Nat
  tag : Nat
  level : Nat
  vpn : Nat
  pte : Word
  src : Nat
  deriving DecidableEq, Repr

/-- A line of a cluster cache, or of the remote-line cache (loc 1024), with its phase tag and dirty bytes (R270). -/
structure CLine where
  loc : Nat
  dev : Nat
  line : Nat               -- PA[51:6]
  phase : Nat
  part : Nat
  key : Nat                -- the key of its bytes; noKey when they were never written under one
  data : List Byte
  dirty : BitVec 64
  psn : BitVec 8           -- words that pool memory returned poisoned (R94)
  deriving DecidableEq, Repr

/-- A code line held in a code cache (R290): the cache, the module and line (module·2^46 + PA[51:6]), the job and page
under which it was fetched, and its sixteen words. -/
structure CodeLine where
  loc : Nat
  line : Nat
  job : Nat
  vpage : Nat
  words : List (BitVec 32)
  deriving DecidableEq, Repr

/-- What waits in a replay queue (R114). -/
inductive Waiting
  | thread (id : SlotId)             -- the instruction issues again
  | access (a : Access)              -- the access runs again
  | copy (cluster sid : Nat)
  | footprint (cluster task : Nat)
  | churn (cmd : Nat)
  | call (op : Nat)                  -- a CALLT (R205)
  | future (op : Nat)                -- work of the future table
  | token (op : Nat)                 -- a request at the token engine
  | hart (n h : Nat)                 -- a fut.arg copy of the call with this handle
  | launch (id : SlotId) (d : Nat) (desc : Word) (graph : Bool)
  | gang (init : Nat) (launch : Word)
  | ring (launch : Nat)              -- the writing of a record into a fault ring (R133)
  deriving DecidableEq, Repr

/-- A waiting access with its token (R113). -/
structure Replay where
  token : Nat
  job : Nat
  launch : Nat
  va : Word
  what : Waiting
  deriving DecidableEq, Repr

/-- A page that migrates (R120): the old frame, the new frame, whether the old is frozen and the new pending. -/
structure MovingPage where
  old : Nat                -- PA[51:12]
  new : Nat
  frozen : Bool
  pending : Bool
  queue : List Access      -- in order of arrival
  deriving DecidableEq, Repr

/-- A TLBI that is not complete (R110): who waits for it (for another module's, its global core above 2^30), the job and page
it selects, the modules that have not reported, and what used a dropped entry: accesses at homes of this module, lines that
copy engines own, and for slots with accesses at other modules how many answers are to come. -/
structure TlbWait where
  id : SlotId
  job : Option Nat
  vpage : Option Nat
  left : Nat
  accs : List Access
  owned : List (Nat × Nat)
  slots : List (SlotId × Nat)
  deriving DecidableEq, Repr

/-- Memory and what the homes hold. -/
structure Mem where
  cells : List Host.Cell   -- bytes of regions 0x0 to 0x3 by physical address; unlisted bytes are zero
  empties : List Nat       -- word addresses (PA / 8) whose tag is empty, rising (R272)
  poison : List Nat        -- poisoned words (PA / 8), rising
  keys : Map Nat           -- key (identifier and load) under which a line (PA / 64) was last written, when not 0 (R125)
  waiters : List Waiter    -- waiter lists of all homes, in list order
  tcache : List TcEnt
  clines : List CLine
  code : List CodeLine
  fills : List (Nat × Nat × Nat)    -- line fills asked for: cache, module, line
  codeFills : List CodeLine         -- code lines asked for, their words not yet there
  replay : List Replay
  stopped : List Replay    -- accesses whose engines stopped on full replay queues (R113)
  nextToken : Nat
  wsOpen : BitVec 8        -- dies whose weight store is open (R420)
  moving : List MovingPage
  heatCount : Map Nat      -- access counters of the homes (R115)
  peers : Map (List Nat × Nat)      -- peer directory: sharers of a line (in the coarse form 2^14 + bit) and owner + 1 (R73)
  peerRecalls : List Nat            -- lines being recalled from peers, rising
  recallOut : List (Nat × Nat)      -- of those, the modules that have not yet answered: line and module
  peerWait : List (Nat × Nat × Nat × Nat)   -- ownership requests that wait: cycle, line, module, agent (R74)
  dead : List (Nat × Nat × Nat × Nat)   -- line requests that failed: cache, module, line, cause (R57, R94)
  wbOut : List (Nat × Nat × Nat)    -- write-backs not acknowledged: cache, module, line (R266, R270)
  tlbis : List TlbWait
  resvs : List (Nat × Nat)          -- reservations of the tool harts' LR: hart and line (R209)
  refresh : Map Nat                 -- weight-store groups: the cycle on which the refresh ends (R253)
  deriving DecidableEq, Repr

/-! ## Arrays (10 R238 to R249) -/

/-- An array pair: MXMODE, the four tiles of 16 rows of 32 f32 values, a poison bit for each row, and the launch that
last used each tile. -/
structure ArrayPair where
  w : BitVec 2
  mode : BitVec 2
  err : Bool
  tiles : Map (BitVec 32)  -- tile·512 + row·32 + column
  poison : BitVec 64       -- tile·16 + row
  owner : Map Nat          -- launch that last used the tile
  deriving DecidableEq, Repr

/-! ## Work (06) -/

/-- An entry of the launch table that is not FREE (R132). -/
structure Launch where
  st : Nat
  npred : Nat
  graph : Nat
  count : Nat
  handler : Word
  hcore : Nat
  part : Nat
  init : Nat
  fail : Bool
  multi : Bool
  ord : Bool
  save : Word
  farea : Word
  fahead : Nat
  phase : Nat
  start : Nat
  end_ : Nat
  job : Nat
  cancelled : Bool
  stalled : List (Nat × Word × Word × Word × Word)  -- fault records waiting for a ring slot
  sent : Nat × Nat          -- SENT of colour 0 and 1 (R448)
  recv : Nat × Nat
  colour : Bool
  modules : List Nat        -- module list of a MULTI launch
  deriving DecidableEq, Repr

/-- The ordered block of a launch (R162). -/
structure OrdBlk where
  optwin : Word
  lfirst : Nat
  nlog : Nat
  period : Nat
  time0 : Word
  deriving DecidableEq, Repr

/-- A launch of a graph that has not started (R398): its index, its root packet, filled but for TIME, the core of the
root, its ordered block. -/
structure Root where
  launch : Nat
  pkt : Words8
  core : Nat
  blk : Option OrdBlk
  deriving DecidableEq, Repr

/-- A graph (R129): its launches in the order of its entries, their PRED masks, the launches still to start, its job.
`st` is 2 while it runs, 1 when a launch has failed, 0 when it is cancelled, and 3, 4 or 5 when it has ended DONE,
CANCELLED or FAILED. -/
structure Graph where
  launches : List Nat
  preds : List Word
  roots : List Root
  st : Nat
  job : Nat
  deriving DecidableEq, Repr

/-- Where a queued task stands (R140). -/
inductive TaskSt
  | waitw
  | fetch (core slot : Nat)
  /-- An anti-message that waits for its positive (R176). -/
  | anti
  /-- A saved task that resumes only on this core, from the block at this address (R154). -/
  | saved (core : Nat) (block : Word)
  /-- A saved task that is being restored to a slot of its core (R237). -/
  | resume (core slot : Nat) (block : Word)
  deriving DecidableEq, Repr

/-- A queued task of a cluster: its packet, job, enqueue STAMP, state; its footprint entries once they are read, whether
they or the packet break a rule (R137), the WAIT entries seen full, the footprint rows fetched; for how long it has been
a candidate that fits no core (R151); whether a handler task (R133); the task itself once it has been saved. -/
structure QTask where
  id : Nat
  pkt : Words8
  job : Nat
  enq : Nat
  st : TaskSt
  foot : Option (List (Word × Word))
  bad : Bool
  asked : List Nat          -- WAIT entries whose words are being read
  sat : List Nat
  got : Nat
  cand : Nat                -- STAMP since which it is a candidate, plus 1; 0 when it is not
  handler : Bool
  task : Option Task
  deriving DecidableEq, Repr

/-- A nest of an iteration fetcher (R147). -/
structure Nest where
  addr : Word
  launch : Nat
  n0 : Nat
  n1 : Nat
  n2 : Nat
  ndim : Nat
  minchunk : Nat
  next : Nat
  remaining : Nat
  parts : Map (Nat × Nat)   -- participant entries: chunk base and remaining count (R230)
  deriving DecidableEq, Repr

/-- A cluster: its task queue, overflow ring, holding buffer, nests, copy streams, levee counts. -/
structure Cluster where
  queue : List QTask
  ring : List QTask         -- the overflow ring, oldest first (its bytes also lie in memory)
  ringHead : Nat
  blocked : List (SlotId × Bool × Words8)   -- packets held in the message class, with their colours (R142)
  holding : List (Nat × Nat × SlotId × Words8)   -- core, level, sender, message (R146)
  heldMsgs : List (Nat × Nat × SlotId × Words8)  -- messages held in the message class
  nests : Map Nest
  copies : Map CpStream
  copyLines : List OwnLine                       -- lines the copy engine owns (R252)
  sent : Nat × Nat          -- SENT of colour 0 and 1 (R179)
  recv : Nat × Nat
  colour : Bool
  minSent : Nat             -- lowest key sent in the current colour since the flip
  preempt : List (Nat × Nat × Nat)  -- pre-emptions in progress (R151): waiting task, victim core, victim slot
  deriving DecidableEq, Repr

/-- A running ordered launch of a partition, as its initiator and its cores hold it (R162, R180). -/
structure Ordered where
  part : Nat
  launch : Nat
  optwin : Nat
  lfirst : Nat
  nlog : Nat
  period : Nat
  time0 : Nat
  levee : Nat
  num : Nat
  colour : Bool
  accepted : Bool
  sweeping : Bool
  idles : Nat
  got : List SweepMsg
  began : Nat
  dockSent : Nat × Nat
  dockRecv : Nat × Nat
  dockColour : Bool
  dockMin : Nat
  dockLevee : Option Nat    -- the levee as last published at the dock cores
  deriving DecidableEq, Repr

/-- A completion sweep of a MULTI launch at its initiator (R448). -/
structure CSweep where
  launch : Nat
  num : Nat
  colour : Bool
  accepted : Bool
  sweeping : Bool
  idles : Nat
  got : List SweepMsg
  began : Nat
  fail : Bool
  deriving DecidableEq, Repr

/-- A job (04 R89). -/
structure Job where
  root : Nat
  pasid : Nat
  key : Nat
  part : Nat
  running : Bool
  cancelled : Bool
  rootLaunch : Nat
  launches : List Nat
  graphs : List Nat
  tag : Nat
  anyFailed : Bool
  started : Nat
  deriving DecidableEq, Repr

/-- A waiting JOINW (R400). -/
structure JoinWait where
  id : SlotId
  d : Nat
  level : Nat
  index : Nat
  deriving DecidableEq, Repr

/-- A gang stop in force (R157, R160), with the module that made it. -/
structure GangStop where
  mod : Nat
  part : Nat
  launch : Option Nat
  fatal : Bool
  deriving DecidableEq, Repr

/-- A migrant in a holding buffer (R63): its packet, the task as its dispatching core has it (R230), and whether it takes
an entry that is kept for RESERVE. -/
structure HeldMigrant where
  m : Migrant
  task : Task
  res : Bool
  deriving DecidableEq, Repr

/-- Work state of the module. -/
structure Work where
  launches : Map Launch
  rootWait : Map (SlotId × Nat)   -- launches whose LAUNCH is answered when the root task is enqueued (R397)
  graphs : Map Graph
  clusters : Map Cluster
  jobs : Map Job
  joins : List JoinWait
  qovf : Map Word
  age : Nat
  predly : Nat
  cap : Nat
  partcfg : Map Word
  phases : Map Nat            -- partition to phase number
  phaseSets : Map (List Nat)  -- partition to its registered graphs
  advancing : List Nat        -- partitions whose phase advance writes back
  phaseLeft : Map Nat         -- of those, the modules that have not yet written back (R270)
  phaseFor : Map (List Nat)   -- advances of other modules: partition to modules that await this one (R270)
  ordered : Map Ordered
  csweeps : Map CSweep
  stops : List GangStop
  lmigSrc : Nat            -- SRC and DST of LMIG_CTL as last written
  lmigDst : Nat
  lmigFrom : Nat           -- the core that moves, and where to (R155)
  lmigTo : Nat
  lmigStatus : Nat
  lmigFwd : Map Word
  lmigQueue : List Ev      -- packets that wait in the source's replay queue (R155)
  lmigSaved : List (Nat × Slot)
  lmigGone : List Nat      -- cores whose forwarding entry has been cleared, rising (R156)
  nextTask : Nat
  migrants : List HeldMigrant     -- holding buffers, oldest first (R63, R222)
  refused : List (Nat × Migrant)  -- migrants with RESERVE that were refused, with the cycle (R63)
  deriving DecidableEq, Repr

/-! ## Agent services (08) -/

/-- A future (R195): its state, reason, generation, job, launch and tool; whether it belongs to a sequence and which,
else its caller's core and slot; the deadline as asked for in µs and as a STAMP; the argument and reply buffers; the
reply bytes written; the STAMP at which it entered CALLED; whether its caller ran at user level; the address of
its call descriptor; the WAITF requests that wait for it. -/
structure Future where
  st : Nat
  reason : Nat
  gen : Nat
  job : Nat
  launch : Nat
  tool : Nat
  sb : Bool
  seqi : Nat
  caller : Nat
  cslot : Nat
  dlus : Nat
  deadline : Nat
  argva : Word
  arglen : Nat
  repva : Word
  repcap : Nat
  replen : Nat
  sent : Nat
  user : Bool
  descva : Word
  watch : List (SlotId × Nat)
  deriving DecidableEq, Repr

/-- A CALLT at the future table (R205): who waits for its result, the descriptor's address and, once it is read, its
words; what the request carries of its task; whether it has been denied, and whether it waits on a fault. -/
structure CallOp where
  id : SlotId
  d : Nat
  va : Word
  got : Option (Word × Word × Word × Word)
  job : Nat
  launch : Nat
  handler : Bool
  user : Bool
  ord : Bool
  spec : Nat
  dcore : Nat
  word : Word              -- the instruction word, for the unit-absent trap (R22)
  before : Slot            -- the slot before it issued, which that trap restores (R22)
  denied : Bool
  stalled : Bool
  deriving DecidableEq, Repr

/-- Work of the future table on a future: sending a remote call, writing a reply (a reason of 0 resolves), routing the
call of an ordered task; and whether it waits on a fault. -/
inductive FutWork
  | send
  | reply (reason : Nat) (data : List Byte)
  | route
  deriving DecidableEq, Repr

structure FutOp where
  h : Nat
  work : FutWork
  va : Word
  stalled : Bool
  deriving DecidableEq, Repr

/-- What the token engine is asked to do (R205, R202, R206). -/
inductive TokKind
  | commit
  | commitAtRelease
  | encode
  | decode
  | mask
  | inject
  /-- The call of a sequence in WAITING (R192). -/
  | call
  deriving DecidableEq, Repr

/-- A request at the token engine: the sequence, the second operand (for an injection the future), what the request
carries of its task, who waits for its result, whether its template is left out, whether the fault it waits on was met
in its template, and whether it waits. -/
structure TokOp where
  kind : TokKind
  seq : Nat
  b : Word
  job : Nat
  launch : Nat
  handler : Bool
  user : Bool
  id : Option (SlotId × Nat)
  noTpl : Bool
  inTpl : Bool
  stalled : Bool
  derived : Bool
  asked : Bool     -- the tag of a mask record in another module has been asked for, and seen full (R205)
  seen : Bool
  deriving DecidableEq, Repr

/-- A tool hart (R207 to R211): stalled while the future table waits on a fault of its instruction. -/
structure Hart where
  pc : Word
  x : Map Word
  ctx : Nat
  mMode : Bool
  userMode : Bool
  capBase : Map Word
  capCtl : Map Word
  satp : Word
  stall : Option Nat
  f : Map Word               -- floating-point registers
  csr : Map Word             -- the CSRs of the base instruction set that a program reads or writes
  deriving DecidableEq, Repr

/-- A tool context: its queue of calls, the calls that wait in OPEN to enter it, the calls it has taken and not yet
ended, and its entry image, the pc and the registers with which it restarts (R207, R210). -/
structure CtxQ where
  queue : List Nat
  waiting : List Nat
  taken : List Nat
  imgPc : Word
  imgX : Map Word
  deriving DecidableEq, Repr

/-- Agent services state. -/
structure Agents where
  futures : Map Future
  calls : Map CallOp
  futOps : Map FutOp
  tokOps : Map TokOp
  nextOp : Nat
  ctxs : Map CtxQ
  localTool : Map Word         -- 2 words an entry (R207)
  remoteTool : Map Word        -- 4 words an entry (R98)
  harts : Map Hart
  seqBase : Nat
  seqEn : Bool
  waitingSeqs : List (Nat × Nat)   -- sequences in WAITING with their jobs, in order (R192)
  callOver : List Nat          -- sequences whose gathered call passed CALLCAP (R201)
  counters : Map Nat           -- error counters of the units
  deriving DecidableEq, Repr

/-! ## Sluice, fabric (02, 03) -/

/-- The active lease of a direction (R32): its partition, the job that holds it, the STAMP at which it expires. -/
structure Lease where
  part : Nat
  job : Nat
  expiry : Nat
  deriving DecidableEq, Repr

/-- A request for lanes of a direction that is not yet decided (R35 to R37): its LGREQ, whether it has been sent and
when, who asked, the lease asked for, and whether the starvation rule grants it. -/
structure LanePend where
  msg : SluiceMsg
  sent : Bool
  at_ : Nat
  asker : Option (SlotId × Nat)
  part : Nat
  job : Nat
  target : Nat
  term : Nat
  starve : Bool
  deriving DecidableEq, Repr

/-- A LEASE that waits for the decision before it on its direction. -/
structure LeaseReq where
  id : SlotId
  d : Nat
  word : Word
  part : Nat
  job : Nat
  deriving DecidableEq, Repr

/-- A control message with its type. -/
structure CtlMsg where
  type : Nat
  msg : SluiceMsg
  deriving DecidableEq, Repr

/-- A packet begun on a lane and not yet acknowledged: its number on the direction, its lane, and itself (R45). -/
structure LinkPkt where
  num : Nat
  lane : Nat
  pkt : FabPkt
  deriving DecidableEq, Repr

/-- An LGREQ that waits for receive budget (R36, R37): the direction it came from, itself, and whether the starvation
rule grants it. -/
structure RxGrant where
  dir : Nat
  msg : SluiceMsg
  starve : Bool
  deriving DecidableEq, Repr

/-- A direction of the module (R26 to R50). Lane states are those of R50: 0 DARK, 1 GRANTED, 2 RETUNING, 3 LIT,
4 DRAINING, 5 FAILED; a lane that is not listed is DARK. LSTATE is that of R49. -/
structure Dir where
  present : Bool
  modid : Nat
  tx : Map Nat
  rx : Map Nat
  gen : BitVec 16
  lease : Option Lease
  lstate : Nat
  refuse : Nat
  recalled : Nat              -- lanes asked back with LRECALL and not yet returned
  seq : BitVec 8
  pend : Option LanePend
  waiting : List LeaseReq
  lastAlive : Nat
  dark : Nat                  -- the cycle since which no lane is LIT, plus 1; 0 while one is
  litAt : Map Nat             -- the cycle on which a lane entered LIT (R45)
  owed : List Nat             -- FAILED receive lanes whose budget stays counted until LSWAP or LSHRINK names them (R47)
  ctl : List CtlMsg           -- control messages that wait for a LIT lane (R40)
  link : List LinkPkt         -- packets begun and not yet acknowledged, oldest first (R45, R46)
  linkSeq : Nat               -- packets begun on the direction
  linkNext : Nat              -- the next packet to hand to the router, by its number
  linkBuf : Map FabPkt        -- packets received ahead of their turn
  retries : Map Nat           -- CRC failures in a row by lane (R46)
  swap : Option SluiceMsg     -- the first message of an LSWAP pair (R41)
  rxSeq : Option (BitVec 8)   -- SEQ of the last LGREQ acknowledged, which may be sent again (R36)
  deriving DecidableEq, Repr

/-- A weir toward a target module (R70, R71): F, the tokens in units of 1/1,114,112 byte and the cycle up to which they
are counted, the cycle of the last mark, the cycle since which F is 65,536. -/
structure Weir where
  f : Nat
  tokens : Nat
  filled : Nat
  lastMark : Nat
  full : Nat
  deriving DecidableEq, Repr

/-- A gang launch prepared on this module for another initiator (R76). -/
structure Prep where
  init : Nat
  launch : Word
  part : Nat
  ntask : Nat
  desc : Word
  job : Nat
  st : Nat                    -- 1 prepared, 2 committed, 3 started
  at_ : Nat
  deriving DecidableEq, Repr

/-- A gang launch of this module as initiator (R76, R77). -/
structure GangInit where
  launch : Word
  part : Nat
  mods : List (Nat × Nat × Word × Word)   -- module, NTASK, PKTVA, TGTVA
  ackd : List Nat
  started : List Nat
  phase : Nat                 -- 0 preparing, 1 committing
  ends : Nat                  -- the cycle on which the current window ends
  id : SlotId
  d : Nat
  root : Words8
  rootCore : Nat
  deriving DecidableEq, Repr

/-- What leaves the module, in order: packets of the fabric on a lane of a direction, control messages of the sluice as their four words, and what goes to the host, the pool memory and the remote
tools. -/
inductive Out
  | packet (dir lane num : Nat) (p : FabPkt)
  | sluice (dir : Nat) (w0 w1 w2 w3 : Word)
  | hostMsg (m : Words8)
  | hostWrite (pasid addr : Nat) (data : List Byte)
  | hostRead (token pasid addr size : Nat)
  | hostAtomic (token pasid addr size op : Nat) (v0 v1 : Word)   -- a PCI Express AtomicOp: 0 FetchAdd, 8 Swap, 9 CAS
  | ats (pasid page : Nat)
  | atsDone (pasid base len : Nat)
  | pri (pasid page : Nat) (write : Bool)
  | irq (vector : Nat)
  | mctp (stamp : Nat) (data : List Byte)   -- a reply on the out-of-band management port (R25)
  | pool (token window addr : Nat) (data : List Byte) (write : Bool)
  | uetCall (handle : Nat) (addr : BitVec 128) (ujob pid ridx : Nat) (data : List Byte)
  | barData (bar off v : Nat)               -- what a read of a BAR returns
  deriving DecidableEq, Repr

/-- A request of another module that this module has received (R59, R69): its source, its class, the partition and the mark
that its response carries. -/
structure Echo where
  src : Nat
  slot : Nat
  cls : Nat
  part : Nat
  marked : Bool
  deriving DecidableEq, Repr

/-- Fabric and sluice. -/
structure Fabric where
  self : Nat
  markth : Nat
  sx : Nat
  sy : Nat
  sa : Nat
  sb : Nat
  enable : Bool
  dirs : Map Dir
  berx : Nat
  usrlease : Bool
  starve : Bool
  frozen : Bool
  weirs : Map Weir
  outq : Map (List FabPkt)     -- output queues by direction and channel (R55, R58)
  inq : List FabPkt            -- packets at the router whose queue is full, oldest first
  order : Map Nat              -- flits out toward a module (R60)
  seqOut : Map Nat             -- the next sequence number of an ordered set toward a module (R60)
  seqIn : Map Nat              -- the next sequence number to deliver of an ordered set of a module
  reorder : List FabPkt        -- packets at this endpoint ahead of their turn
  skips : List (Nat × Nat × Nat)     -- numbers of packets that met no route: module, ordered set, number
  echo : List Echo             -- requests of other modules delivered and not yet answered (R59, R69)
  lost : List Nat              -- modules known to be down (R57)
  lineWaits : List (Nat × Nat × Nat)   -- caches that wait for a line asked for by the remote-line cache (R72)
  remoteOwn : List (Nat × Nat)       -- COH lines owned here for other modules' homes: module and line (R72)
  ownAsked : List (Nat × Nat × Nat)  -- ownership asked for: module, line, agent (R72)
  grantq : List RxGrant        -- LGREQs that wait for receive budget, in order of arrival (R42)
  held : List FabPkt           -- packets that wait at the source endpoint for a weir or for credits
  acks : List (SlotId × Nat)   -- acknowledgements being combined for slots of other modules (R65); their global cores
  preps : List Prep
  gangs : List GangInit
  deriving DecidableEq, Repr

/-! ## Host, management -/

/-- What a read of host memory, or a request to host or pool memory, is for: an access, the bytes of a FUTRES, a wrapped
key, a firmware image (R87). -/
inductive HostRead
  | access (a : Access)
  | poolWrite (a : Access) (v0 v1 : Word)   -- the write of an access to pool memory, and the access's results
  | futres (m : Words8)
  | key (m : Words8)
  | image (m : Words8)
  | line (loc line : Nat)      -- a line that a cache reads from pool memory
  | lineWrite (loc line : Nat) -- dirty bytes that a cache writes to pool memory
  | page (n : Nat)             -- a line that the churn engine reads from pool memory into a buffer
  | pageWrite (n : Nat)        -- a line that the churn engine writes to pool memory, for the same
  deriving DecidableEq, Repr

/-- Host interface. -/
structure HostIf where
  h2d : List Words8
  h2dDue : Bool                -- the event of the message at the head is due
  d2h : List Words8
  held : List Words8           -- notices that wait at their source (R83)
  badw : Nat
  fatal : Bool
  ready : Bool
  thresh : Nat
  ien : Bool
  irqArmed : Option Nat
  ats : Map (Nat × Nat × Bool × Bool)   -- pasid·2^52 + page to: stamp, size (0 4 KiB, 1 2 MiB, 2 1 GiB), read, write
  pri : List (Nat × Nat)             -- page request groups outstanding: pasid and page (R90)
  hostWaits : List (Access × Nat)    -- accesses that wait at the host port: 0 translation asked, 1 for a group, 2 for the page, 3 asked again, 4 behind one of its slot; 5 at the pool port, 6 at a home
  pasids : List Nat                  -- PASIDs that the host has enabled
  priOn : Bool                       -- page requests are enabled
  cxlwin : Map Word
  pendingReads : List (Nat × HostRead)  -- host and pool requests outstanding by token
  nextRead : Nat
  msix : Map Nat                     -- MSI-X table by 32-bit word: four to a vector (R80)
  pba : BitVec 64                    -- pending bits of the vectors
  invals : List (Nat × Nat × Nat × Nat)   -- invalidations under way: PASID, base, length, the first token after (R92)
  deriving DecidableEq, Repr

/-- States of a key identifier (R126). -/
inductive KeySt | empty | live | sweep | dead
  deriving DecidableEq, Repr

/-- A churn command outstanding, by its number in order of arrival (R118 to R122): its block's address, its state, the next frame of a 2 MiB page,
the old frame, its PTE's address, its status and the rest of its completion word. -/
structure ChurnCmd where
  block : Nat
  op : Nat
  size : Nat
  job : Nat
  va : Word
  dest : Nat
  done : Nat
  st : Nat                     -- 0 INVAL, 1 FREEZE, 2 COPY, 3 RELEASE, 4 DONE; 5 its block is read, 6 pool memory is written, 7 TLBI of a page stored elsewhere, 8 TLBI of a move undone; 16 more: aborted
  frame : Nat
  frames : Nat                 -- how many frames move
  old : Nat
  pte : Nat
  slot : Nat                   -- the slot that is filled or emptied
  status : Nat
  extra : Nat
  deriving DecidableEq, Repr

/-- Churn engine, heat. -/
structure Churn where
  en : Bool
  ovf : Bool
  zreg : Nat
  fpool : Nat
  pools : Map Word
  used : List Nat              -- slots in use by physical address
  cmds : Map ChurnCmd
  nextCmd : Nat
  errors : Nat
  zwait : List (Nat × Replay)  -- accesses that wait for a decompression, with their PTEs' addresses
  bufs : Map (List Byte)       -- bytes of pool memory read so far: by command, or 2^60 + token
  heatEn : Bool
  heatK : Nat
  heatDecay : Nat
  deriving DecidableEq, Repr

/-- Management block. -/
structure Mgmt where
  keys : Map KeySt
  keyGens : Map Nat              -- how often a key has been loaded into an identifier
  keyWait : Map (SlotId × Nat)   -- KEYKILL that sweeps: slot and destination
  dropped : Map Nat
  powerCap : Nat
  powerLow : Bool                -- the average stands above the cap
  temps : Map Nat
  thermalLow : Bool
  measure : Map (BitVec 512)
  booted : Bool
  bootFailed : Bool
  step : Nat
  serial : Word
  fwVersion : Word
  nextFw : Option (List Byte)
  counters : Map Nat             -- volatile lifetime counters
  stored : Map Nat               -- stored lifetime counters
  syncretry : Nat
  deriving DecidableEq, Repr

/-! ## Schedule (the model's own) -/

/-- Who takes a turn in the current cycle. -/
inductive Agent
  | slot (core slot : Nat)
  | matrix (core : Nat)
  | copy (cluster sid : Nat)
  | hart (n : Nat)
  deriving DecidableEq, Repr

/-- A packet in flight inside the module: its sender, its destination home, and the event of its arrival. -/
structure Flight where
  src : Nat
  dst : Nat
  ev : Ev
  deriving DecidableEq, Repr

/-- An event at a cycle to come. -/
structure Timer where
  due : Nat
  ev : Ev
  deriving DecidableEq, Repr

/-- The instruction being issued: its word, the fall-through, and its line's Q bit and address (R284, R149). -/
structure Fetched where
  word : BitVec 32
  pc : Word
  npc : Word
  npcEnd : Bool
  q : Bool
  deriving DecidableEq, Repr

/-- Time, what is due, what is in flight, and the free-value counter. -/
structure Sched where
  stamp : Nat
  free : Nat
  cur : SlotId
  hart : Nat
  ir : Fetched
  inbox : List Ev           -- events due now: the units' and the outside's
  turns : List Agent
  timers : List Timer
  net : List Flight
  out : List Out
  deriving DecidableEq, Repr

/-- The state of the module. -/
structure State where
  part : Part
  sched : Sched
  mem : Mem
  cores : Map Core
  arrays : Map ArrayPair
  work : Work
  agents : Agents
  fabric : Fabric
  host : HostIf
  churn : Churn
  mgmt : Mgmt
  deriving DecidableEq, Repr

/-! ## Values after reset -/

/-- A packet of zeros. -/
def zeroPacket : Words8 := ⟨0, 0, 0, 0, 0, 0, 0, 0⟩

/-- A task of zeros. -/
def Task.reset : Task :=
  { regs := 0, prio := 0, ord := false, handler := false, launch := 0, job := 0, part := 0, dcore := 0, pkt := zeroPacket,
    tfmt := 0, tfi := 0, tscl := 0, nest := none, joins := [], pins := [], spec := 0, sgen := 0, enq := 0, start := 0,
    spawned := false, pre := false }

/-- A slot after reset: free, its registers zero and empty. -/
def Slot.reset : Slot :=
  { st := .free, guest := false, reserved := false, halted := false, doomed := false, preempt := false, pc := 0,
    fell := false, entry := false, quietBad := none, lines := 0, regs := [], latches := [], expired := 0, late := [],
    p := [], plost := 0, tepc := 0, tcause := 0, tval := 0, intrap := false, psup := false, sup := false, posted := 0,
    task := Task.reset, outst := 0, acq := none, relBegun := false, unackMsg := 0, q4 := 0, q5 := 0, spawns := 0,
    recvs := 0, toks0 := [], toks1 := [], streams0 := 0, streams1 := 0, mack := none, mnaks := 0, next := 0,
    nextFell := false, wreg := 0, serving := none }

/-- A core after reset (R222, R227, R231, R413). -/
def Core.reset : Core :=
  { c := [], cWrites := [], guests := 2, tvec := 0, post := 0, rows := [], writes := [], vuBusy := 0, tables := [],
    mail := [], recvs := [], spawnws := [], spec := [], gens := [], log := [], ordn := 0, rolls := 0, sentN := 0, recvN := 0, levee := none,
    gsStamp := 0, gsSent := 0, gsRecv := 0, mx := [], away := [], heldPins := [], slots := [] }

/-- An array pair after reset (R238): W 1, MODE 0, ERR 0; tiles zero. -/
def ArrayPair.reset : ArrayPair :=
  { w := 1, mode := 0, err := false, tiles := [], poison := 0, owner := [] }

/-- A cluster after reset. -/
def Cluster.reset : Cluster :=
  { queue := [], ring := [], ringHead := 0, blocked := [], holding := [], heldMsgs := [], nests := [], copies := [],
    copyLines := [], sent := (0, 0), recv := (0, 0), colour := false, minSent := 2 ^ 128 - 1, preempt := [] }

/-- A direction after reset (R49). -/
def Dir.reset : Dir :=
  { present := false, modid := 0, tx := [], rx := [], gen := 0, lease := none, lstate := 0, refuse := 0,
    recalled := 0, seq := 0, pend := none, waiting := [], lastAlive := 0, dark := 0, litAt := [], owed := [], ctl := [],
    link := [], linkSeq := 0, linkNext := 0, linkBuf := [], retries := [], swap := none, rxSeq := none }

/-- Memory after reset: every byte zero, every tag full (R272), no mark. -/
def Mem.reset : Mem :=
  { cells := [], empties := [], poison := [], keys := [], waiters := [], tcache := [], clines := [], code := [],
    fills := [], codeFills := [], replay := [], stopped := [], nextToken := 1, wsOpen := 0, moving := [], heatCount := [], peers := [],
    peerRecalls := [], recallOut := [], peerWait := [], dead := [], wbOut := [], tlbis := [], resvs := [], refresh := [] }

/-- Work state after reset (R143, R135, R155). -/
def Work.reset : Work :=
  { launches := [], rootWait := [], graphs := [], clusters := [], jobs := [], joins := [], qovf := [], age := 64, predly := 20, cap := 16,
    partcfg := [], phases := [], phaseSets := [], advancing := [], phaseLeft := [], phaseFor := [], ordered := [], csweeps := [], stops := [],
    lmigSrc := 0, lmigDst := 0, lmigFrom := 0, lmigTo := 0, lmigStatus := 0, lmigFwd := [], lmigQueue := [], lmigSaved := [], lmigGone := [], nextTask := 0,
    migrants := [], refused := [] }

/-- Agent services after reset (R190). -/
def Agents.reset : Agents :=
  { futures := [], calls := [], futOps := [], tokOps := [], nextOp := 0, ctxs := [], localTool := [], remoteTool := [],
    harts := [], seqBase := 0, seqEn := false, waitingSeqs := [], callOver := [], counters := [] }

/-- Fabric and sluice after reset (R48, R79). -/
def Fabric.reset : Fabric :=
  { self := 0, markth := 32, sx := 0, sy := 0, sa := 0, sb := 0, enable := false, dirs := [], berx := 9,
    usrlease := false, starve := true, frozen := false, weirs := [], outq := [], inq := [], order := [],
    seqOut := [], seqIn := [], reorder := [], skips := [], echo := [], lost := [], lineWaits := [], remoteOwn := [], ownAsked := [],
    grantq := [], held := [], acks := [], preps := [], gangs := [] }

/-- Host interface after reset (R84, R85, R95). -/
def HostIf.reset : HostIf :=
  { h2d := [], h2dDue := false, d2h := [], held := [], badw := 0, fatal := false, ready := false, thresh := 1, ien := false,
    irqArmed := none, ats := [], pri := [], hostWaits := [],
    pasids := [], priOn := false, cxlwin := [], pendingReads := [], nextRead := 1, msix := [], pba := 0, invals := [] }

/-- Churn engine and heat after reset (R117, R123). -/
def Churn.reset : Churn :=
  { en := false, ovf := false, zreg := 1, fpool := 0, pools := [], used := [], cmds := [], nextCmd := 0, errors := 0, zwait := [], bufs := [],
    heatEn := false, heatK := 8, heatDecay := 1000 }

/-- Management block after reset: the cap at TDP (R18), key 0 LIVE (R125), SYNCRETRY 16 (R274). -/
def Mgmt.reset : Mgmt :=
  { keys := [(0, .live)], keyGens := [], keyWait := [], dropped := [], powerCap := 2400, powerLow := false, temps := [],
    thermalLow := false, measure := [], booted := false, bootFailed := false, step := 0, serial := 0, fwVersion := 0,
    nextFw := none, counters := [], stored := [], syncretry := 16 }

/-- Nothing fetched. -/
def Fetched.reset : Fetched := { word := 0, pc := 0, npc := 0, npcEnd := false, q := false }

/-- The schedule after reset: STAMP zero (R16), nothing due. -/
def Sched.reset : Sched :=
  { stamp := 0, free := 0, cur := ⟨0, 0⟩, hart := 0, ir := Fetched.reset, inbox := [], turns := [], timers := [],
    net := [], out := [] }

/-- The module right after reset. -/
def State.reset : State :=
  { part := .ny7740, sched := Sched.reset, mem := Mem.reset, cores := [], arrays := [], work := Work.reset,
    agents := Agents.reset, fabric := Fabric.reset, host := HostIf.reset, churn := Churn.reset, mgmt := Mgmt.reset }

end Sys2Proof.Machine
end

