-- ==== Sys2Proof/Machine/Ops.lean ====
section
/-! DEFINITION. The named operations over the state: maps, memory, tags, identifiers, slots and registers, events,
host messages, fault records, launch counts, killing a task, taking a trap and returning from one
(spec 01 R13, 05 R102 to R114, 06 R128 to R134, 09, 11 R272 to R277, 16 R413 to R417). -/

namespace Sys2Proof.Machine

open Sys2Proof

/-! ## Maps -/

/-- The entry of a map at a key. -/
def mget? {α : Type} : Map α → Nat → Option α
  | [], _ => none
  | (j, v) :: m, k => if k = j then some v else if k < j then none else mget? m k

/-- The entry of a map at a key, or a default. -/
def mget {α : Type} (m : Map α) (k : Nat) (d : α) : α := (mget? m k).getD d

/-- Writes one entry of a map, keeping the keys rising. -/
def mput {α : Type} : Map α → Nat → α → Map α
  | [], k, v => [(k, v)]
  | (j, w) :: m, k, v =>
    if k = j then (k, v) :: m else if k < j then (k, v) :: (j, w) :: m else (j, w) :: mput m k v

/-- Removes one entry of a map. -/
def mdel {α : Type} : Map α → Nat → Map α
  | [], _ => []
  | (j, w) :: m, k => if k = j then mdel m k else if k < j then (j, w) :: m else (j, w) :: mdel m k

/-- Inserts a number into a rising list. -/
def numIns : List Nat → Nat → List Nat
  | [], k => [k]
  | j :: l, k => if k = j then j :: l else if k < j then k :: j :: l else j :: numIns l k

/-- Removes a number from a rising list. -/
def numDel : List Nat → Nat → List Nat
  | [], _ => []
  | j :: l, k => if k = j then numDel l k else if k < j then j :: l else j :: numDel l k

/-- Whether a rising list holds a number. -/
def numHas : List Nat → Nat → Bool
  | [], _ => false
  | j :: l, k => if k = j then true else if k < j then false else numHas l k

/-! ## Bits -/

/-- Bits hi down to lo of a number. -/
def bits (n hi lo : Nat) : Nat := n / 2 ^ lo % 2 ^ (hi + 1 - lo)

/-- Bit i of a number. -/
def bit (n i : Nat) : Bool := n / 2 ^ i % 2 == 1

/-- A Bool as a number. -/
def b2n (b : Bool) : Nat := if b then 1 else 0

/-- A word from a number (its low 64 bits). -/
def w64 (n : Nat) : Word := BitVec.ofNat 64 n

/-- The little-endian number of a list of bytes. -/
def bytesNat : List Byte → Nat
  | [] => 0
  | b :: l => b.toNat + 256 * bytesNat l

/-- The k little-endian bytes of a number. -/
def natBytes : Nat → Nat → List Byte
  | 0, _ => []
  | k + 1, n => BitVec.ofNat 8 n :: natBytes k (n / 256)

/-! ## Memory bytes (05 R108, 11 R272) -/

/-- Memory in its canonical form: addresses strictly rising, no entry equal to the zero that an unlisted address
reads as. -/
def Memory.wf : List Host.Cell → Bool
  | [] => true
  | [(_, b)] => b != 0
  | (a, b) :: (a', b') :: m => b != 0 && decide (a < a') && Memory.wf ((a', b') :: m)

/-- The byte at a physical address; zero where nothing is listed (notes/assumptions/2). -/
def byteAt : List Host.Cell → Nat → Byte
  | [], _ => 0
  | (j, b) :: m, a => if a = j then b else if a < j then 0 else byteAt m a

/-- Writes one byte, keeping the canonical form. -/
def setByte : List Host.Cell → Nat → Byte → List Host.Cell
  | [], a, v => if v = 0 then [] else [(a, v)]
  | (j, b) :: m, a, v =>
    if a = j then (if v = 0 then m else (a, v) :: m)
    else if a < j then (if v = 0 then (j, b) :: m else (a, v) :: (j, b) :: m)
    else (j, b) :: setByte m a v

/-- The n bytes at an address. -/
def bytesAt (m : List Host.Cell) : Nat → Nat → List Byte
  | _, 0 => []
  | a, n + 1 => byteAt m a :: bytesAt m (a + 1) n

/-- Writes a run of bytes. -/
def setBytes (m : List Host.Cell) : Nat → List Byte → List Host.Cell
  | _, [] => m
  | a, b :: l => setBytes (setByte m a b) (a + 1) l

/-- Region of a physical address (R108). -/
def region (pa : Nat) : Nat := bits pa 51 48

/-- Whether a region's lines are encrypted under the job's key (R125). -/
def encrypted (r : Nat) : Bool := r ≤ 2 || (4 ≤ r && r ≤ 7)

/-- One byte as an access under a key reads it: a line is encrypted as a whole (R125, notes/assumptions/11). -/
def Mem.readByte (m : Mem) (key pa : Nat) : Byte :=
  let b := byteAt m.cells pa
  if encrypted (region pa) then
    match mget? m.keys (pa / 64) with
    | none => b
    | some k => if k = key then b else Config.undecrypted key k (pa / 64) (bytesAt m.cells (pa / 64 * 64) 64) (pa % 64)
  else b

/-- n bytes as an access under a key reads them. -/
def Mem.read (m : Mem) (key : Nat) : Nat → Nat → List Byte
  | _, 0 => []
  | pa, n + 1 => m.readByte key pa :: m.read key (pa + 1) n

/-- The line's bytes as they read under a new key, when it was written under another (R125). -/
def Mem.rekey (m : Mem) (key line : Nat) : Mem :=
  if encrypted (region (line * 64)) then
    match mget? m.keys line with
    | some k => if k = key then m else
        { m with cells := setBytes m.cells (line * 64) (m.read key (line * 64) 64), keys := mput m.keys line key }
    | none => if key = 0 then m else { m with keys := mput m.keys line key }
  else m

/-- Writes a run of bytes that lies in one line under a key; the line is reserved no longer (R209). -/
def Mem.write (m : Mem) (key pa : Nat) (l : List Byte) : Mem :=
  let m := m.rekey key (pa / 64)
  { m with cells := setBytes m.cells pa l, resvs := m.resvs.filter (fun r => r.2 != pa / 64) }

/-! ## Identifiers (01 R13, R14, R2) -/

/-- The number of populated compute dies (R1). -/
def dies : Part → Nat
  | .ny7740 => 8
  | .ny7720 => 4
  | .ny7710 => 2

/-- The number of tool cores (R1). -/
def toolCores : Part → Nat
  | .ny7740 => 64
  | .ny7720 => 32
  | .ny7710 => 0

/-- A module core identifier from its fields. -/
def coreId (die group core : Nat) : Nat := die * 4096 + group * 16 + core

def coreDie (k : Nat) : Nat := bits k 15 12
def coreGroup (k : Nat) : Nat := bits k 11 4
def coreNum (k : Nat) : Nat := bits k 3 0

/-- Whether an identifier names a tile core of a populated die (R13). -/
def isTile (p : Part) (k : Nat) : Bool := k < 65536 && coreDie k < dies p && coreGroup k < 128

/-- Whether an identifier names a dock core of a home slice. -/
def isDock (p : Part) (k : Nat) : Bool :=
  k < 65536 && coreDie k < dies p && 128 ≤ coreGroup k && coreGroup k < 160 && coreNum k < 4

/-- Whether an identifier names a hub dock core. -/
def isHubDock (k : Nat) : Bool := coreDie k == 8 && 128 ≤ coreGroup k && coreGroup k < 144 && coreNum k < 4

/-- The cluster number die·128 + group of a tile core. -/
def clusterOf (k : Nat) : Nat := coreDie k * 128 + coreGroup k

/-- Core n of a cluster. -/
def clusterCore (cl n : Nat) : Nat := coreId (cl / 128) (cl % 128) n

/-- The hub units of R445. -/
def unitToken : Nat := 0x8F00
def unitFuture : Nat := 0x8F01
def unitChurn : Nat := 0x8F02
def unitSluice : Nat := 0x8F03
def unitLaunch : Nat := 0x8F04
def unitRouter : Nat := 0x8F05
def unitMgmt : Nat := 0x8F06
def unitHost : Nat := 0x8F07
def unitPool : Nat := 0x8F08
def unitUet : Nat := 0x8F09

/-- Global core identifier of a core of this module (R14). -/
def gcid (s : State) (k : Nat) : Nat := s.fabric.self * 65536 + k

/-- Module of a global core identifier. -/
def modOf (g : Nat) : Nat := bits g 29 16

/-- Module core identifier of a global core identifier. -/
def coreOf (g : Nat) : Nat := bits g 15 0

/-! ## Cores, slots and registers -/

/-- Replaces one part of the state. -/
def State.setSched (s : State) (x : Sched) : State := { s with sched := x }
def State.setMem (s : State) (x : Mem) : State := { s with mem := x }
def State.setWork (s : State) (x : Work) : State := { s with work := x }
def State.setAgents (s : State) (x : Agents) : State := { s with agents := x }
def State.setFabric (s : State) (x : Fabric) : State := { s with fabric := x }
def State.setHost (s : State) (x : HostIf) : State := { s with host := x }
def State.setChurn (s : State) (x : Churn) : State := { s with churn := x }
def State.setMgmt (s : State) (x : Mgmt) : State := { s with mgmt := x }

/-- A core of the module. -/
def State.coreAt (s : State) (k : Nat) : Core := mget s.cores k Core.reset

/-- Replaces a core. -/
def State.setCore (s : State) (k : Nat) (c : Core) : State := { s with cores := mput s.cores k c }

/-- A slot of a core. -/
def Core.slotAt (c : Core) (n : Nat) : Slot := mget c.slots n Slot.reset

/-- A slot of the module. -/
def State.slotAt (s : State) (id : SlotId) : Slot := (s.coreAt id.core).slotAt id.slot

/-- Replaces a slot. -/
def State.setSlot (s : State) (id : SlotId) (sl : Slot) : State :=
  let c := s.coreAt id.core
  s.setCore id.core { c with slots := mput c.slots id.slot sl }

/-- The slot that issues. -/
def State.me (s : State) : Slot := s.slotAt s.sched.cur

/-- Replaces the slot that issues. -/
def State.setMe (s : State) (sl : Slot) : State := s.setSlot s.sched.cur sl

/-- The core on which the issuing slot runs. -/
def State.here (s : State) : Nat := s.sched.cur.core

/-- The number of allocated registers (R223). -/
def Task.nregs (t : Task) : Nat := 8 * (t.regs.toNat + 1)

/-- A register's cell; g0 reads zero and is full (R223). -/
def Slot.cell (sl : Slot) (r : Nat) : RegCell :=
  if r = 0 then ⟨0, true, false⟩ else mget sl.regs r ⟨0, false, false⟩

/-- A register's value. -/
def Slot.g (sl : Slot) (r : Nat) : Word := (sl.cell r).val

/-- Writes a register and sets it full; its latch and its expired mark go (R225, R226). A write to g0 is discarded. -/
def Slot.setG (sl : Slot) (r : Nat) (v : Word) : Slot :=
  if r = 0 then sl else
    { sl with regs := mput sl.regs r ⟨v, true, false⟩,
              latches := sl.latches.filter (fun l => l.reg != r),
              expired := sl.expired &&& ~~~(1#32 <<< r) }

/-- Makes a destination empty with a write pending (R225). -/
def Slot.pendG (sl : Slot) (r : Nat) : Slot :=
  if r = 0 then sl else
    { sl with regs := mput sl.regs r ⟨sl.g r, false, true⟩,
              latches := sl.latches.filter (fun l => l.reg != r),
              expired := sl.expired &&& ~~~(1#32 <<< r) }

/-- Writes a transient latch (R226): a fifth latch takes the earliest, whose register expires at once. -/
def Slot.setLatch (sl : Slot) (r : Nat) (v : Word) (now : Nat) : Slot :=
  if r = 0 then sl else
    let ls := sl.latches.filter (fun l => l.reg != r)
    let ex := sl.expired &&& ~~~(1#32 <<< r)
    match ls with
    | l :: rest =>
      if ls.length < 4 then { sl with latches := ls ++ [⟨r, v, now⟩], expired := ex }
      else { sl with latches := rest ++ [⟨r, v, now⟩], expired := ex ||| (1#32 <<< l.reg) }
    | [] => { sl with latches := [⟨r, v, now⟩], expired := ex }

/-- Every bound transient of the slot expires (R226). -/
def Slot.expireAll (sl : Slot) : Slot :=
  { sl with latches := [], expired := sl.latches.foldl (fun e l => e ||| (1#32 <<< l.reg)) sl.expired }

/-- Every multi-rotation result still in flight is written (R221). -/
def Slot.finishLate (sl : Slot) : Slot :=
  { (sl.late.foldl (fun a l => a.setG l.reg l.val) sl) with late := [] }

/-- Whether any register write of the slot is pending. -/
def Slot.anyPend (sl : Slot) : Bool := sl.regs.any (fun x => x.2.pend)

/-! ## Events, timers, packets -/

/-- The STAMP of the cycle. -/
def State.now (s : State) : Nat := s.sched.stamp

/-- Adds an event that is due now, after those already due. -/
def State.post (s : State) (e : Ev) : State := s.setSched { s.sched with inbox := s.sched.inbox ++ [e] }

/-- Adds events that are due before those already due. -/
def State.postFirst (s : State) (l : List Ev) : State := s.setSched { s.sched with inbox := l ++ s.sched.inbox }

/-- Adds an event n cycles from now. -/
def State.after (s : State) (n : Nat) (e : Ev) : State :=
  s.setSched { s.sched with timers := s.sched.timers ++ [⟨s.now + n, e⟩] }

/-- Removes a timer. -/
def State.untimer (s : State) (e : Ev) : State :=
  s.setSched { s.sched with timers := s.sched.timers.filter (fun t => t.ev != e) }

/-- Sends a packet inside the module (R264: in order from one sender to one home). -/
def State.send (s : State) (src dst : Nat) (e : Ev) : State :=
  s.setSched { s.sched with net := s.sched.net ++ [⟨src, dst, e⟩] }

/-- Takes the first packet that carries this event out of flight. -/
def State.arrive (s : State) (e : Ev) : State :=
  s.setSched { s.sched with net := s.sched.net.eraseP (fun f => f.ev == e) }

/-- Sends something out of the module. -/
def State.emit (s : State) (o : Out) : State := s.setSched { s.sched with out := s.sched.out ++ [o] }

/-- The key under which a sender's packets keep their order. -/
def srcKey (core slot : Nat) : Nat := core * 16 + slot

/-- The free choice of this step for a use (notes/assumptions/7). -/
def State.choice (s : State) (use : Nat) : Bool := Config.freeBit use s.sched.free
def State.pick (s : State) (use : Nat) : Nat := Config.freeNat use s.sched.free

/-- Raises a volatile lifetime counter, saturating at its width (R24, R25). -/
def State.countLife (s : State) (n width amount : Nat) : State :=
  let v := mget s.mgmt.counters n 0
  s.setMgmt { s.mgmt with counters := mput s.mgmt.counters n (min (v + amount) (2 ^ width - 1)) }

-- The groups of lifetime counters of R24: numbers of their own, die and lane added.
def lifeTemp : Nat := 10000          -- die·16 + bin
def lifeOptical : Nat := 20000       -- transmit slot (R27)·16 + bin; 15 is the retune count
def lifeRollback : Nat := 40000      -- die
def lifeMiss : Nat := 40010
def lifeRefusal : Nat := 40020
def lifeReplay : Nat := 40030        -- die; 9: stale tokens of FREPLAY
def lifeEnergy : Nat := 40040        -- energy, generated tokens, ordered tasks, plain tasks
def lifeEcc : Nat := 100000          -- (channel·64 + bank)·2; 1 more: the uncorrected errors

/-- The width of a lifetime counter (R24). -/
def lifeWidth (n : Nat) : Nat :=
  if n < lifeRollback then 40 else if n < lifeEnergy then 48 else if n < lifeEcc then 64 else 48

/-- Raises an error counter of a unit. -/
def State.countErr (s : State) (n : Nat) : State :=
  s.setAgents { s.agents with counters := mput s.agents.counters n (mget s.agents.counters n 0 + 1) }

-- Error counters of the units (R41, R100, R199, R202).
def errUet : Nat := 0
def errStale : Nat := 1
def errLate : Nat := 2
def errToken : Nat := 3
def errChurn : Nat := 4
def errSluice : Nat := 5
def errSweep : Nat := 6
def errGang : Nat := 7
def errFabric : Nat := 8

/-! ## Messages to the host (04 R83 to R88) -/

/-- THRESH, where 0 acts as 1 (R85). -/
def HostIf.thr (h : HostIf) : Nat := if h.thresh = 0 then 1 else h.thresh

/-- A 32-bit word of the MSI-X table: zero at reset, but for the vector control, whose mask bit is set (R80,
notes/assumptions/97). -/
def msixWord (s : State) (n : Nat) : Nat := mget s.host.msix n (b2n (n % 4 == 3))

/-- Whether a vector is masked in its table entry. -/
def vectorMasked (s : State) (v : Nat) : Bool := bit (msixWord s (4 * v + 3)) 0

/-- Fires an MSI-X vector when enabled (R85); a masked one becomes pending (R80). -/
def State.irq (s : State) (v : Nat) : State :=
  if !s.host.ien then s
  else if vectorMasked s v then s.setHost { s.host with pba := s.host.pba ||| BitVec.ofNat 64 (2 ^ v) }
  else s.emit (.irq v)

/-- Queues a D2H message with its STAMP; when the queue is full it waits at its source (R83). Vector 0 fires as R85
states. -/
def State.d2hPut (s : State) (m : Words8) : State :=
  if s.host.d2h.length < 1024 then
    let n := s.host.d2h.length
    let m := { m with w1 := w64 s.now }
    let s := s.setHost { s.host with d2h := s.host.d2h ++ [m] }
    let s := if n < s.host.thr && s.host.thr ≤ n + 1 then
        (s.setHost { s.host with irqArmed := none }).irq 0
      else s
    match s.host.irqArmed with
    | some _ => s
    | none => if n < s.host.thr && s.host.thr ≤ n + 1 then s
              else (s.setHost { s.host with irqArmed := some s.now }).after 34000 .mboxIrqTimeout
  else s.setHost { s.host with held := s.host.held ++ [m] }

/-- Header word 0 of a mailbox message (R86). -/
def msgHead (type code job seq : Nat) : Word := w64 (type * 2 ^ 56 + code * 2 ^ 48 + job % 65536 * 2 ^ 32 + seq % 2 ^ 32)

/-- Sends a D2H message. -/
def State.toHost (s : State) (type code job seq : Nat) (w2 w3 w4 w5 : Word) : State :=
  s.d2hPut ⟨msgHead type code job seq, 0, w2, w3, w4, w5, 0, 0⟩

/-- EVENT messages (R88); they answer no message, and their SEQ is 0 (DESIGN CHOICE, notes/assumptions/26). -/
def State.event (s : State) (code job : Nat) (w2 w3 w4 w5 : Word) : State := s.toHost 0x83 code job 0 w2 w3 w4 w5

/-! ## Physical addresses and homes (05 R108, 04 R94) -/

/-- The size in bytes of a pool window, when enabled (R95). -/
def cxlSize (s : State) (n : Nat) : Nat :=
  let w := (mget s.host.cxlwin n 0).toNat
  if bit w 0 then (bits w 27 14 + 1) * 2 ^ 28 else 0

/-- The pool window of a physical address (R94). -/
def poolWindow (pa : Nat) : Nat := 2 * (region pa - 4) + bits pa 47 47

/-- The address of a pool access in the switch's address space (R94, R95). -/
def poolAddr (s : State) (pa : Nat) : Nat :=
  bits (mget s.host.cxlwin (poolWindow pa) 0).toNat 63 28 * 2 ^ 28 + pa % 2 ^ 47

/-- Whether a write meets a read-only window (R94). -/
def poolReadOnly (s : State) (pa : Nat) : Bool := bit (mget s.host.cxlwin (poolWindow pa) 0).toNat 1

/-! ## Live migration: what packets for a core meet (06 R155, R156) -/

/-- The core to which packets for a core are re-addressed (R156). -/
def State.forwarded (s : State) (k : Nat) : Nat :=
  match s.work.lmigFwd.find? (fun e => bit e.2.toNat 0 && bits e.2.toNat 63 48 == k) with
  | some e => bits e.2.toNat 47 32
  | none => k

/-- Whether a core's work has moved away and nothing has moved to it since: it takes no task, and once its forwarding entry
is cleared its scratchpad is not there (R156, notes/assumptions/94). -/
def State.retired (s : State) (k : Nat) : Bool := numHas s.work.lmigGone k || s.forwarded k != k

/-- A physical address of this module as its packets carry it: one in a scratchpad that has moved, at its new core (R156). -/
def fwdPa (s : State) (pa : Nat) : Nat :=
  if region pa = 3 then pa - bits pa 31 16 * 65536 + s.forwarded (bits pa 31 16) * 65536 else pa

/-- Whether a packet for a core waits for its live migration (R155 step 3). -/
def lmigHolds (s : State) (k : Nat) : Bool := (s.work.lmigStatus == 1 || s.work.lmigStatus == 2) && s.work.lmigFrom == k

/-- A packet waits in the source's replay queue. -/
def State.lmigHold (s : State) (e : Ev) : State := s.setWork { s.work with lmigQueue := s.work.lmigQueue ++ [e] }

/-! ## Physical addresses (05 R108) -/

/-- Whether a physical address of this module is populated (R108, R22, R94); the MMIO window is the image of the 256 MiB
of BAR2 (R80). -/
def paOk (s : State) (pa : Nat) : Bool :=
  let r := region pa
  if r = 0 then bits pa 47 39 == 0 && bits pa 38 36 < dies s.part && bits pa 35 0 < 48 * 2 ^ 30
  else if r = 1 then bits pa 47 40 == 0 && bits pa 39 0 < 2 ^ 40
  else if r = 2 then bits pa 47 39 == 0 && bits pa 38 36 < dies s.part && bits pa 35 0 < 6 * 2 ^ 30
  else if r = 3 then bits pa 47 32 == 0 && isTile s.part (bits pa 31 16) && bits pa 15 0 < 0xC000 &&
    !numHas s.work.lmigGone (bits pa 31 16)
  else if r ≤ 7 then bits pa 46 0 < cxlSize s (poolWindow pa)
  else r == 8 || (r == 14 && bits pa 47 28 == 0)

/-- Dock core n of slice c on a die. -/
def dockCore (die slice n : Nat) : Nat := coreId die (128 + slice) n

/-- Hub dock core n. -/
def hubCore (n : Nat) : Nat := coreId 8 (128 + n / 4) (n % 4)

/-- The home of a physical address: for a slice, its first dock core (R108, R62). -/
def homeOf (pa : Nat) : Nat :=
  let r := region pa
  if r = 0 then dockCore (bits pa 38 36) (bits pa 16 12) 0
  else if r = 2 then dockCore (bits pa 38 36) 0 0
  else if r = 3 then bits pa 31 16
  else hubCore (bits pa 17 12)

/-- Whether a physical address lies in the heat area (R116). -/
def inHeat (s : State) (pa : Nat) : Bool :=
  s.churn.heatEn &&
  ((region pa == 0 && 0xBFF400000 ≤ bits pa 35 0 && bits pa 35 0 < 0xBFF400000 + 48 * 2 ^ 18) ||
   (region pa == 1 && 0xFFB0000000 ≤ bits pa 39 0))

/-- Memory after a home has counted an access: a sampled one adds 1 to its frame's heat byte; accesses to the heat area are
not counted (R115, R116). -/
def heatMem (s : State) (pa : Nat) : Mem :=
  let r := region pa
  if !(r == 0 || r == 1 || (4 ≤ r && r ≤ 7)) || inHeat s pa then s.mem
  else
    let h := homeOf pa
    let n := mget s.mem.heatCount h 0 + 1
    let m := { s.mem with heatCount := mput s.mem.heatCount h n }
    if s.churn.heatEn && n % 2 ^ (if s.churn.heatK < 4 || 12 < s.churn.heatK then 8 else s.churn.heatK) = 0 then
      let area := if r = 0 then bits pa 38 36 * 2 ^ 36 + 0xBFF400000 + bits pa 35 12
        else if r = 1 then 2 ^ 48 + 0xFFB0000000 + bits pa 39 12
        else 2 ^ 48 + 0xFFC0000000 + bits pa 46 12 +
          ((List.range (poolWindow pa)).foldl (fun t i => t + cxlSize s i / 4096) 0)
      let b := byteAt m.cells area
      if b = 255 then m else { m with cells := setByte m.cells area (b + 1) }
    else m

/-- An access that a home serves is counted (R115). -/
def State.heat (s : State) (pa : Nat) : State := s.setMem (heatMem s pa)

/-! ## Translation (05 R102 to R110) -/

/-- A translated access: module, physical address, memory type (0 COH, 1 PHASED, 2 DEV, 3 WS). -/
structure Xlat where
  dev : Nat
  pa : Nat
  ty : Nat
  deriving DecidableEq, Repr

/-- The outcome of a translation. -/
inductive XRes
  | ok (x : Xlat)
  | fault (cause level : Nat)
  /-- The access waits and is translated again: its page is compressed (R122), or the line or frame of an entry on its
  walk is held elsewhere (R105, R120). -/
  | zpage (pteAddr : Nat)
  deriving DecidableEq, Repr

-- Cause codes (R112).
def causeNotpres : Nat := 1
def causePerm : Nat := 2
def causeNoncanon : Nat := 3
def causeBadpte : Nat := 4
def causePhysaddr : Nat := 5
def causeTypemis : Nat := 6
def causeUntagged : Nat := 7
def causeHostpage : Nat := 8
def causeNohost : Nat := 9
def causeUnsupatom : Nat := 10
def causePooltmo : Nat := 11
def causeKeydead : Nat := 12
def causeZcorrupt : Nat := 13
def causeZcheck : Nat := 14
def causeWsclosed : Nat := 15
def causeNoroute : Nat := 16
def causeTooldeny : Nat := 17
def causeBarunder : Nat := 18
def causeTrapkill : Nat := 19

/-- Whether a virtual address is canonical (R102). -/
def canonical (va : Nat) : Bool := va / 2 ^ 53 == 0 || va / 2 ^ 53 == 2047

/-- The index of a level (R103). -/
def vaIndex (va level : Nat) : Nat := if level = 4 then bits va 53 48 else bits va (12 + 9 * level + 8) (12 + 9 * level)

/-- The virtual page number at a level. -/
def vpnAt (va level : Nat) : Nat := va % 2 ^ 54 / 2 ^ (12 + 9 * level)

/-- What an access needs of a leaf (R105): 0 load, 1 store, 2 atomic, 3 fetch. -/
inductive Need | read | write | both | fetch
  deriving DecidableEq, Repr

/-- Permissions of a leaf (R105). -/
def permOk (pte : Nat) : Need → Bool
  | .read => bit pte 0
  | .write => bit pte 1
  | .both => bit pte 0 && bit pte 1
  | .fetch => bit pte 2

/-- Whether the access writes. -/
def Need.writes : Need → Bool
  | .write | .both => true
  | _ => false

/-- Whether a leaf's memory type agrees with its region (R107). -/
def typeOk (region ty : Nat) : Bool :=
  if region ≤ 1 then ty ≤ 1 else if region = 2 then ty == 3 else if region = 3 then ty == 0
  else if region ≤ 7 then ty ≤ 1 else if region = 8 then ty == 0 else region == 14 && ty == 2

/-- Where translations of a core's slots are cached above its own cache: 70000 + cluster, 72000 + slice, 79999 hub
(R109). -/
def sharedLoc (k : Nat) : Nat :=
  if coreDie k = 8 then 79999 else if coreGroup k < 128 then 70000 + clusterOf k
  else 72000 + coreDie k * 32 + (coreGroup k - 128)

/-- The 64-bit entry at a physical address. -/
def Mem.pte (m : Mem) (pa : Nat) : Nat := bytesNat (bytesAt m.cells pa 8)

/-- The cluster whose copy engine owns a line of this module (R252); scratchpad lines are not owned (R384). -/
def copyOwner (s : State) (line : Nat) : Option Nat :=
  if region (line * 64) = 3 then none
  else (s.work.clusters.find? (fun c => c.2.copyLines.any (fun o => o.dev == s.fabric.self && o.line == line))).map (·.1)

/-- Whether peers hold a line of this module against an access (R73): owned, or shared against a write. -/
def peerBlocks (s : State) (line : Nat) (write : Bool) : Bool :=
  match mget? s.mem.peers line with
  | none => false
  | some (shar, own) => own != 0 || (write && !shar.isEmpty)

/-- Whether an address lies in a frame that moves: the old one once frozen, the new one while pending (R120). -/
def movingAt (s : State) (pa : Nat) : Bool :=
  s.mem.moving.any (fun m => (m.old == pa / 4096 && m.frozen) || (m.new == pa / 4096 && m.pending))

/-- Whether a coherent load at the home of an entry has to wait (R105): a copy engine or a peer has the line, or the frame
moves. -/
def entryBusy (s : State) (pa : Nat) : Bool :=
  (copyOwner s (pa / 64)).isSome || peerBlocks s (pa / 64) false || movingAt s pa

/-- Whether a write at the home of a line has to wait (R73, R120, R252): a copy engine or a peer has the line, be it only
shared, or the frame moves. -/
def writeBusy (s : State) (pa : Nat) : Bool :=
  (copyOwner s (pa / 64)).isSome || peerBlocks s (pa / 64) true || movingAt s pa

/-- Whether an entry is a leaf at its level (R105). -/
def isLeaf (pte level : Nat) : Bool := bits pte 2 0 != 0 && decide (level ≤ 2)

/-- Whether a cached entry lies in a cache that a core uses, under a tag that it matches (R109). -/
def entryMatches (e : TcEnt) (loc job part va : Nat) : Bool :=
  (e.loc == loc || e.loc == sharedLoc loc) && (e.tag == job || (e.tag == 65536 + part && bit e.pte.toNat 3)) &&
  e.vpn == vpnAt va e.level

/-- Whether a cached entry is used though memory may hold another by now: one that differs may have been evicted
(R110, notes/assumptions/9). -/
def entryHeld (s : State) (e : TcEnt) : Bool :=
  e.pte.toNat == s.mem.pte e.src || s.choice (Config.useTranslation + 64 * e.level)

/-- The leaf that a core's caches hold for an address (R109): one without D serves no write (R106). -/
def leafHit (s : State) (loc job part va : Nat) (write : Bool) : Option TcEnt :=
  s.mem.tcache.find? (fun e => isLeaf e.pte.toNat e.level && entryMatches e loc job part va && entryHeld s e &&
    (!write || bit e.pte.toNat 7))

/-- The entry a walk at a core uses at a level, and whether it was read at its home: a page-walk entry may be cached
(R109, R110). -/
def walkEntry (s : State) (loc job part level va : Nat) (pa : Nat) : Nat × Bool :=
  match s.mem.tcache.find? (fun e => !isLeaf e.pte.toNat e.level && e.level == level &&
      entryMatches e loc job part va && entryHeld s e) with
  | some e => (e.pte.toNat, false)
  | none => (s.mem.pte pa, true)

/-- The entries that a translation cache holds (R109): 64 at a core, 2,048 at a cluster, 512 at a slice, 4,096 in the
hub. -/
def cacheCap (loc : Nat) : Nat :=
  if loc < 70000 then 64 else if loc < 72000 then 2048 else if loc = 79999 then 4096 else 512

/-- Puts an entry into a cache; a full cache loses one of its entries, any of them (notes/assumptions/93). -/
def putEntry (l : List TcEnt) (e : TcEnt) (pick : Nat) : List TcEnt :=
  let rest := l.filter (fun x => !(x.loc == e.loc && x.tag == e.tag && x.level == e.level && x.vpn == e.vpn))
  let mine := rest.filter (fun x => x.loc == e.loc)
  let rest := if mine.length < cacheCap e.loc then rest
    else match mine[pick % mine.length]? with
      | some x => rest.erase x
      | none => rest
  rest ++ [e]

/-- Whether a core has a slot translation cache: tile cores and dock cores, and no hub unit (R109). -/
def hasSlotCache (k : Nat) : Bool := !(coreDie k == 8 && 240 ≤ coreGroup k)

/-- Records a walked entry in the caches of a core (R109): a leaf in both, a page-walk entry in the shared one. -/
def fillCache (s : State) (loc job part level va pte pa : Nat) : Mem :=
  let tag := if bit pte 3 then 65536 + part else job
  let e (l : Nat) : TcEnt := ⟨l, tag, level, vpnAt va level, w64 pte, pa⟩
  let pick := s.pick Config.useTranslation
  let l := if isLeaf pte level && hasSlotCache loc then putEntry s.mem.tcache (e loc) pick else s.mem.tcache
  { s.mem with tcache := putEntry l (e (sharedLoc loc)) pick }

/-- What a leaf answers (R102, R105, R107). -/
def leafRes (pte level va : Nat) (need : Need) (user : Bool) : XRes :=
  let frame := bits pte 49 10 * 4096
  if frame % 2 ^ (12 + 9 * level) != 0 then .fault causeBadpte level
  else if user && bit va 53 then .fault causePerm level
  else if !typeOk (region frame) (bits pte 5 4) then .fault causeTypemis level
  else if !permOk pte need then .fault causePerm level
  else .ok ⟨bits pte 63 50, frame + va % 2 ^ (12 + 9 * level), bits pte 5 4⟩

/-- A leaf used by a walk: A and D are set at its home and the caches filled, when its checks pass (R105, R106). -/
def useLeaf (s : State) (loc job part : Nat) (va : Nat) (need : Need) (user : Bool) (level pa pte : Nat) : XRes × Mem :=
  match leafRes pte level va need user with
  | .ok x =>
    let upd := pte ||| 256 ||| (if need.writes then 128 else 0)
    let m := fillCache s loc job part level va upd pa
    (.ok x, if upd = pte then m else { m with cells := setBytes m.cells pa (natBytes 8 upd) })
  | r => (r, s.mem)

/-- The walk from a level down (R103 to R107, R115): an entry whose line is held elsewhere or whose frame moves is waited
for. Answers the outcome and memory with A and D set and the caches filled. -/
def walk (s : State) (loc job part : Nat) (va : Nat) (need : Need) (user : Bool) :
    Nat → Nat → Nat → XRes × Mem
  | 0, _, _ => (.fault causeBadpte 0, s.mem)
  | fuel + 1, level, table =>
    let pa := table + 8 * vaIndex va level
    let (pte, read) := walkEntry s loc job part level va pa
    let frame := bits pte 49 10 * 4096
    if !paOk s pa then (.fault causePhysaddr level, s.mem)
    else if read && entryBusy s pa then (.zpage pa, s.mem)
    else
      let s := if read then s.heat pa else s
      if !bit pte 9 then (.fault causeNotpres level, s.mem)
      else if bits pte 2 0 == 0 then
        if level = 0 || bit pte 6 || 1 < region frame then (.fault causeBadpte level, s.mem)
        else walk { s with mem := fillCache s loc job part level va pte pa } loc job part va need user fuel (level - 1) frame
      else if 3 ≤ level then (.fault causeBadpte level, s.mem)
      else if bit pte 1 && !bit pte 0 then (.fault causeBadpte level, s.mem)
      else if bit pte 6 then (.zpage pa, s.mem)
      else useLeaf s loc job part va need user level pa pte

/-- Translation at a core: a leaf that its caches hold, or else a walk from L4 (R103, R109). -/
def lookup (s : State) (loc job part : Nat) (va : Nat) (need : Need) (user : Bool) (root : Nat) : XRes × Mem :=
  match leafHit s loc job part va need.writes with
  | some e => (leafRes e.pte.toNat e.level va need user, s.mem)
  | none => walk s loc job part va need user 6 4 root

/-- Translates a virtual address under a job at a core or unit (R102 to R107). User-level accesses to supervisor space
raise PERM. -/
def translate (s : State) (loc job : Nat) (user : Bool) (va : Word) (need : Need) : XRes × State :=
  if !canonical va.toNat then (.fault causeNoncanon 0, s)
  else if user && bit va.toNat 53 then (.fault causePerm 0, s)
  else match mget? s.work.jobs job with
    | none => (.fault causeNotpres 4, s)
    | some j =>
      let (r, m) := lookup s loc job j.part va.toNat need user j.root
      (match r with
       | .ok x => .ok (if x.dev = s.fabric.self then { x with pa := fwdPa s x.pa } else x)
       | _ => r, { s with mem := m })

/-- Whether core k serves the home of a physical address: any of the four dock cores for a slice (R338). -/
def servesHome (k pa : Nat) : Bool :=
  if region pa = 0 || region pa = 2 then k / 16 == homeOf pa / 16 && coreDie k != 8 else k == homeOf pa

/-- The scratchpad offset of a physical address in region 0x3. -/
def scrPa (k off : Nat) : Nat := 3 * 2 ^ 48 + k * 65536 + off

/-! ## Tags and poison (R272, R231) -/

/-- A row's tags; full, unpinned and clean by default (R231). -/
def Core.row (c : Core) (r : Nat) : RowTag := mget c.rows r ⟨true, false, false⟩

/-- Writes a row's tags. -/
def Core.setRow (c : Core) (r : Nat) (t : RowTag) : Core := { c with rows := mput c.rows r t }

/-- The row that a physical address in region 0x3 lies in. -/
def rowOf (pa : Nat) : Nat := bits pa 15 0 / 64

/-- Whether the word at a physical address is full: a row tag in a scratchpad (R272). -/
def State.isFull (s : State) (pa : Nat) : Bool :=
  if region pa = 3 then ((s.coreAt (bits pa 31 16)).row (rowOf pa)).full else !numHas s.mem.empties (pa / 8)

/-- Whether the word at a physical address is poisoned. -/
def State.isPoison (s : State) (pa : Nat) : Bool :=
  if region pa = 3 then ((s.coreAt (bits pa 31 16)).row (rowOf pa)).poison else numHas s.mem.poison (pa / 8)

/-- Whether a waiter awaits full. -/
def awaitsFull : Perform → Bool
  | .syncWrite _ => false
  | _ => true

/-- Sets the tag of the word at a physical address: a row's tag in a scratchpad (R272). -/
def State.setTag (s : State) (pa : Nat) (full : Bool) : State :=
  if region pa = 3 then
    s.setCore (bits pa 31 16) ((s.coreAt (bits pa 31 16)).setRow (rowOf pa)
      { (s.coreAt (bits pa 31 16)).row (rowOf pa) with full := full })
  else
    let es := if full then numDel s.mem.empties (pa / 8) else numIns s.mem.empties (pa / 8)
    s.setMem { s.mem with empties := es }

/-- Whether two physical addresses share a tag. -/
def sameTag (pa qa : Nat) : Bool := if region pa = 3 then region qa == 3 && pa / 64 == qa / 64 else pa / 8 == qa / 8

/-- Sets the tag of a word and retries its waiters in list order, before any later access (R275). -/
def State.setFull (s : State) (pa : Nat) (full : Bool) : State :=
  (s.setTag pa full).postFirst ((s.mem.waiters.filter
    (fun w => w.parked && sameTag pa w.acc.pa && awaitsFull w.acc.how == full)).map (fun w => Ev.syncRetry w.acc))

/-- Writes clear the poison of the words they cover whole (R74). -/
def clearPoison (m : Mem) (pa n : Nat) : Mem :=
  if n < 8 then m else
    let m := { m with poison := numDel m.poison (pa / 8) }
    if n < 16 then m else { m with poison := numDel m.poison (pa / 8 + 1) }

/-! ## Fault records (05 R111, R112) -/

/-- Access codes of a fault record. -/
def accLoad : Nat := 0
def accStore : Nat := 1
def accAtomic : Nat := 2
def accRed : Nat := 3
def accFetch : Nat := 4
def accCopyRead : Nat := 6
def accCopyWrite : Nat := 7
def accFoot : Nat := 8
def accDeferred : Nat := 9
def accDecomp : Nat := 10
def accMigrate : Nat := 11

/-- A 32-byte fault record. -/
structure FaultRec where
  engine : Nat
  cause : Nat
  job : Nat
  place : Nat        -- global core identifier
  va : Word
  access : Nat
  size : Nat         -- log2
  spec : Bool
  slot : Nat
  cmd : Nat
  level : Nat
  token : Nat
  deriving DecidableEq, Repr

/-- The four words of a record (R111). -/
def faultWords (f : FaultRec) : Word × Word × Word × Word :=
  (w64 (f.engine * 2 ^ 56 + f.cause * 2 ^ 48 + f.job % 65536 * 2 ^ 32 + f.place % 2 ^ 30), f.va,
   w64 (f.access * 2 ^ 60 + f.size % 8 * 2 ^ 57 + b2n f.spec * 2 ^ 56 + f.slot % 16 * 2 ^ 52 + f.cmd % 4096 * 2 ^ 40 +
     f.level % 8 * 2 ^ 37),
   w64 (f.token % 2 ^ 63))

/-! ## Launches (06 R128 to R133) -/

/-- The launch at an index. -/
def State.launchAt (s : State) (i : Nat) : Option Launch := mget? s.work.launches i

/-- Changes the launch at an index. -/
def State.setLaunch (s : State) (i : Nat) (f : Launch → Launch) : State :=
  match s.launchAt i with
  | none => s
  | some l => s.setWork { s.work with launches := mput s.work.launches i (f l) }

/-- The partition of a launch. -/
def State.partOf (s : State) (launch : Nat) : Nat := (s.launchAt launch).elim 0 Launch.part

/-- The launch of a task in this module's table: a guest of another module's launch has none here (R132, R64). -/
def State.launchOf (s : State) (t : Task) : Option Launch :=
  if modOf t.dcore = s.fabric.self then s.launchAt t.launch
  else (s.launchAt t.launch).filter (fun l => l.multi && l.part == t.part)

/-- The partition of a task: that of its launch, or for another module's the one its packets carry (R59). -/
def State.partOfTask (s : State) (t : Task) : Nat := if modOf t.dcore = s.fabric.self then s.partOf t.launch else t.part

/-- Adds to a launch's COUNT (R128). -/
def State.raiseCount (s : State) (i n : Nat) : State := s.setLaunch i (fun l => { l with count := l.count + n })

/-- Lowers a launch's COUNT; at zero the launch completes, unless sweeps decide it (R128). -/
def State.lowerCount (s : State) (i : Nat) : State :=
  match s.launchAt i with
  | none => s
  | some l =>
    let s := s.setLaunch i (fun l => { l with count := l.count - 1 })
    if l.count = 1 && !l.multi && !l.ord then s.post (.launchComplete i) else s

/-! ## Packets of the fabric (03 R52, R58 to R60, R69) -/

/-- The bytes that a payload takes in a packet behind the header (R59): a migrant as R62 counts it, a task packet or a
message its 64 bytes, a line its data; the rest the words they name (notes/assumptions/92). -/
def payBytes : Payload → Nat
  | .migrant m => 16 + 8 * m.regs.length
  | .task _ _ _ _ | .message _ _ _ _ | .spawn _ | .spawnwResend _ => 64
  | .lineData _ _ _ _ _ => 64
  | .lineWrite _ _ _ _ _ _ => 72
  | .recalled _ (some _) => 64
  | .anti _ _ _ | .gang _ _ | .sweep _ _ | .record _ _ _ _ _ _ => 32
  | .access a => match a.how with
    | .cas2 _ _ _ _ => 40
    | .line (some _) => 72
    | _ => 24
  | _ => 16

/-- The flits of a packet: 64 bytes each, the header's 16 bytes among them (R59). -/
def flitsFor (p : Payload) : Nat := (16 + payBytes p + 63) / 64

/-- The class of an access in the fabric (R58): reductions, posted writes, and for the rest the coherence class
(notes/assumptions/92). -/
def accClass (a : Access) : Nat :=
  match a.how with
  | .red _ _ _ => 5
  | .store _ _ | .fill _ | .tagWrite _ | .line (some _) => 4
  | _ => 2

/-- What a router reads of a reduction (R67): the operation in [2:0], the type in [4:3], the half in [5], the address from
bit 6 and the key from bit 64; the partition stands in the header. -/
def redKeyOf (a : Access) (key : Nat) : Nat :=
  match a.how with
  | .red op ty _ => op.toNat % 8 + ty.toNat * 8 + (if ty.toNat < 2 then a.pa / 4 % 2 else 0) * 32 + a.pa / 8 * 64 +
      key * 2 ^ 64
  | _ => 0

/-- The operand of a reduction. -/
def redValue (a : Access) : Word :=
  match a.how with
  | .red _ _ v => v
  | _ => 0

/-- A request packet of this module: its class, its destination, the address there, its source core and slot, its partition
and launch. -/
def State.packet (s : State) (cls dst addr src slot part launch : Nat) (pay : Payload) : FabPkt :=
  { cls := cls, response := false, dst := dst, dstAddr := addr, src := gcid s src, slot := slot, part := part, detour := 0,
    dateline := false, marked := false, launch := launch, flits := flitsFor pay, redKey := 0, value := 0, srcs := [],
    seq := 0, also := [], pay := pay }

/-- A packet goes to the module's own endpoint of the fabric. -/
def State.inNet (s : State) (p : FabPkt) : State := s.post (.routeHop p)

/-- Sends a request to another module. -/
def State.ask (s : State) (cls dst addr src slot part launch : Nat) (pay : Payload) : State :=
  s.inNet (s.packet cls dst addr src slot part launch pay)

/-- Sends an access to the home in another module (R52): its source is the first slot it lists. -/
def State.askAccess (s : State) (dst : Nat) (a : Access) (key : Nat) : State :=
  let src := (a.srcs.head?).getD ⟨a.org / 16, 0, 0⟩
  s.inNet { s.packet (accClass a) dst a.pa (coreOf src.core) src.slot a.part a.launch (.access a) with
    src := src.core, redKey := redKeyOf a key, value := redValue a, srcs := if accClass a = 5 then a.srcs else [] }

/-- The request that a response answers, among those delivered and not yet answered. -/
def State.echoOf (s : State) (cls src slot : Nat) : Echo :=
  (s.fabric.echo.find? (fun e => e.cls == cls && e.src == src && e.slot == slot)).getD ⟨src, slot, cls, 0, false⟩

/-- Answers a request of another module: the response carries its partition and its mark (R59, R69). -/
def State.respond (s : State) (cls src slot unit : Nat) (pay : Payload) : State :=
  let e := s.echoOf cls src slot
  let s := s.setFabric { s.fabric with echo := s.fabric.echo.erase e }
  s.inNet { s.packet cls (modOf src) 0 unit 0 e.part 0 pay with response := true, marked := e.marked, slot := slot }

/-- Acknowledges n posted accesses of a slot of another module with one PWACK, which echoes a mark that any of them
carried (R65, R69). -/
def State.respondAck (s : State) (src slot n : Nat) : State :=
  let mine (e : Echo) : Bool := (e.cls == 4 || e.cls == 5) && e.src == src && e.slot == slot
  let es := (s.fabric.echo.filter mine).take n
  let cls := (es.head?).elim 4 Echo.cls
  let part := (es.head?).elim 0 Echo.part
  let s := s.setFabric { s.fabric with echo := es.foldl (fun l e => l.erase e) s.fabric.echo }
  s.inNet { s.packet cls (modOf src) 0 unitRouter 0 part 0 (.pwack ⟨coreOf src, slot⟩ n) with
    response := true, marked := es.any Echo.marked, slot := slot }

/-- The other modules of the machine (R51). -/
def State.otherModules (s : State) : List Nat :=
  ((List.range (s.fabric.sx + 1)).flatMap (fun x => (List.range (s.fabric.sy + 1)).flatMap (fun y =>
    (List.range (s.fabric.sa + 1)).flatMap (fun a => (List.range (s.fabric.sb + 1)).map (fun b =>
      x * 512 + y * 16 + a * 4 + b))))).filter (fun m => m != s.fabric.self)

/-- Sends a request to every other module of the machine. -/
def State.askAll (s : State) (cls src part : Nat) (pay : Payload) : State :=
  s.otherModules.foldl (fun s m => s.ask cls m 0 src 0 part 0 pay) s

/-- A cluster of the module. -/
def State.cluster (s : State) (cl : Nat) : Cluster := mget s.work.clusters cl Cluster.reset

/-- Replaces a cluster. -/
def State.setCluster (s : State) (cl : Nat) (c : Cluster) : State :=
  s.setWork { s.work with clusters := mput s.work.clusters cl c }

/-- The sender that marks a handler task on its way (R133). -/
def handlerPoster : SlotId := ⟨unitLaunch, 0⟩

/-- The packet of a handler task (R133). -/
def handlerPacket (s : State) (l : Launch) (i : Nat) (arg0 arg1 : Word) : Words8 :=
  let seq := (s.coreAt l.hcore).post
  ⟨w64 (gcid s l.hcore * 2 ^ 32 + seq.toNat), 0,
   w64 (3 * 2 ^ 62 + 3 * 2 ^ 60 + 2 ^ 58 + l.handler.toNat % 2 ^ 54),
   w64 (i * 2 ^ 48 + coreNum l.hcore * 2 ^ 32), 0, 0, arg0, arg1⟩

/-- Posts a handler task of a launch (R133). -/
def State.postHandler (s : State) (i : Nat) (l : Launch) (arg0 arg1 : Word) : State :=
  let pkt := handlerPacket s l i arg0 arg1
  let c := s.coreAt l.hcore
  let s := (s.setCore l.hcore { c with post := c.post + 1 }).raiseCount i 1
  s.send (srcKey unitLaunch 0) (clusterOf l.hcore) (.taskPacketArrival (clusterOf l.hcore) handlerPoster false pkt)

/-- Writes the four words of a record at a physical address under a key. -/
def writeRecord (m : Mem) (key pa : Nat) (w : Word × Word × Word × Word) : Mem :=
  m.write key pa (natBytes 8 w.1.toNat ++ natBytes 8 w.2.1.toNat ++ natBytes 8 w.2.2.1.toNat ++ natBytes 8 w.2.2.2.toNat)

/-- The key that an identifier holds: the identifier, and which load of it (R125, R126). Data written under an earlier
load do not read as plaintext under a later one. -/
def State.keyIn (s : State) (k : Nat) : Nat := k + 128 * mget s.mgmt.keyGens k 0

/-- The key of a job (R125). -/
def State.keyOf (s : State) (job : Nat) : Nat := s.keyIn ((mget? s.work.jobs job).elim 0 Job.key)

/-- The key under which an access runs: key 0 for supervisor space, else its job's (R125). -/
def State.accKey (s : State) (job : Nat) (va : Word) : Nat := if bit va.toNat 53 then 0 else s.keyOf job

/-- The identifier of a key as packets of the fabric carry it: 64 for bytes that no key covers, 127 for a load of an
identifier that is over (R125, notes/assumptions/93). -/
def wireKey (s : State) (k : Nat) : Nat := if k = 64 || s.keyIn (k % 128) = k then k % 128 else 127

/-- The key of this module that an identifier names. -/
def localKey (s : State) (w : Nat) : Nat := if 64 ≤ w then w else s.keyIn w

/-- Whether a key's identifier is LIVE (R126). -/
def State.keyLive (s : State) (k : Nat) : Bool := mget s.mgmt.keys (k % 128) .empty == .live

/-- Sends a fault record to the host as JOBFAULT (R87), with SEQ 0 (DESIGN CHOICE, notes/assumptions/26). -/
def State.jobFault (s : State) (job : Nat) (w : Word × Word × Word × Word) : State :=
  s.toHost 0x82 0 job 0 w.1 w.2.1 w.2.2.1 w.2.2.2

/-- A 54-bit address, sign-extended (R102). -/
def sext54 (w : Word) : Word := (w.setWidth 54).signExtend 64

/-- The address of the ring slot that a launch's next record takes (R133). -/
def ringVa (l : Launch) : Word := sext54 (l.farea + w64 (32 * (l.fahead % 256)))

/-- Where the next ring slot of a launch lies (R133). -/
def ringSlot (s : State) (l : Launch) : XRes × State := translate s (l.hcore) l.job false (ringVa l) .both

/-- The originator of the launch unit's accesses to fault rings. -/
def ringOrg (s : State) : Nat := gcid s unitLaunch * 16 + 15

/-- An access of the launch unit to a fault ring, under the launch's job (R133). -/
def ringAccess (s : State) (i : Nat) (l : Launch) (pa : Nat) (how : Perform) : Access :=
  { srcs := [], org := ringOrg s, va := ringVa l, pa := pa, pc := 0, job := l.job, launch := i, part := l.part, user := false,
    ord := false, handler := true, release := false, dst := 0, how := how }

/-- An access leaves a unit for its home, in this module or another (R52). -/
def State.unitSend (s : State) (dev : Nat) (a : Access) : State :=
  if dev = s.fabric.self then s.send (a.org / 16 % 65536 * 16) (homeOf a.pa) (.homeAccess a)
  else s.askAccess dev a (s.accKey a.job a.va)

/-- Whether the ring slot lies in memory of this module that nothing holds, where its home serves it at once. -/
def ringNear (s : State) (x : Xlat) : Bool :=
  x.dev == s.fabric.self && paOk s x.pa && (region x.pa < 2 || region x.pa == 3) && !writeBusy s x.pa

/-- The first record that waits at a launch, changed. -/
def State.setStalled (s : State) (i : Nat) (f : List (Nat × Word × Word × Word × Word) → List (Nat × Word × Word × Word × Word)) : State :=
  s.setLaunch i (fun l => { l with stalled := f l.stalled })

/-- The oldest record of a launch cannot be written: it goes to the host, and the next is tried (R133). -/
def State.ringFail (s : State) (i : Nat) : State :=
  match s.launchAt i with
  | none => s
  | some l => match l.stalled with
    | [] => s
    | (_, w) :: rest =>
      let s := (s.setStalled i (fun _ => rest)).jobFault l.job w
      if rest.isEmpty then s else s.post (.faultRingRetry i)

/-- A record stands in the ring: FAHEAD rises, and the handler task is posted with the record's address (R133). -/
def State.ringDone (s : State) (i : Nat) (l : Launch) : State :=
  (s.setLaunch i (fun l => { l with fahead := (l.fahead + 1) % 2 ^ 32, stalled := l.stalled.drop 1 })).postHandler i l
    (ringVa l) 0

/-- The launch unit reads word 0 of the slot at its home (R133): 1 before it writes the record, 2 after. -/
def State.ringRead (s : State) (i : Nat) (l : Launch) (x : Xlat) (stage : Nat) : State :=
  (s.setStalled i (fun q => (q.take 1).map (fun y => (stage, y.2)) ++ q.drop 1)).unitSend x.dev
    (ringAccess s i l x.pa (.load 3))

/-- The accesses that wait in the module's replay queues (R113): on faults, on compressed pages (R122), on pages that
move (R120), on host pages (R90), and on a live migration (R155). -/
def replayCount (s : State) : Nat :=
  s.mem.replay.length + s.churn.zwait.length + (s.mem.moving.map (fun m => m.queue.length)).foldl (· + ·) 0 +
  (s.host.hostWaits.filter (fun w => w.2 < 5)).length + s.work.lmigQueue.length

/-- Stops an engine's access while the replay queues are full: it runs again as entries free (R113). -/
def State.stopAt (s : State) (job launch : Nat) (va : Word) (what : Waiting) : State :=
  s.setMem { s.mem with stopped := s.mem.stopped ++ [⟨0, job, launch, va, what⟩] }

/-- Asks the churn engine for a compressed page; the access is translated again later (R122). On full queues a slot or
stream tries again by itself, and any other access stops (R113). -/
def State.askPage (s : State) (pte : Nat) (job : Nat) (va : Word) (launch : Nat) (what : Waiting) : State :=
  if s.churn.zwait.any (fun z => z.1 == pte && z.2.va == va && z.2.what == what) then s
  else if 4096 ≤ replayCount s then
    match what with
    | .thread _ | .copy _ _ => s
    | _ => s.stopAt job launch va what
  else
    let t := s.mem.nextToken
    let s := s.setMem { s.mem with nextToken := t + 1 }
    let s := s.setChurn { s.churn with zwait := s.churn.zwait ++ [(pte, ⟨t, job, launch, va, what⟩)] }
    s.after 1 (.zPageDecompress t)

/-- Tries the oldest record that waits at a launch: a free slot takes it, a full ring is read again at least every 1,700
cycles, and a fault sends it to the host (R133). -/
def State.tryRing (s : State) (i : Nat) (l : Launch) (w : Word × Word × Word × Word) : State :=
  match ringSlot s l with
  | (.ok x, s) =>
    if ringNear s x then
      if !s.keyLive (s.keyOf l.job) then s.ringFail i
      else if bytesNat (s.mem.read (s.keyOf l.job) x.pa 8) != 0 then (s.heat x.pa).after 1700 (.faultRingRetry i)
      else
        let s := (List.range 5).foldl (fun s _ => s.heat x.pa) s
        ({ s with mem := writeRecord s.mem (s.keyOf l.job) x.pa w }).ringDone i l
    else s.ringRead i l x 1
  | (.zpage pte, s) => s.askPage pte l.job (ringVa l) i (.ring i)
  | (.fault _ _, s) => s.ringFail i

/-- The answer to a read of a ring slot at a home elsewhere: a free slot is written, words 1 to 3 before word 0, and read
again until word 0 stands; a full ring is read again later (R133). -/
def State.ringAnswer (s : State) (a : Access) (v : Word) : State :=
  match s.launchAt a.launch with
  | none => s
  | some l => match l.stalled with
    | (stage, w) :: _ =>
      match ringSlot s l with
      | (.ok x, s) =>
        let put (s : State) (n : Nat) (v : Word) : State :=
          s.unitSend x.dev { ringAccess s a.launch l (x.pa + 8 * n) (.store 8 v) with va := ringVa l + w64 (8 * n) }
        if stage = 1 then
          if v = 0 then ((((put s 1 w.2.1) |> (put · 2 w.2.2.1)) |> (put · 3 w.2.2.2)) |> (put · 0 w.1)).ringRead a.launch l x 2
          else (s.setStalled a.launch (fun q => (q.take 1).map (fun y => (0, y.2)) ++ q.drop 1)).after 1700
            (.faultRingRetry a.launch)
        else if v = 0 then s.ringRead a.launch l x 2
        else
          let s := s.ringDone a.launch l
          if l.stalled.length ≤ 1 then s else s.post (.faultRingRetry a.launch)
      | (.zpage pte, s) =>
        (s.setStalled a.launch (fun q => (q.take 1).map (fun y => (0, y.2)) ++ q.drop 1)).askPage pte l.job (ringVa l) a.launch
          (.ring a.launch)
      | (.fault _ _, s) => s.ringFail a.launch
    | [] => s

/-- Delivers a fault record: to the launch's ring and handler task, or to the host (R111, R133). A record of a task whose
launch stands in another module's table goes there (R64); a handler's own goes to the host. -/
def State.deliverRecord (s : State) (mod launch : Nat) (fromHandler : Bool) (job : Nat)
    (w : Word × Word × Word × Word) : State :=
  if fromHandler then s.jobFault job w
  else if mod != s.fabric.self then
    s.ask 1 mod 0 unitRouter 0 0 launch (.record launch job w.1 w.2.1 w.2.2.1 w.2.2.2)
  else match s.launchAt launch with
  | none => s.jobFault job w
  | some l =>
    if l.handler = 0 then s.jobFault job w
    else
      let s := s.setStalled launch (fun q => q ++ [(0, w)])
      if l.stalled.isEmpty then s.tryRing launch { l with stalled := [(0, w)] } w else s

/-- The module whose launch table holds the launch of what waits (R64). -/
def waitModule (s : State) (w : Waiting) : Nat :=
  match w with
  | .thread id => modOf (s.slotAt id).task.dcore
  | .access a => modOf (a.org / 16)
  | .gang init _ => init
  | _ => s.fabric.self

/-- Puts an access into the replay queue and delivers its record (R111, R113). While 4,096 accesses wait, the record is
not written and the engine stops at the access; it is tried again at the engine's next turn. A fault of a host page goes to
the host (R90). -/
def State.raiseFault (s : State) (f : FaultRec) (launch : Nat) (fromHandler : Bool) (what : Waiting) : Option State :=
  if 4096 ≤ replayCount s then none
  else
    let t := s.mem.nextToken
    let s := s.setMem { s.mem with replay := s.mem.replay ++ [⟨t, f.job, launch, f.va, what⟩], nextToken := t + 1 }
    some (s.deliverRecord (waitModule s what) launch (fromHandler || f.cause == causeHostpage) f.job (faultWords { f with token := t }))

/-- Raises a fault of an access that no turn of a slot or stream repeats: on full queues it stops and is kept. -/
def State.faultOrStop (s : State) (f : FaultRec) (launch : Nat) (fromHandler : Bool) (what : Waiting) : State :=
  (s.raiseFault f launch fromHandler what).getD (s.stopAt f.job launch f.va what)

/-! ## Ending a task (06 R134, R139, 07 R449, 16 R394) -/

/-- A cleared slot: its trap registers stay as they are, the posted count goes on falling. -/
def Slot.freed (sl : Slot) : Slot :=
  { Slot.reset with tepc := sl.tepc, tcause := sl.tcause, tval := sl.tval, posted := sl.posted,
                    unackMsg := sl.unackMsg, spawns := sl.spawns }

/-- The barrier request that a task sends for one entry of its join list when it ends (R358). A translation that
faults waits under R111. -/
def State.leaveBarrier (s : State) (id : SlotId) (t : Task) (va : Word) : State :=
  let a (pa : Nat) : Access :=
    { srcs := [⟨gcid s id.core, id.slot, 0⟩], org := t.dcore * 16 + id.slot, va := va, pa := pa, pc := 0, job := t.job, launch := t.launch,
      part := s.partOfTask t, user := true, ord := t.ord, handler := t.handler, release := false, dst := 0, how := .barrier .leaveSelf 0 }
  match translate s id.core t.job true va .both with
  | (.ok x, s) =>
    if x.dev = s.fabric.self then s.send (srcKey id.core id.slot) (homeOf x.pa) (.homeAccess (a x.pa))
    else s.askAccess x.dev (a x.pa) 0
  | (.zpage pte, s) => s.askPage pte t.job va t.launch (.access (a 0))
  | (.fault c lv, s) =>
    s.faultOrStop
      { engine := if coreDie id.core = 8 then 4 else if 128 ≤ coreGroup id.core then 3 else 0, cause := c, job := t.job,
        place := gcid s id.core, va := va, access := accAtomic, size := 5, spec := t.ord, slot := id.slot, cmd := 0,
        level := lv, token := 0 } t.launch t.handler (.access (a 0))

/-- A slot leaves its nest (R147); the nest is freed when no slot is joined. -/
def State.leaveNest (s : State) (n : Option (Nat × Nat × Nat)) : State :=
  match n with
  | none => s
  | some (cl, k, part) =>
    let c := s.cluster cl
    match mget? c.nests k with
    | none => s
    | some ne =>
      let ps := mdel ne.parts part
      s.setCluster cl { c with nests := if ps.isEmpty then mdel c.nests k else mput c.nests k { ne with parts := ps } }

/-- Unpins the rows of a task and releases its table-cache entry on its dispatching core (R140). The pinned rows are
those of its footprint, which the core's rows record. -/
def State.unpin (s : State) (k : Nat) (rows : List Nat) : State :=
  s.setCore k (rows.foldl (fun c r => c.setRow r { c.row r with pin := false }) (s.coreAt k))

/-- One task less uses a table-cache entry. -/
def State.dropTable (s : State) (k : Nat) (t : Task) : State :=
  if t.tfmt = 0 then s else
    let c := s.coreAt k
    match mget? c.tables t.tfi with
    | none => s
    | some e => s.setCore k { c with tables := mput c.tables t.tfi { e with users := e.users - 1 } }

/-- An access of a slot that is on its way goes on without it: its result is not wanted (R134). Posted accesses keep their
source. -/
def dropSource (g slot : Nat) (a : Access) : Access :=
  if a.srcs.any (fun x => x.core == g && x.slot == slot && x.count == 0) then { a with srcs := [] } else a

/-- An event on its way whose answer a slot no longer wants. -/
def dropAnswer (g : Nat) (id : SlotId) (e : Ev) : Ev :=
  match e with
  | .homeAccess a => .homeAccess (dropSource g id.slot a)
  | .syncRetry a => .syncRetry (dropSource g id.slot a)
  | .spawnRequestArrival r => if r.src = g && r.slot = id.slot then .spawnRequestArrival { r with dst := 0 } else e
  | .spawnwResend r => if r.src = g && r.slot = id.slot then .spawnwResend { r with dst := 0 } else e
  | _ => e

/-- No slot: the asker of a request whose slot has ended. -/
def noSlot : SlotId := ⟨2 ^ 20, 0⟩

/-- The units forget what a slot waited for. -/
def State.forget (s : State) (id : SlotId) : State :=
  let g := gcid s id.core
  let s := s.setWork { s.work with
    joins := s.work.joins.filter (fun j => j.id != id),
    rootWait := s.work.rootWait.filter (fun w => w.2.1 != id) }
  let s := s.setMgmt { s.mgmt with keyWait := s.mgmt.keyWait.filter (fun w => w.2.1 != id) }
  let s := s.setAgents { s.agents with
    futures := s.agents.futures.map (fun (f : Nat × Future) => (f.1, { f.2 with watch := f.2.watch.filter (fun w => w.1 != id) })),
    calls := s.agents.calls.filter (fun c => c.2.id != id),
    tokOps := s.agents.tokOps.map (fun (o : Nat × TokOp) =>
      (o.1, if o.2.id.any (fun x => x.1 == id) then { o.2 with id := none } else o.2)) }
  let s := s.setFabric { s.fabric with
    gangs := s.fabric.gangs.map (fun (x : GangInit) => if x.id == id then { x with id := noSlot } else x),
    dirs := s.fabric.dirs.map (fun (x : Nat × Dir) => (x.1, { x.2 with
      pend := x.2.pend.map (fun (p : LanePend) => if p.asker.any (fun a => a.1 == id) then { p with asker := some (noSlot, 0) } else p),
      waiting := x.2.waiting.map (fun (r : LeaseReq) => if r.id == id then { r with id := noSlot } else r) })) }
  let s := s.setChurn { s.churn with
    zwait := (s.churn.zwait.filter (fun z => match z.2.what with
      | .thread x => x != id
      | .launch x _ _ _ => x != id
      | _ => true)).map (fun z => (z.1, match z.2.what with
        | .access a => { z.2 with what := .access (dropSource g id.slot a) }
        | _ => z.2)) }
  let s := s.setMem { s.mem with
    tlbis := s.mem.tlbis.filter (fun w => w.id != id),
    stopped := s.mem.stopped.filter (fun r => match r.what with
      | .launch x _ _ _ => x != id
      | _ => true),
    replay := (s.mem.replay.filter (fun r => match r.what with
      | .thread x => x != id
      | .launch x _ _ _ => x != id
      | _ => true)).map (fun (r : Replay) => match r.what with
      | .access a => { r with what := .access (dropSource g id.slot a) }
      | _ => r) }
  let s := s.setSched { s.sched with
    net := s.sched.net.map (fun (f : Flight) => { f with ev := dropAnswer g id f.ev }),
    timers := s.sched.timers.map (fun (t : Timer) => { t with ev := dropAnswer g id t.ev }),
    inbox := s.sched.inbox.map (dropAnswer g id) }
  { s with cores := s.cores.map (fun (c : Nat × Core) => (c.1, { c.2 with
    recvs := c.2.recvs.filter (fun r => !(r.core == id.core && r.slot == id.slot)),
    spawnws := c.2.spawnws.map (fun (r : SpawnReq) => if r.src = g && r.slot = id.slot then { r with dst := 0 } else r) })) }

/-- A slot becomes free: waiting migrants, SPAWNW requests and the dispatcher are told (R222, R139). -/
def State.freeSlot (s : State) (id : SlotId) : State :=
  let s := s.forget id
  let s := s.setSlot id (s.slotAt id).freed
  (s.post (.migrantEntry id.core)).post (.primarySlotFree id.core)

/-- The streams of a slot stop after their current command and produce no token (R171, R158); those between commands
end at once. -/
def State.stopStreams (s : State) (id : SlotId) : State :=
  let c := s.coreAt id.core
  let mx := (c.mx.filter (fun m => !(m.slot == id.slot && m.off.isNone))).map (fun (m : MxStream) =>
    if m.slot == id.slot then { m with stop := true } else m)
  let s := s.setCore id.core { c with mx := mx }
  if isTile s.part id.core then
    let cl := clusterOf id.core
    let cs := (s.cluster cl).copies.filter (fun x => !(x.2.core == id.core && x.2.slot == id.slot && !x.2.begun))
    let cs := cs.map (fun (x : Nat × CpStream) =>
      if x.2.core == id.core && x.2.slot == id.slot then (x.1, { x.2 with stop := true }) else x)
    s.setCluster cl { s.cluster cl with copies := cs }
  else s

/-- Whether a stream of a slot still runs the command at which it stops. -/
def State.streaming (s : State) (id : SlotId) : Bool :=
  (s.coreAt id.core).mx.any (fun m => m.slot == id.slot && m.stop) ||
  (s.cluster (clusterOf id.core)).copies.any (fun x => x.2.core == id.core && x.2.slot == id.slot && x.2.stop)

/-- The pins of a task that has ended are released, once the current commands of its streams are done (R134). -/
def State.releasePins (s : State) (id : SlotId) (k : Nat) (rows : List Nat) : State :=
  if s.streaming id then s.setCore k { s.coreAt k with heldPins := (s.coreAt k).heldPins ++ [(id.core, id.slot, rows)] }
  else s.unpin k rows

/-- A stream of a slot has stopped: the pins held for it are released (R134). -/
def State.settlePins (s : State) (id : SlotId) : State :=
  let held := (s.coreAt id.core).heldPins.filter (fun h => h.1 == id.core && h.2.1 == id.slot)
  if held.isEmpty || s.streaming id then s
  else
    let s := s.setCore id.core { s.coreAt id.core with
      heldPins := (s.coreAt id.core).heldPins.filter (fun h => !(h.1 == id.core && h.2.1 == id.slot)) }
    held.foldl (fun s h => s.unpin id.core h.2.2) s

/-- Discards what a task holds on its dispatching core and elsewhere, without touching COUNT. -/
def State.discardTask (s : State) (id : SlotId) : State :=
  let sl := s.slotAt id
  let t := sl.task
  let dk := coreOf t.dcore
  let mine := modOf t.dcore == s.fabric.self
  let s := if mine then s.leaveNest t.nest else s
  let s := t.joins.foldl (fun s va => s.leaveBarrier id t va) s
  let s := s.stopStreams id
  let s := if mine then (s.releasePins id dk t.pins).dropTable dk t else s
  let ws := s.mem.waiters.filter (fun w => !(w.acc.srcs.any (fun x => x.core == gcid s id.core && x.slot == id.slot)))
  let s := s.setMem { s.mem with waiters := ws }
  s.freeSlot id

/-- The generation after one: it skips 0 (R195). -/
def nextGen (g : Nat) : Nat := if 65535 ≤ g then 1 else g + 1

/-- A future that is FREE, at a generation (R195). -/
def Future.empty (gen : Nat) : Future :=
  { st := 0, reason := 0, gen := gen, job := 0, launch := 0, tool := 0, sb := false, seqi := 0, caller := 0, cslot := 0,
    dlus := 0, deadline := 0, argva := 0, arglen := 0, repva := 0, repcap := 0, replen := 0, sent := 0, user := true,
    descva := 0, watch := [] }

/-- The entry at an index: generations begin at 1. -/
def State.futureAt (s : State) (i : Nat) : Future := mget s.agents.futures i (Future.empty 1)

/-- Replaces the entry at an index. -/
def State.setFuture (s : State) (i : Nat) (f : Future) : State :=
  s.setAgents { s.agents with futures := mput s.agents.futures i f }

/-- The entry that a handle names while its generation is current (R195). -/
def State.byHandle (s : State) (h : Nat) : Option Future :=
  let f := s.futureAt (h % 65536)
  if f.st != 0 && f.gen == bits h 31 16 then some f else none

/-- A future returns to FREE and its generation is raised (R195, R196): a WAITING sequence may make its call (R192). -/
def State.freeFuture (s : State) (h : Nat) : State :=
  match s.byHandle h with
  | none => s
  | some f =>
    let s := s.setFuture (h % 65536) (Future.empty (nextGen f.gen))
    let s := s.setAgents { s.agents with futOps := s.agents.futOps.filter (fun o => o.2.h != h) }
    if s.agents.waitingSeqs.isEmpty then s else s.post .waitingToCalling

/-- The handles of the tool calls that log entries hold (R178, R206). -/
def callHandles (l : List LogEnt) : List Nat :=
  l.flatMap (fun e => match e.kind with
    | .irrev rs => (rs.filter (fun r => bits r.1.toNat 63 56 == 2)).map (fun r => r.2.1.toNat % 2 ^ 32)
    | _ => [])

/-- The tags of a task's log entries no longer say that they are valid (R172). -/
def State.clearTags (s : State) (k spec : Nat) : State :=
  match mget? (s.coreAt k).spec spec with
  | none => s
  | some e => match mget? s.work.ordered (s.partOf (bits e.pkt.w3.toNat 63 48)) with
    | none => s
    | some o =>
      let tag (x : LogEnt) : Nat := scrPa k (64 * (o.lfirst + o.nlog) + 8 * x.idx)
      let mine := (s.coreAt k).log.filter (fun x => x.spec == spec)
      let cells := mine.foldl (fun m x => setByte m (tag x + 7) (byteAt m (tag x + 7) &&& 127)) s.mem.cells
      s.setMem { s.mem with cells := cells }

/-- Frees the speculation entry and the log entries of a task (R183 step 3, R449); the futures of tool calls still
recorded there return to FREE (R206). -/
def State.freeSpec (s : State) (k spec : Nat) : State :=
  let s := s.clearTags k spec
  let c := s.coreAt k
  let s := s.setCore k { c with spec := mdel c.spec spec, log := c.log.filter (fun e => e.spec != spec) }
  (callHandles (c.log.filter (fun e => e.spec == spec))).foldl State.freeFuture s

/-- The thread of a task that has been rolled back ends where it runs (R171): what it held on its dispatching core was
given back by the rollback. -/
def State.dropThread (s : State) (id : SlotId) : State :=
  let s := s.stopStreams id
  let ws := s.mem.waiters.filter (fun w => !(w.acc.srcs.any (fun x => x.core == gcid s id.core && x.slot == id.slot)))
  (s.setMem { s.mem with waiters := ws }).freeSlot id

/-- A task of another module has ended here: that module lowers COUNT and frees what its dispatching core holds for it
(R128). -/
def State.tellEnded (s : State) (t : Task) (quit fail : Bool) : State :=
  s.ask 1 (modOf t.dcore) 0 unitRouter 0 t.part t.launch
    (.ended t.dcore t.launch t.spec t.sgen.toNat t.nest quit fail)

/-- Kills a task (R134, R449): its effects already made stay, COUNT falls, and an ordered task frees its speculation
entry and its log. The count of a task of another module falls there. -/
def State.killTask (s : State) (id : SlotId) (fail : Bool := false) : State :=
  let t := (s.slotAt id).task
  let s := s.discardTask id
  if modOf t.dcore != s.fabric.self then s.tellEnded t false fail
  else
    let s := if t.ord then s.freeSpec (coreOf t.dcore) t.spec else s
    s.lowerCount t.launch

/-! ## Traps (16 R413 to R417) -/

/-- The trap record of R417. -/
def trapkillRec (s : State) (id : SlotId) (t : Trap) : FaultRec :=
  let k := (s.slotAt id).task
  { engine := 0, cause := causeTrapkill, job := k.job, place := gcid s id.core, va := t.epc, access := 0, size := 0,
    spec := k.ord, slot := id.slot, cmd := t.cause % 256 * 16 + t.sub % 16, level := 0, token := 0 }

/-- A trap that is not handled kills the task, sets its launch's FAIL and reports it (R417). -/
def State.unhandled (s : State) (id : SlotId) (t : Trap) : State :=
  let k := (s.slotAt id).task
  let f := trapkillRec s id t
  let s := if modOf k.dcore = s.fabric.self then s.setLaunch k.launch (fun l => { l with fail := true }) else s
  let s := s.deliverRecord (modOf k.dcore) k.launch k.handler k.job (faultWords f)
  s.killTask id true

/-- The slot enters the trap handler (R416). -/
def Slot.enterTrap (sl : Slot) (tvec : Word) (t : Trap) : Slot :=
  { sl with tepc := t.epc, tcause := w64 (t.cause % 256 * 256 + t.sub % 256), tval := t.val, psup := sl.sup, sup := true,
            intrap := true, pc := tvec &&& ~~~3#64, fell := false, entry := false, st := .running }

/-- Taking a trap (R416): results in flight are written, transients expire, and the slot enters its core's handler, or
the task is killed when the trap is not handled. -/
def State.takeTrap (s : State) (id : SlotId) (t : Trap) : State :=
  let sl := ((s.slotAt id).finishLate).expireAll
  let tvec := (s.coreAt id.core).tvec
  if sl.intrap || tvec &&& ~~~3#64 == 0 then (s.setSlot id sl).unhandled id t
  else s.setSlot id (sl.enterTrap tvec t)

/-- The key of a task packet (R163). -/
def keyOfPacket (p : Words8) : Nat := p.w1.toNat * 2 ^ 64 + p.w0.toNat

/-- The levee as a task's dispatching core knows it; for a task of another module, as the dock groups know it (R179,
R182). -/
def State.leveeFor (s : State) (t : Task) : Option Nat :=
  if modOf t.dcore = s.fabric.self then (s.coreAt (coreOf t.dcore)).levee
  else (mget? s.work.ordered ((s.launchAt t.launch).elim 0 Launch.part)).bind Ordered.dockLevee

/-- Whether a task is the safe task of its partition, as its core's published levee says (R182). -/
def State.isSafe (s : State) (t : Task) : Bool := s.leveeFor t == some (keyOfPacket t.pkt)

/-- Whether a slot is one that serves the request of a guest elsewhere: numbers from 16 on (notes/assumptions/91). -/
def serves (id : SlotId) : Bool := 16 ≤ id.slot

/-- Raises a trap at a slot: the trap of a speculative task is held until it becomes the safe task (R186). One that a unit
finds in a guest's request goes back to the guest. -/
def State.raise (s : State) (id : SlotId) (t : Trap) : State :=
  let sl := s.slotAt id
  if serves id then s.setSlot id { sl with st := .trapHeld t }
  else if sl.task.ord && !sl.task.handler && !s.isSafe sl.task then s.setSlot id { sl with st := .trapHeld t }
  else s.takeTrap id t

/-! ## Where control goes (12 R284, 06 R149) -/

/-- Whether the slot's queues and streams are done, as a quiet point asks (R149, R390). -/
def Slot.quiet (sl : Slot) : Bool :=
  sl.toks0.isEmpty && sl.toks1.isEmpty && sl.streams0 == 0 && sl.streams1 == 0 && sl.unackMsg == 0 && sl.recvs == 0 &&
  sl.q4 == 0 && sl.q5 == 0

/-- The line of an address. -/
def lineOf (a : Word) : Word := a &&& ~~~63#64

/-- Moves control: the quiet point on leaving a line with Q, and the count of lines left without one, of which the
1,024th traps (R149); a branch leaves its line even for the same one (R332). `branch` says
that control leaves by a branch, call, jump or return. A pre-empted task stops there, unless in a trap (R152, R414). -/
def Slot.goTo (sl : Slot) (ir : Fetched) (target : Word) (fell branch : Bool) : Slot :=
  let leaves := branch || lineOf target != lineOf ir.pc || fell
  let sl := { sl with pc := target, fell := fell, entry := false, st := .running }
  if ir.q && leaves then
    let sl := { sl with lines := 0, quietBad := if sl.quiet then none else some (0, lineOf ir.pc) }
    if sl.preempt && sl.quiet && !sl.intrap then { sl with st := .saving none } else sl
  else if leaves then
    if 1023 ≤ sl.lines then { sl with quietBad := some (1, 0) } else { sl with lines := sl.lines + 1 }
  else sl

/-- Returning from a trap (R416): the level before the trap, and control at TEPC. -/
def Slot.leaveTrap (sl : Slot) (ir : Fetched) : Slot :=
  { sl.goTo ir sl.tepc false true with sup := sl.psup, intrap := false }

/-- The slot continues at the fall-through address (R284). -/
def Slot.advance (sl : Slot) (ir : Fetched) : Slot := sl.goTo ir ir.npc ir.npcEnd false

/-- The issuing slot, changed, continues at the fall-through address. -/
def State.retire (s : State) (sl : Slot) : State := s.setMe (sl.advance s.sched.ir)

end Sys2Proof.Machine
end

