-- ==== Sys2Proof/Machine/Mmio.lean ====
section
/-! DEFINITION. The window of supervisor MMIO (region 0xE, R108): which register lies at an offset, what a read returns,
and what a write does. FREPLAY (R113) and the image of the future table (R195) have stated offsets; those of the other
registers are not stated, and `Config.mmioReg` places them (notes/assumptions/14). -/

namespace Sys2Proof.Machine

open Sys2Proof

/-! ## Images of registers (R21, R238) -/

/-- FEATURES (R21). -/
def featuresImage (s : State) : Word :=
  let model := match s.part with
    | .ny7740 => 0x40
    | .ny7720 => 0x20
    | .ny7710 => 0x10
  let tool := b2n (s.part != .ny7710)
  let opt := b2n (s.part == .ny7740)
  w64 (model * 2 ^ 48 + s.mgmt.step % 256 * 2 ^ 40 + (2 ^ dies s.part - 1) * 2 ^ 32 + toolCores s.part * 2 ^ 24 +
    0xF0 + opt * 8 + tool * 7)

/-- The array pair of a core (R238). -/
def pairOf (k : Nat) : Nat := clusterOf k * 8 + coreNum k / 2

/-- The array of a core. -/
def State.arrayAt (s : State) (k : Nat) : ArrayPair := mget s.arrays (pairOf k) ArrayPair.reset

/-- Replaces the array of a core. -/
def State.setArray (s : State) (k : Nat) (p : ArrayPair) : State := { s with arrays := mput s.arrays (pairOf k) p }

/-- MXMODE (R238). -/
def mxmodeImage (p : ArrayPair) : Word := w64 (b2n p.err * 16 + p.mode.toNat * 4 + p.w.toNat)

/-- Word w of an entry of the future table (R195). -/
def futureTabWord (f : Future) (w : Nat) : Nat :=
  match w with
  | 0 => f.st * 2 ^ 61 + f.reason % 32 * 2 ^ 56 + f.gen % 65536 * 2 ^ 40 + f.job % 65536 * 2 ^ 24 + f.tool % 65536
  | 1 => if f.sb then 2 ^ 63 + f.seqi % 2 ^ 14 * 2 ^ 34 else f.cslot % 16 * 2 ^ 30 + f.caller % 2 ^ 30
  | 2 => f.deadline % 2 ^ 64
  | 3 => f.argva.toNat % 2 ^ 54
  | 4 => f.arglen % 2 ^ 32 * 2 ^ 32 + f.replen % 2 ^ 32
  | 5 => f.repva.toNat % 2 ^ 54
  | 6 => f.repcap % 2 ^ 32 * 2 ^ 32
  | _ => f.sent % 2 ^ 64

/-- Word w of an entry of the launch table (R132); a FREE entry is zero. -/
def launchTabWord (l : Option Launch) (w : Nat) : Nat :=
  match l with
  | none => 0
  | some l =>
    match w with
    | 0 => l.st * 2 ^ 56 + l.npred % 256 * 2 ^ 48 + l.graph % 65536 * 2 ^ 32 + l.count % 2 ^ 32
    | 1 => l.handler.toNat % 2 ^ 54
    | 2 => l.hcore % 65536 * 2 ^ 48 + l.part % 65536 * 2 ^ 32 + l.init % 2 ^ 14 * 2 ^ 18 + b2n l.fail * 4 +
        b2n l.multi * 2 + b2n l.ord
    | 3 => l.save.toNat % 2 ^ 54
    | 4 => l.farea.toNat % 2 ^ 54
    | 5 => l.fahead % 2 ^ 32 * 2 ^ 32 + l.phase % 2 ^ 32
    | 6 => l.start % 2 ^ 64
    | _ => l.end_ % 2 ^ 64

/-! ## The registers of the window -/

/-- What lies in the window: FREPLAY, the image of the future table, the launch table, the registers of the hub, the
tool tables, and the images of each core's CORECFG and MXMODE. -/
inductive MmioReg
  | freplay
  | future (i w : Nat)
  | launch (i w : Nat)
  | sluiceCtl
  | fabricCfg
  | cxlwin (n : Nat)
  | heatcfg
  | churnCfg
  | churnPool (c : Nat)
  | churnQ
  | partcfg (n : Nat)
  | qovf (d : Nat)
  | dispcfg
  | lmigCtl
  | lmigFwd (i : Nat)
  | seqcfg
  | syncretry
  | localTool (i w : Nat)
  | remoteTool (i w : Nat)
  | corecfg (k : Nat)
  | mxmode (k : Nat)
  deriving DecidableEq, Repr

/-- The register of a pair of `Config.mmioReg`: its kind, and its number or word within the kind. -/
def mmioOf (x : Nat × Nat) : Option MmioReg :=
  match x.1 with
  | 0 => some (.launch (x.2 / 8 % 65536) (x.2 % 8))
  | 1 => some .sluiceCtl
  | 2 => some .fabricCfg
  | 3 => some (.cxlwin (x.2 % 8))
  | 4 => some .heatcfg
  | 5 => some .churnCfg
  | 6 => some (.churnPool (x.2 % 3 + 1))
  | 7 => some .churnQ
  | 8 => some (.partcfg (x.2 % 16))
  | 9 => some (.qovf (x.2 % 8))
  | 10 => some .dispcfg
  | 11 => some .lmigCtl
  | 12 => some (.lmigFwd (x.2 % 64))
  | 13 => some .seqcfg
  | 14 => some .syncretry
  | 15 => some (.localTool (x.2 / 2 % 4096) (x.2 % 2))
  | 16 => some (.remoteTool (x.2 / 4 % 1024) (x.2 % 4))
  | 17 => some (.corecfg x.2)
  | 18 => some (.mxmode x.2)
  | _ => none

/-- The offset of FREPLAY (R113). -/
def freplayOffset : Nat := 0x100000

/-- The offset of the image of the future table (R195). -/
def futureOffset : Nat := 0x2000000

/-- The register whose eight bytes hold the byte at an offset of the window. -/
def mmioAt (off : Nat) : Option MmioReg :=
  let o := off / 8
  if o = freplayOffset / 8 then some .freplay
  else if futureOffset / 8 ≤ o && o < futureOffset / 8 + 65536 * 8 then
    some (.future ((o - futureOffset / 8) / 8) (o % 8))
  else (Config.mmioReg (o * 8)).bind mmioOf

/-- What a read of a register returns (R9). Registers of an absent unit read zero (R22), and FREPLAY, which is written
only, does (R412). -/
def mmioValue (s : State) (r : MmioReg) : Nat :=
  match r with
  | .freplay => 0
  | .future i w => futureTabWord (s.futureAt i) w
  | .launch i w => launchTabWord (s.launchAt i) w
  | .sluiceCtl =>
    if s.part != .ny7740 then 0
    else s.fabric.berx * 2 ^ 16 + b2n s.fabric.usrlease * 4 + b2n s.fabric.starve * 2 + b2n s.fabric.frozen
  | .fabricCfg =>
    s.fabric.self * 2 ^ 50 + s.fabric.markth * 2 ^ 32 + s.fabric.sx * 2 ^ 19 + s.fabric.sy * 2 ^ 14 +
      s.fabric.sa * 2 ^ 12 + s.fabric.sb * 2 ^ 10 + b2n s.fabric.enable
  | .cxlwin n => (mget s.host.cxlwin n 0).toNat
  | .heatcfg => s.churn.heatDecay * 2 ^ 16 + s.churn.heatK * 2 + b2n s.churn.heatEn
  | .churnCfg => s.churn.fpool * 2 ^ 12 + s.churn.zreg * 2 ^ 8 + b2n s.churn.ovf * 2 + b2n s.churn.en
  | .churnPool c => (mget s.churn.pools c 0).toNat
  | .churnQ => (Config.freeWord Config.useAbsent s.sched.free).toNat
  | .partcfg n => (mget s.work.partcfg n 0).toNat
  | .qovf d => (mget s.work.qovf d 0).toNat
  | .dispcfg => s.work.age * 2 ^ 48 + s.work.predly * 2 ^ 32 + s.work.cap
  | .lmigCtl => s.work.lmigSrc * 2 ^ 48 + s.work.lmigDst * 2 ^ 32 + s.work.lmigStatus * 16
  | .lmigFwd i => (mget s.work.lmigFwd i 0).toNat
  | .seqcfg => s.agents.seqBase + b2n s.agents.seqEn
  | .syncretry => s.mgmt.syncretry
  | .localTool i w => (mget s.agents.localTool (2 * i + w) 0).toNat
  | .remoteTool i w => (mget s.agents.remoteTool (4 * i + w) 0).toNat
  | .corecfg k => if isTile s.part k then (s.coreAt k).guests else 0
  | .mxmode k => if isTile s.part k then (mxmodeImage (s.arrayAt k)).toNat else 0

/-- The event of a write to a register; none where a write is ignored (R9). -/
def mmioEvent (s : State) (r : MmioReg) (v : Word) : Option Ev :=
  match r with
  | .freplay => some (if bit v.toNat 63 then .freplayAbort (v.toNat % 2 ^ 63) else .freplayReplay (v.toNat % 2 ^ 63))
  | .future _ _ | .launch _ _ => none
  | .sluiceCtl => some (.registerWrite .sluiceCtl v)
  | .fabricCfg => some (.fabricCfgWrite v)
  | .cxlwin n => some (.cxlwinWrite n v)
  | .heatcfg => some (.heatcfgWrite v)
  | .churnCfg => some (.registerWrite .churnCfg v)
  | .churnPool c => some (.registerWrite (.churnPool c) v)
  | .churnQ =>
    -- the operation of the command block at that address (R118)
    let op := byteAt s.mem.cells (v.toNat + 7)
    some (if op = 2 then .compress v.toNat else if op = 3 then .decompress v.toNat else .migrate v.toNat)
  | .partcfg n => some (.partcfgWrite n v)
  | .qovf d => some (.qovfWrite d v)
  | .dispcfg => some (.registerWrite .dispcfg v)
  | .lmigCtl => some (.lmigGo v)
  | .lmigFwd i => if v.getLsbD 0 then some (.lmigFwdClear i) else none
  | .seqcfg => some (.registerWrite .seqcfg v)
  | .syncretry => some (.registerWrite .syncretry v)
  | .localTool i w => some (.registerWrite (.localTool i w) v)
  | .remoteTool i w => some (.registerWrite (.remoteTool i w) v)
  | .corecfg k => some (.corecfgWrite k v)
  | .mxmode k => some (.mxmodeWrite k v)

/-- What a store narrower than a register writes to the bits beside its bytes: what the register holds, and zero to bits
that a 1 would clear and to a port (notes/assumptions/14). -/
def mmioKept (s : State) (r : MmioReg) : Nat :=
  match r with
  | .churnQ | .lmigFwd _ | .freplay => 0
  | .churnCfg => mmioValue s r - b2n s.churn.ovf * 2
  | .mxmode _ => mmioValue s r % 16
  | _ => mmioValue s r

/-- The n bytes at an offset of the window, as a number: a free value where neither the spec nor `Config.mmioReg` places
a register (notes/assumptions/14). -/
def State.mmioRead (s : State) (off n : Nat) : Nat :=
  ((mmioAt off).elim (Config.freeWord Config.useAbsent s.sched.free).toNat (mmioValue s)) / 2 ^ (8 * (off % 8)) % 2 ^ (8 * n)

/-- A store of n bytes at an offset of the window: the write of its register is due at once. A store where there is no
register writes nothing (notes/assumptions/14). -/
def State.mmioWrite (s : State) (off n v : Nat) : State :=
  match mmioAt off with
  | none => s
  | some r =>
    let sh := 8 * (off % 8)
    let old := mmioKept s r
    let x := old % 2 ^ sh + v % 2 ^ (8 * n) * 2 ^ sh + old / 2 ^ (sh + 8 * n) * 2 ^ (sh + 8 * n)
    match mmioEvent s r (w64 x) with
    | some e => s.post e
    | none => s

end Sys2Proof.Machine
end

