-- ==== Sys2Proof/Machine/Flags.lean ====
section
/-! DEFINITION. The value computations shared by the meanings: integer results by width (spec 13 R313 to R317), and
floats: values, exact arithmetic and rounding (10 R254, 13 R321 to R329). The machine has no flag register. -/

namespace Sys2Proof.Machine

open Sys2Proof

/-! ## Integers -/

/-- The width N of a W code (R313). -/
def widthOf (w : BitVec 2) : Nat := if w = 0 then 64 else 32

/-- s(x): the low N bits, signed (R313). -/
def sOf (w : BitVec 2) (x : Word) : Int := if w = 0 then x.toInt else (x.truncate 32).toInt

/-- u(x): the low N bits, unsigned (R313). -/
def uOf (w : BitVec 2) (x : Word) : Nat := if w = 0 then x.toNat else (x.truncate 32).toNat

/-- fin(v): the result as placed in a register (R313). -/
def fin (w : BitVec 2) (v : Int) : Word :=
  if w = 0 then BitVec.ofInt 64 v
  else if w = 1 then (BitVec.ofInt 32 v).signExtend 64
  else (BitVec.ofInt 32 v).zeroExtend 64

/-- A condition as a register value (R318). -/
def boolWord (b : Bool) : Word := if b then 1 else 0

/-- The number of leading zeros of a number in n bits. -/
def clzN (n x : Nat) : Nat := if x = 0 then n else n - 1 - Nat.log2 x

/-- The number of trailing zeros of a number in n bits. -/
def ctzN : Nat → Nat → Nat
  | 0, _ => 0
  | n + 1, x => if x % 2 = 1 then 0 else 1 + ctzN n (x / 2)

/-- The number of one bits among the low n. -/
def popN : Nat → Nat → Nat
  | 0, _ => 0
  | n + 1, x => x % 2 + popN n (x / 2)

/-- The low n bits reversed. -/
def revN : Nat → Nat → Nat
  | 0, _ => 0
  | n + 1, x => x % 2 * 2 ^ n + revN n (x / 2)

/-- The low n bytes reversed. -/
def bswapN : Nat → Nat → Nat
  | 0, _ => 0
  | n + 1, x => x % 256 * 256 ^ n + bswapN n (x / 256)

/-- A left rotation of n bits (R315). -/
def rolN (n x c : Nat) : Nat := x * 2 ^ (c % n) % 2 ^ n + x / 2 ^ (n - c % n)

/-- Signed division truncating toward zero, with the corner of R314. -/
def divS (w : BitVec 2) (a b : Word) : Word :=
  if uOf w b = 0 then fin w (-1) else fin w (Int.tdiv (sOf w a) (sOf w b))

def divU (w : BitVec 2) (a b : Word) : Word :=
  if uOf w b = 0 then fin w (2 ^ widthOf w - 1) else fin w (uOf w a / uOf w b : Nat)

def remS (w : BitVec 2) (a b : Word) : Word :=
  if uOf w b = 0 then fin w (sOf w a) else fin w (Int.tmod (sOf w a) (sOf w b))

def remU (w : BitVec 2) (a b : Word) : Word :=
  if uOf w b = 0 then fin w (uOf w a) else fin w (uOf w a % uOf w b : Nat)

/-- The shifts of R315, with the count as an unsigned number. -/
def shlW (w : BitVec 2) (a : Word) (c : Nat) : Word := if c < widthOf w then fin w (uOf w a * 2 ^ c : Nat) else 0
def shrW (w : BitVec 2) (a : Word) (c : Nat) : Word := if c < widthOf w then fin w (uOf w a / 2 ^ c : Nat) else 0
def sarW (w : BitVec 2) (a : Word) (c : Nat) : Word :=
  if c < widthOf w then fin w (Int.fdiv (sOf w a) (2 ^ c)) else if sOf w a < 0 then fin w (-1) else 0

/-- The field descriptor of R316: position, length, sign extension. -/
def bextW (a b : Word) : Word :=
  let pos := b.toNat % 64
  let len := min (b.toNat / 256 % 128) 64
  let f := a.toNat / 2 ^ pos % 2 ^ len
  if b.toNat / 2 ^ 15 % 2 = 1 && 0 < len && f / 2 ^ (len - 1) % 2 = 1 then BitVec.ofInt 64 ((f : Int) - 2 ^ len)
  else BitVec.ofNat 64 f

def binsW (a b d : Word) : Word :=
  let pos := b.toNat % 64
  let len := min (b.toNat / 256 % 128) 64
  let m : Word := BitVec.ofNat 64 ((2 ^ len - 1) * 2 ^ pos)
  (d &&& ~~~m) ||| (BitVec.ofNat 64 (a.toNat * 2 ^ pos) &&& m)

/-! ## Float formats and values -/

/-- A binary float format: exponent bits, fraction bits, bias (R254). -/
structure Fmt where
  eb : Nat
  fb : Nat
  bias : Nat
  deriving DecidableEq, Repr

def fmtF32 : Fmt := ⟨8, 23, 127⟩
def fmtF16 : Fmt := ⟨5, 10, 15⟩
def fmtBf16 : Fmt := ⟨8, 7, 127⟩
def fmtW19 : Fmt := ⟨8, 10, 127⟩

/-- The F field codes (R321). -/
def fmtOf (f : BitVec 2) : Fmt := if f = 0 then fmtF32 else if f = 1 then fmtF16 else if f = 2 then fmtBf16 else fmtW19

/-- The number of bits of a format. -/
def Fmt.bits (f : Fmt) : Nat := 1 + f.eb + f.fb

/-- The canonical NaN (R254). -/
def Fmt.nan (f : Fmt) : Nat := (2 ^ f.eb - 1) * 2 ^ f.fb + 2 ^ (f.fb - 1)

/-- An infinity's bits. -/
def Fmt.inf (f : Fmt) (neg : Bool) : Nat := (if neg then 2 ^ (f.eb + f.fb) else 0) + (2 ^ f.eb - 1) * 2 ^ f.fb

/-- A value: a NaN, an infinity, or ±m·2^e exactly. -/
inductive FVal
  | nan
  | inf (neg : Bool)
  | num (neg : Bool) (m : Nat) (e : Int)
  deriving DecidableEq, Repr

/-- The value of the low bits of a number in a format (R254). -/
def Fmt.val (f : Fmt) (x : Nat) : FVal :=
  let s := x / 2 ^ (f.eb + f.fb) % 2 == 1
  let e := x / 2 ^ f.fb % 2 ^ f.eb
  let m := x % 2 ^ f.fb
  if e = 2 ^ f.eb - 1 then (if m = 0 then .inf s else .nan)
  else if e = 0 then .num s m (1 - (f.bias : Int) - f.fb)
  else .num s (2 ^ f.fb + m) ((e : Int) - f.bias - f.fb)

/-- Rounding modes: 0 RNE, 1 RTZ, 2 RDN, 3 RUP, 4 RNA (R299). Whether a magnitude with this discarded part rounds up:
`lo` odd, the discarded part compared with a half, and whether anything was discarded. -/
def roundsUp (rm : Nat) (neg odd : Bool) (half : Ordering) (inexact : Bool) : Bool :=
  match rm with
  | 0 => half == .gt || (half == .eq && odd)
  | 1 => false
  | 2 => neg && inexact
  | 3 => !neg && inexact
  | _ => half == .gt || half == .eq

/-- What an overflow gives (R321). -/
def Fmt.overflow (f : Fmt) (rm : Nat) (neg : Bool) : Nat :=
  let big := (if neg then 2 ^ (f.eb + f.fb) else 0) + ((2 ^ f.eb - 1) * 2 ^ f.fb - 1)
  match rm with
  | 1 => big
  | 2 => if neg then f.inf neg else big
  | 3 => if neg then big else f.inf neg
  | _ => f.inf neg

/-- round_F of ±(m + s)·2^e, where s lies strictly between 0 and 1 when `sticky` and is 0 otherwise (R321). -/
def Fmt.round (f : Fmt) (rm : Nat) (neg : Bool) (m : Nat) (e : Int) (sticky : Bool) : Nat :=
  let sgn := if neg then 2 ^ (f.eb + f.fb) else 0
  if m = 0 && !sticky then sgn
  else
    let top : Int := (Nat.log2 m : Int) + e
    let emin : Int := 1 - (f.bias : Int)
    let q : Int := (if top < emin then emin else top) - f.fb
    let sig : Nat :=
      if q ≤ e then m * 2 ^ (e - q).toNat
      else
        let sh := (q - e).toNat
        let lo := m % 2 ^ sh
        let half := if lo < 2 ^ (sh - 1) then Ordering.lt else if lo = 2 ^ (sh - 1) && !sticky then .eq else .gt
        m / 2 ^ sh + (if roundsUp rm neg (m / 2 ^ sh % 2 == 1) half (lo != 0 || sticky) then 1 else 0)
    let r : Nat := (q + f.fb + f.bias).toNat * 2 ^ f.fb + sig - 2 ^ f.fb
    if (2 ^ f.eb - 1) * 2 ^ f.fb ≤ r then f.overflow rm neg else sgn + r

/-- The bits of a value rounded to a format; NaNs are canonical. -/
def Fmt.enc (f : Fmt) (rm : Nat) : FVal → Nat
  | .nan => f.nan
  | .inf n => f.inf n
  | .num n m e => f.round rm n m e false

/-- Exact sum; an exact zero of opposite signs is +0, or −0 under RDN (R321). -/
def FVal.add (rm : Nat) : FVal → FVal → FVal
  | .nan, _ => .nan
  | _, .nan => .nan
  | .inf a, .inf b => if a = b then .inf a else .nan
  | .inf a, _ => .inf a
  | _, .inf b => .inf b
  | .num a m e, .num b n g =>
    let l := min e g
    let x := m * 2 ^ (e - l).toNat
    let y := n * 2 ^ (g - l).toNat
    if a = b then .num a (x + y) l
    else if x = y then .num (rm == 2) 0 l
    else if y < x then .num a (x - y) l else .num b (y - x) l

/-- Exact product. -/
def FVal.mul : FVal → FVal → FVal
  | .nan, _ => .nan
  | _, .nan => .nan
  | .inf a, .inf b => .inf (a != b)
  | .inf a, .num b n _ => if n = 0 then .nan else .inf (a != b)
  | .num a m _, .inf b => if m = 0 then .nan else .inf (a != b)
  | .num a m e, .num b n g => .num (a != b) (m * n) (e + g)

/-- The value negated. -/
def FVal.neg : FVal → FVal
  | .nan => .nan
  | .inf a => .inf (!a)
  | .num a m e => .num (!a) m e

/-- Exact comparison of two values that are not NaN; −0 equals +0. -/
def FVal.cmp : FVal → FVal → Ordering
  | .inf a, .inf b => if a = b then .eq else if a then .lt else .gt
  | .inf a, _ => if a then .lt else .gt
  | _, .inf b => if b then .gt else .lt
  | .num a m e, .num b n g =>
    let l := min e g
    let x : Int := (if a then -1 else 1) * (m * 2 ^ (e - l).toNat : Nat)
    let y : Int := (if b then -1 else 1) * (n * 2 ^ (g - l).toNat : Nat)
    compare x y
  | _, _ => .eq

def FVal.isNan (x : FVal) : Bool := x == .nan

/-- The sign of a value. -/
def FVal.sign : FVal → Bool
  | .nan => false
  | .inf a => a
  | .num a _ _ => a

/-- The integer square root, bit by bit from a bit number down. -/
def isqrt (n : Nat) : Nat → Nat → Nat
  | 0, r => r
  | k + 1, r => if (r + 2 ^ k) * (r + 2 ^ k) ≤ n then isqrt n k (r + 2 ^ k) else isqrt n k r

/-- round_F(x / y) (R322). -/
def Fmt.div (f : Fmt) (rm : Nat) : FVal → FVal → Nat
  | .nan, _ => f.nan
  | _, .nan => f.nan
  | .inf _, .inf _ => f.nan
  | .inf a, .num b _ _ => f.inf (a != b)
  | .num a _ _, .inf b => f.enc rm (.num (a != b) 0 0)
  | .num a m e, .num b n g =>
    if n = 0 then (if m = 0 then f.nan else f.inf (a != b))
    else
      let s := f.fb + 6 + Nat.log2 n
      let x := m * 2 ^ s
      f.round rm (a != b) (x / n) (e - g - s) (x % n != 0)

/-- round_F(√x) (R322). -/
def Fmt.sqrt (f : Fmt) (rm : Nat) : FVal → Nat
  | .nan => f.nan
  | .inf a => if a then f.nan else f.inf false
  | .num a m e =>
    if m = 0 then f.enc rm (.num a 0 0)
    else if a then f.nan
    else
      let s : Nat := 2 * (f.fb + 4) + (if e % 2 = 0 then 0 else 1)
      let x := m * 2 ^ s
      let r := isqrt x (Nat.log2 x / 2 + 1) 0
      f.round rm false r ((e - s) / 2) (r * r != x)

/-- FMIN and FMAX (R323): one operand's bits, unchanged. −0 is less than +0. -/
def Fmt.minmax (f : Fmt) (max : Bool) (a b : Nat) : Nat :=
  let a := a % 2 ^ f.bits
  let b := b % 2 ^ f.bits
  let x := f.val a
  let y := f.val b
  if x.isNan && y.isNan then f.nan
  else if x.isNan then b
  else if y.isNan then a
  else
    let less := match x.cmp y with
      | .lt => true
      | .gt => false
      | .eq => x.sign && !y.sign
    if less != max then a else b

/-- A value rounded to an integer (R328). -/
def roundInt (rm : Nat) (neg : Bool) (m : Nat) (e : Int) : Int :=
  let k : Nat :=
    if 0 ≤ e then m * 2 ^ e.toNat
    else
      let sh := (-e).toNat
      let lo := m % 2 ^ sh
      let half := if lo < 2 ^ (sh - 1) then Ordering.lt else if lo = 2 ^ (sh - 1) then .eq else .gt
      m / 2 ^ sh + (if roundsUp rm neg (m / 2 ^ sh % 2 == 1) half (lo != 0) then 1 else 0)
  if neg then -(k : Int) else k

/-- The bounds of an integer type X: 00 .i32, 01 .i64, 10 .n32, 11 .n64 (R324). -/
def intMin (x : BitVec 2) : Int := if x = 0 then -2 ^ 31 else if x = 1 then -2 ^ 63 else 0
def intMax (x : BitVec 2) : Int := if x = 0 then 2 ^ 31 - 1 else if x = 1 then 2 ^ 63 - 1 else if x = 2 then 2 ^ 32 - 1 else 2 ^ 64 - 1

/-- FCVTI (R328). -/
def floatToInt (x : BitVec 2) (rm : Nat) (v : FVal) : Word :=
  let i : Int := match v with
    | .nan => 0
    | .inf a => if a then intMin x else intMax x
    | .num a m e => roundInt rm a m e
  let i := max (intMin x) (min (intMax x) i)
  if x = 0 then (BitVec.ofInt 32 i).signExtend 64 else BitVec.ofInt 64 i

/-- ICVTF's operand (R328). -/
def intOperand (x : BitVec 2) (a : Word) : Int :=
  if x = 0 then (a.truncate 32).toInt else if x = 1 then a.toInt else if x = 2 then ((a.truncate 32).toNat : Int) else a.toNat

/-- An integer as a value. -/
def FVal.ofInt (i : Int) : FVal := .num (decide (i < 0)) i.natAbs 0

/-- FRND (R329). -/
def Fmt.rnd (f : Fmt) (rm : Nat) (a : Nat) : Nat :=
  match f.val a with
  | .nan => f.nan
  | .inf n => f.inf n
  | .num n m e => if m = 0 || 0 ≤ e then a % 2 ^ f.bits else f.enc rm (.num n (roundInt rm n m e).natAbs 0)

/-- FCLASS (R326). -/
def Fmt.cls (f : Fmt) (a : Nat) : Nat :=
  let s := a / 2 ^ (f.eb + f.fb) % 2 == 1
  let e := a / 2 ^ f.fb % 2 ^ f.eb
  let m := a % 2 ^ f.fb
  if e = 2 ^ f.eb - 1 then
    (if m = 0 then (if s then 1 else 128) else if m / 2 ^ (f.fb - 1) = 0 then 256 else 512)
  else if e = 0 then (if m = 0 then (if s then 8 else 16) else if s then 4 else 32)
  else if s then 2 else 64

end Sys2Proof.Machine
end

