-- ==== Sys2Proof/Machine/Operands.lean ====
section
/-! DEFINITION. Issue: the operand forms, the order of traps, parking, and how results are written
(spec 09 R221 to R228, 12 R304, 16 R387, R388). -/

namespace Sys2Proof.Machine

open Sys2Proof

/-- The outcome of a step. -/
abbrev Res := Host.Outcome State Fault Refusal

/-- What a read of a register finds at issue (R225, R226). -/
inductive RegView
  | val (v : Word)
  | wait
  | empty
  | expired
  deriving DecidableEq, Repr

/-- The latch bound to a register. -/
def Slot.latch? (sl : Slot) (r : Nat) : Option Latch := sl.latches.find? (fun l => l.reg == r)

/-- Reads a register at issue: a transient first, then a multi-rotation result in flight, of which a read in its
latency returns the old value or the new one (R221, notes/assumptions/8), then the register. -/
def State.view (s : State) (sl : Slot) (r : Nat) : RegView :=
  if r = 0 then .val 0
  else if sl.expired.getLsbD r then .expired
  else match sl.latch? r with
    | some l => if s.now - l.at_ ≤ 64 then .val l.val else .expired
    | none =>
      match sl.late.find? (fun l => l.reg == r), s.choice (Config.useLateRead + 64 * r) with
      | some l, true => .val l.val
      | _, _ =>
        if (sl.cell r).full then .val (sl.cell r).val else if (sl.cell r).pend then .wait else .empty

/-- The value of a view, when there is one. -/
def RegView.val? : RegView → Option Word
  | .val v => some v
  | _ => none

/-- What an instruction demands at issue: its sources, whether a and b are read synchronisingly, a plain read of d, a
run of plain reads, and the registers it writes. -/
structure Demand where
  a : Option (Nat × Bool)
  b : Option (Nat × Bool)
  d : Option Nat
  run : List Nat
  dests : List Nat
  deriving DecidableEq, Repr

/-- No demand. -/
def noDemand : Demand := ⟨none, none, none, [], []⟩

/-- Every register named (R223). -/
def Demand.names (m : Demand) : List Nat :=
  (m.a.map (·.1)).toList ++ (m.b.map (·.1)).toList ++ m.d.toList ++ m.run ++ m.dests

/-- The sources in the order a, b, d of R304, then the run. -/
def Demand.reads (m : Demand) : List Nat :=
  (m.a.map (·.1)).toList ++ (m.b.map (·.1)).toList ++ m.d.toList ++ m.run

/-- The readable value of a source. -/
def State.peek (s : State) (sl : Slot) (r : Option Nat) : Option Word := r.bind (fun r => (s.view sl r).val?)

-- Trap causes (R415).
def trapIllegal : Nat := 0x01
def trapOperand : Nat := 0x02
def trapZero : Nat := 0x03
def trapFetch : Nat := 0x04
def trapPriv : Nat := 0x05
def trapAbsent : Nat := 0x06
def trapOrdered : Nat := 0x07
def trapTarget : Nat := 0x08
def trapEmpty : Nat := 0x09
def trapExpired : Nat := 0x0A
def trapQuiet : Nat := 0x0B
def trapMemory : Nat := 0x0C
def trapPoison : Nat := 0x0D
def trapMiss : Nat := 0x0E
def trapNoroute : Nat := 0x0F
def trapSoftware : Nat := 0x10
def trapBreak : Nat := 0x11

/-- The instruction word as TVAL. -/
def State.irWord (s : State) : Word := s.sched.ir.word.zeroExtend 64

/-- A trap at the instruction whose TVAL is its word. -/
def State.trapHere (s : State) (cause sub : Nat) : Trap := ⟨cause, sub, s.irWord, s.sched.ir.pc⟩

/-- The illegal-operand trap at the instruction (R415). -/
def State.badOperand (s : State) : Trap := s.trapHere trapOperand 0

/-- The illegal-operand trap of an address that is not a multiple of the access size (R337). -/
def State.misaligned (s : State) (ea : Option Word) (n : Nat) : Option Trap :=
  ea.bind (fun ea => if ea.toNat % n != 0 then some s.badOperand else none)

/-- The trap a source raises: empty-read or expired-transient (R304 point 9). -/
def State.readTrap (s : State) (sl : Slot) (r : Nat) : Option Trap :=
  match s.view sl r with
  | .empty => some ⟨trapEmpty, 0, w64 r, s.sched.ir.pc⟩
  | .expired => some ⟨trapExpired, 0, w64 r, s.sched.ir.pc⟩
  | _ => none

/-- The values a check may look at: those of the readable sources. -/
structure Seen where
  a : Option Word
  b : Option Word
  d : Option Word
  run : List (Option Word)
  deriving DecidableEq, Repr

/-- What is readable of a demand. -/
def State.seen (s : State) (sl : Slot) (m : Demand) : Seen :=
  ⟨s.peek sl (m.a.map (·.1)), s.peek sl (m.b.map (·.1)), s.peek sl m.d, m.run.map (fun r => (s.view sl r).val?)⟩

/-- The first trap of R304 from point 7 on: a register beyond the allocation, the instruction's own operand checks in
their order, then an empty or expired source. -/
def State.demandTrap (s : State) (m : Demand) (checks : Seen → Option Trap) : Option Trap :=
  let sl := s.me
  if m.names.any (fun r => decide (sl.task.nregs ≤ r)) then some s.badOperand
  else match checks (s.seen sl m) with
    | some t => some t
    | none => m.reads.findSome? (s.readTrap sl)

/-- Whether the instruction parks: a source is empty with a write pending, or a destination has a write pending
(R224, R225). -/
def State.demandWaits (s : State) (m : Demand) : Bool :=
  let sl := s.me
  m.reads.any (fun r => s.view sl r == .wait) || m.dests.any (fun r => (sl.cell r).pend)

/-- The value of a source; zero where it is not readable. -/
def State.value (s : State) (sl : Slot) (r : Nat) : Word := (s.view sl r).val?.getD 0

/-- Makes a synchronisingly read register empty (R225). -/
def Slot.take (sl : Slot) (r : Option (Nat × Bool)) : Slot :=
  match r with
  | some (r, true) =>
    if r = 0 || (sl.latch? r).isSome then sl else { sl with regs := mput sl.regs r { sl.cell r with full := false } }
  | _ => sl

/-- The operand values of an instruction that issues. -/
structure Vals where
  a : Word
  b : Word
  d : Word
  run : List Word
  deriving DecidableEq, Repr

/-- The values a demand reads. -/
def State.vals (s : State) (m : Demand) : Vals :=
  let sl := s.me
  ⟨(m.a.map (fun r => s.value sl r.1)).getD 0, (m.b.map (fun r => s.value sl r.1)).getD 0,
   (m.d.map (s.value sl)).getD 0, m.run.map (s.value sl)⟩

/-- The issuing slot once its synchronising reads are made. -/
def State.taken (s : State) (m : Demand) : Slot := (s.me.take m.a).take m.b

/-- Issues an instruction: it traps, it parks or loses its turn (the state stays), or it goes on with its values. -/
def issue (s : State) (m : Demand) (checks : Seen → Option Trap) (k : Vals → Slot → Res) : Res :=
  match s.demandTrap m checks with
  | some t => .next (s.raise s.sched.cur t)
  | none => if s.demandWaits m then .next s else k (s.vals m) (s.taken m)

/-- No checks of its own. -/
def noChecks : Seen → Option Trap := fun _ => none

/-- An ordinary write of a result; against a multi-rotation result in flight to the same register, either value may
remain (R221, notes/assumptions/8). -/
def State.writeG (s : State) (sl : Slot) (r : Nat) (v : Word) : Slot :=
  let sl := if sl.late.any (fun l => l.reg == r) && s.choice (Config.useLateWrite + 64 * r)
    then { sl with late := sl.late.filter (fun l => l.reg != r) } else sl
  sl.setG r v

/-- A result, transient or ordinary (R226). -/
def State.writeT (s : State) (sl : Slot) (r : Nat) (t : Bool) (v : Word) : Slot :=
  if t then sl.setLatch r v s.now else s.writeG sl r v

/-! ## Operand forms -/

/-- The demand of a three-register instruction; `third` says that d is read as a source. -/
def demand3 (o : Ops3) (third : Bool) : Demand :=
  ⟨some (o.a.toNat, o.sa), some (o.b.toNat, o.sb), if third then some o.d.toNat else none, [],
   if o.t then [] else [o.d.toNat]⟩

/-- The registers a transient destination names are checked too. -/
def checkDest (s : State) (d : Reg) : Seen → Option Trap :=
  fun _ => if s.me.task.nregs ≤ d.toNat then some s.badOperand else none

/-- A one-rotation instruction with two sources (R221). -/
def alu3 (o : Ops3) (third : Bool) (f : Word → Word → Word → Word) (s : State) : Res :=
  issue s (demand3 o third) (checkDest s o.d) (fun v sl =>
    .next (s.retire (s.writeT sl o.d.toNat o.t (f v.a v.b v.d))))

/-- The demand of a one-source instruction. -/
def demand2 (o : Ops2) : Demand :=
  ⟨some (o.a.toNat, o.sa), none, none, [], if o.t then [] else [o.d.toNat]⟩

/-- A one-rotation instruction with one source. -/
def alu2 (o : Ops2) (f : Word → Word) (s : State) : Res :=
  issue s (demand2 o) (checkDest s o.d) (fun v sl =>
    .next (s.retire (s.writeT sl o.d.toNat o.t (f v.a))))

/-- The demand of a GI instruction. -/
def giDemand (d a : Reg) (sa : Bool) : Demand := ⟨some (a.toNat, sa), none, none, [], [d.toNat]⟩

/-- A one-rotation instruction with an immediate (R319). -/
def aluI (d a : Reg) (sa : Bool) (f : Word → Word) (s : State) : Res :=
  issue s (giDemand d a sa) noChecks (fun v sl => .next (s.retire (s.writeG sl d.toNat (f v.a))))

/-- A result that is written after a latency of some rotations (R221); a transient destination takes the
illegal-operand trap (R226). The result is written by the MULTI_ROTATION_RESULT event. -/
def aluLate (d : Reg) (m : Demand) (t : Bool) (rotations : Nat) (f : Word → Word → Word) (s : State) : Res :=
  issue s m (fun _ => if t || s.me.task.nregs ≤ d.toNat then some s.badOperand else none) (fun v sl =>
    let sl := if sl.late.any (fun l => l.reg == d.toNat) && s.choice (Config.useLateWrite + 64 * d.toNat)
      then { sl with late := sl.late.filter (fun l => l.reg != d.toNat) } else sl
    let sl := if d = 0 then sl else { sl with late := sl.late ++ [⟨d.toNat, f v.a v.b, s.now + 16 * rotations⟩] }
    .next ((s.retire sl).after (16 * rotations) (.multiRotationResult s.sched.cur)))

/-! ## Levels, ordered tasks, unit-absent -/

/-- The trap of a privileged instruction at user level (R304 point 5). -/
def State.privTrap (s : State) : Option Trap := if s.me.sup then none else some (s.trapHere trapPriv 0)

/-- Whether the issuing task is ordered; handler tasks are plain (R164). -/
def State.ordered (s : State) : Bool := s.me.task.ord

/-- The ordered-violation trap with a subcode, in an ordered task (R165). -/
def State.ordTrap (s : State) (sub : Nat) : Option Trap := if s.ordered then some (s.trapHere trapOrdered sub) else none

/-- The traps of points 4 to 6, in order, before the operands are examined. -/
def firstTrap : List (Option Trap) → Option Trap
  | [] => none
  | some t :: _ => some t
  | none :: l => firstTrap l

/-- Issues an instruction that first meets traps of points 4 to 6 of R304. -/
def issueAfter (s : State) (pre : List (Option Trap)) (m : Demand) (checks : Seen → Option Trap)
    (k : Vals → Slot → Res) : Res :=
  match firstTrap pre with
  | some t => .next (s.raise s.sched.cur t)
  | none => issue s m checks k

/-! ## Migration (03 R62, R63, 09 R228, R229) -/

/-- SENT of a sender's cluster or of the dock groups in an ordered launch, in the current colour, and the lowest key
sent since the flip (R179, R180). -/
def State.countSent (s : State) (k : Nat) (part : Nat) (key : Nat) : State :=
  if isTile s.part k then
    let cl := clusterOf k
    let c := s.cluster cl
    let n := if c.colour then (c.sent.1, c.sent.2 + 1) else (c.sent.1 + 1, c.sent.2)
    s.setCluster cl { c with sent := n, minSent := min c.minSent key }
  else match mget? s.work.ordered part with
    | none => s
    | some o =>
      let n := if o.dockColour then (o.dockSent.1, o.dockSent.2 + 1) else (o.dockSent.1 + 1, o.dockSent.2)
      s.setWork { s.work with ordered := mput s.work.ordered part { o with dockSent := n, dockMin := min o.dockMin key } }

/-- The colour current at a sender (R179). -/
def State.colourAt (s : State) (k part : Nat) : Bool :=
  if isTile s.part k then (s.cluster (clusterOf k)).colour
  else (mget? s.work.ordered part).elim false Ordered.dockColour

/-- RECV of a packet that carries a colour (R179). -/
def State.countRecv (s : State) (k : Nat) (part : Nat) (colour : Bool) : State :=
  if isTile s.part k then
    let cl := clusterOf k
    let c := s.cluster cl
    let n := if colour then (c.recv.1, c.recv.2 + 1) else (c.recv.1 + 1, c.recv.2)
    s.setCluster cl { c with recv := n }
  else match mget? s.work.ordered part with
    | none => s
    | some o =>
      let n := if colour then (o.dockRecv.1, o.dockRecv.2 + 1) else (o.dockRecv.1 + 1, o.dockRecv.2)
      s.setWork { s.work with ordered := mput s.work.ordered part { o with dockRecv := n } }

/-- Whether the conditions of R228 hold, so that a migrant packet may leave. -/
def Slot.mayLeave (sl : Slot) : Bool := !sl.anyPend && sl.late.isEmpty && sl.outst == 0 && sl.quiet && sl.posted == 0

/-- The nest word fields of the tail (R229). -/
def nestBits (t : Task) : Nat :=
  match t.nest with
  | none => 0
  | some (cl, n, p) => 2 ^ 63 + cl % 1024 * 2 ^ 53 + n % 16 * 2 ^ 49 + p % 256 * 2 ^ 41

/-- The migrant packet of a slot (R229); a pointer that was lost and not set since stays lost (notes/assumptions/89). -/
def migrantOf (s : State) (id : SlotId) (sl : Slot) (pc : Word) (home : Nat) (addr : Option Nat) : Migrant :=
  let t := sl.task
  let fe := (List.range 32).foldl (fun n i => n + (if (sl.cell i).full then 2 ^ (32 + i) else 0)) 0
  let pl := (List.range 4).foldl (fun n i => n + (if mget sl.p i 0 != 0 || sl.plost.getLsbD i then 2 ^ (28 + i) else 0)) 0
  { src := gcid s id.core, slot := id.slot, home := home, addr := addr, reserve := false,
    colour := s.colourAt id.core (s.partOfTask t), part := s.partOfTask t, sent := s.now,
    h0 := w64 (t.regs.toNat * 2 ^ 62 + b2n sl.sup * 2 ^ 61 + b2n t.ord * 2 ^ 60 + t.prio.toNat * 2 ^ 58 +
      pc.toNat % 2 ^ 54),
    h1 := w64 (t.launch % 65536 * 2 ^ 48 + t.job % 65536 * 2 ^ 32 + t.dcore % 2 ^ 30),
    regs := (List.range t.nregs).map (fun i => if (sl.cell i).full then sl.g i else 0),
    t0 := w64 (fe + pl + (if t.tfmt = 0 then 0 else 2 ^ 27 + t.tfi % 4 * 2 ^ 25) + t.tscl.toNat * 2 ^ 9),
    t1 := w64 (nestBits t + t.spec % 64 * 2 ^ 35 + t.sgen.toNat * 2 ^ 27) }

/-- What a request awaits: the registers that became pending or for which the slot is parked, and the counts of requests that
rose (64 for q4, 65 for q5, 66 for RECVs). -/
def awaitedBy (was sl : Slot) : List Nat :=
  (List.range 32).filter (fun i => (sl.cell i).pend && !(was.cell i).pend) ++
    (if sl.st == .waiting && sl.wreg != 0 then [sl.wreg] else []) ++
    (if was.q4 < sl.q4 then [64] else []) ++ (if was.q5 < sl.q5 then [65] else []) ++
    (if was.recvs < sl.recvs then [66] else [])

/-- A request to a unit of the module that holds the issuing task's dispatching core, from a guest elsewhere: it carries the
operands, here as the guest's registers (notes/assumptions/91). -/
def State.askHome (s : State) (sl : Slot) : State :=
  let was := s.me.latches.foldl (fun a l => a.setG l.reg l.val) s.me
  let t := sl.task
  (s.setMe sl).ask 1 (modOf t.dcore) (coreOf t.dcore) s.here s.sched.cur.slot (s.partOfTask t) t.launch
    (.request ⟨s.sched.ir.word, awaitedBy s.me sl, migrantOf s s.sched.cur was s.sched.ir.pc t.dcore none⟩)

/-- A migrant packet leaves for its destination: inside the module for its home core, or by the fabric (R62). -/
def State.sendMigrant (s : State) (id : SlotId) (m : Migrant) (launch : Nat) : State :=
  if modOf m.home = s.fabric.self then s.send (srcKey id.core id.slot) (coreOf m.home) (.migrantArrival m)
  else s.ask 3 (modOf m.home) (m.addr.getD 0) id.core id.slot m.part launch (.migrant m)

/-- Sends the slot's thread to a core of a module, or for an access to the home of an address there; the slot is away until
MACK or MNAK (R62, R63). -/
def State.migrate (s : State) (id : SlotId) (pc : Word) (mod home : Nat) (addr : Option Nat) : State :=
  let sl := s.slotAt id
  let m := migrantOf s id sl pc (mod * 65536 + home) addr
  let s := s.setSlot id { sl.expireAll with st := .away, mack := some m, mnaks := 0, pc := pc }
  let s := if sl.task.ord then s.countSent id.core (s.partOfTask sl.task) (keyOfPacket sl.task.pkt) else s
  s.sendMigrant id m sl.task.launch

/-- A thread elsewhere first returns to its dispatching core (R228): it traps while in a trap (R414), waits for the
conditions of R228, and then leaves. -/
def State.goHome (s : State) : Res :=
  let sl := s.me
  if sl.intrap then .next (s.raise s.sched.cur s.badOperand)
  else if sl.mayLeave then .next (s.migrate s.sched.cur s.sched.ir.pc (modOf sl.task.dcore) (coreOf sl.task.dcore) none)
  else .next s

/-- Whether the thread runs on its dispatching core. -/
def State.onDcore (s : State) : Bool := s.me.task.dcore == gcid s s.here

/-- Runs on the dispatching core: elsewhere the thread first returns there (R228). -/
def onHome (s : State) (r : Res) : Res := if s.onDcore then r else s.goHome

/-! ## Waiting for the slot's own earlier accesses -/

/-- Whether the slot has scratchpad writes that are not yet performed (R232). -/
def State.scrPending (s : State) : Bool := (s.coreAt s.here).writes.any (fun w => w.slot == s.sched.cur.slot)

/-- The steps of R266 at core scope: posted count zero and scratchpad writes performed. -/
def State.coreRelease (s : State) : Bool := s.me.posted == 0 && !s.scrPending

/-- Whether a later access of the slot loses its turns: results of accesses sent without migration are outstanding, or
an acquire is not complete (R338, R343, R352). -/
def State.mustWait (s : State) : Bool := s.me.outst != 0 || s.me.acq.isSome

/-- Whether memory, scratchpad, queue and stream instructions lose their turns behind an acquire (R343). -/
def State.acqWait (s : State) : Bool := s.me.acq.isSome

end Sys2Proof.Machine
end

