-- ==== Sys2Proof/Machine/Spec.lean ====
section
/-! DEFINITION. The row sets and the log of ordered tasks (spec 07 R168, R169, R172 to R174), and a scratchpad as its
core sees it (09 R231, R232). -/

namespace Sys2Proof.Machine

open Sys2Proof

/-! ## Scratchpad bytes -/

/-- n bytes of a core's scratchpad at an offset. -/
def State.scrBytes (s : State) (k off n : Nat) : List Byte := bytesAt s.mem.cells (scrPa k off) n

/-- A row as it will stand once every write on its way is performed. -/
def State.rowImage (s : State) (k row : Nat) : List Byte :=
  bytesAt ((s.coreAt k).writes.foldl (fun m w => setBytes m (scrPa k w.off) w.data) s.mem.cells) (scrPa k (64 * row)) 64

/-- One byte of a scratchpad as it will stand once every write on its way is performed. -/
def State.scrSettled (s : State) (k off : Nat) : Byte :=
  byteAt ((s.coreAt k).writes.foldl (fun m w => setBytes m (scrPa k w.off) w.data) s.mem.cells) (scrPa k off)

/-- Writes scratchpad bytes at once: an engine's or another core's write (R232). -/
def State.scrPut (s : State) (k off : Nat) (l : List Byte) : State :=
  s.setMem { s.mem with cells := setBytes s.mem.cells (scrPa k off) l }

/-- A scratchpad write of a slot, on its way to its bank (R232). -/
def State.scrWrite (s : State) (k slot off : Nat) (l : List Byte) (clean : Option Nat) : State :=
  let c := s.coreAt k
  s.setCore k { c with writes := c.writes ++ [⟨s.now + 4, slot, off, l, clean⟩] }

/-- The scratchpad writes of a core that are due are performed, in issue order (R232). -/
def State.flushWrites (s : State) (k : Nat) : State :=
  let c := s.coreAt k
  let due := c.writes.filter (fun w => decide (w.due ≤ s.now))
  let cells := due.foldl (fun m w => setBytes m (scrPa k w.off) w.data) s.mem.cells
  let c1 := due.foldl (fun c w => match w.clean with
    | some r => c.setRow r { c.row r with poison := false }
    | none => c) { c with writes := c.writes.filter (fun w => !decide (w.due ≤ s.now)) }
  (s.setMem { s.mem with cells := cells }).setCore k c1

/-- The writes to c0 to c7 that are due take effect in issue order (R227). -/
def State.flushC (s : State) (k : Nat) : State :=
  let c := s.coreAt k
  let due := c.cWrites.filter (fun w => decide (w.due ≤ s.now))
  let cs := due.foldl (fun m w => mput m w.n w.val) c.c
  s.setCore k { c with c := cs, cWrites := c.cWrites.filter (fun w => !decide (w.due ≤ s.now)) }

/-! ## The log (R172, R173) -/

/-- The ordered launch of a partition. -/
def State.orderedOf (s : State) (part : Nat) : Option Ordered := mget? s.work.ordered part

/-- The rows of the log region (R162). -/
def inLog (o : Ordered) (row : Nat) : Bool := o.lfirst ≤ row && row < o.lfirst + o.nlog + o.nlog / 8

/-- The tag of a log entry (R172). -/
def logTag (e : LogEnt) : Nat :=
  let body := match e.kind with
    | .rowImg row _ fe psn => row * 2 ^ 51 + b2n fe * 2 ^ 44 + b2n psn * 2 ^ 43
    | .child _ _ => 1 * 2 ^ 61
    | .dstore l => 2 * 2 ^ 61 + l.length * 2 ^ 40
    | .irrev l => 3 * 2 ^ 61 + l.length * 2 ^ 40
  2 ^ 63 + body + e.spec % 64 * 2 ^ 45 + e.ordn % 2 ^ 32

/-- The eight words of a packet as bytes. -/
def packetBytes (p : Words8) : List Byte :=
  natBytes 8 p.w0.toNat ++ natBytes 8 p.w1.toNat ++ natBytes 8 p.w2.toNat ++ natBytes 8 p.w3.toNat ++
  natBytes 8 p.w4.toNat ++ natBytes 8 p.w5.toNat ++ natBytes 8 p.w6.toNat ++ natBytes 8 p.w7.toNat

/-- A packet from 64 bytes. -/
def packetOf (l : List Byte) : Words8 :=
  let w (i : Nat) : Word := w64 (bytesNat ((l.drop (8 * i)).take 8))
  ⟨w 0, w 1, w 2, w 3, w 4, w 5, w 6, w 7⟩

/-- The image row of a log entry (R172, R173). -/
def logImage : LogKind → List Byte
  | .rowImg _ l _ _ => l
  | .child p _ => packetBytes p
  | .dstore l => l.flatMap (fun r => natBytes 8 r.1.toNat ++ natBytes 8 r.2.toNat)
  | .irrev l => l.flatMap (fun r => natBytes 8 r.1.toNat ++ natBytes 8 r.2.1.toNat ++ natBytes 8 r.2.2.1.toNat ++
      natBytes 8 r.2.2.2.toNat)

/-- The lowest free index of a log (R172). -/
def freeIdx (log : List LogEnt) : Nat → Nat → Option Nat
  | _, 0 => none
  | i, n + 1 => if log.any (fun e => e.idx == i) then freeIdx log (i + 1) n else some i

/-- Writes a log entry and its rows in the scratchpad. -/
def State.logStore (s : State) (k : Nat) (o : Ordered) (e : LogEnt) : State :=
  let c := s.coreAt k
  let s := s.setCore k { c with log := c.log.filter (fun x => x.idx != e.idx) ++ [e] }
  let s := s.scrPut k (64 * (o.lfirst + e.idx)) (logImage e.kind)
  s.scrPut k (64 * (o.lfirst + o.nlog) + 8 * e.idx) (natBytes 8 (logTag e))

/-- What taking a log entry comes to (R174). -/
inductive LogRes
  | ok (s : State)
  | wait (s : State)
  | unlogged (s : State)
  deriving DecidableEq, Repr

/-- The uncommitted task with log entries and the highest key, other than the one named. -/
def topHolder (c : Core) (spec : Nat) : Option Nat :=
  ((c.spec.filter (fun x => x.1 != spec && x.2.st != .committing && c.log.any (fun e => e.spec == x.1))).foldl
    (fun (best : Option (Nat × Nat)) x => match best with
      | none => some (x.1, x.2.key)
      | some (i, k) => if k < x.2.key then some (x.1, x.2.key) else some (i, k)) none).map (·.1)

/-- Starts a rollback of tasks of a core, unless one is under way there: what finds a conflict waits and finds it again (R170). -/
def State.rollBack (s : State) (k : Nat) (vs : List Nat) : State :=
  let mine (e : Ev) : Bool := match e with
    | .rollBack c _ => c == k
    | _ => false
  if s.sched.inbox.any mine || s.sched.timers.any (fun t => mine t.ev) then s else s.post (.rollBack k vs)

/-- Takes a log entry for a task (R173), or does as R174 states when none is free. -/
def State.takeLog (s : State) (k : Nat) (o : Ordered) (spec : Nat) (kind : LogKind) : LogRes :=
  let c := s.coreAt k
  match freeIdx c.log 0 o.nlog with
  | some i =>
    let e : LogEnt := ⟨i, spec, c.ordn, kind⟩
    .ok ((s.setCore k { c with ordn := (c.ordn + 1) % 2 ^ 32 }).logStore k o e)
  | none =>
    match mget? c.spec spec with
    | none => .wait s
    | some me =>
      if c.levee == some me.key then
        match topHolder c spec with
        | some v => .wait (s.rollBack k [v])
        | none => if c.log.any (fun e => e.spec != spec) then .wait s else .unlogged s
      else .wait s

/-! ## Row sets (R168, R169) -/

/-- Bit r of a row set. -/
def rowBit (r : Nat) : BitVec 768 := 1#768 <<< r

/-- The tasks of higher key that an access to a row conflicts with (R169). -/
def rowConflicts (c : Core) (spec key row : Nat) (write : Bool) : List Nat :=
  (c.spec.filter (fun x => x.1 != spec && decide (key < x.2.key) &&
    (x.2.wset.getLsbD row || (write && x.2.rset.getLsbD row)))).map (·.1)

/-- An access by an ordered task of core k to a row: conflicts are rolled back first, a first write takes a ROWIMG
entry, and the row enters the set (R168, R169, R173, R174). -/
def State.touchRow (s : State) (k spec row : Nat) (part : Nat) (write : Bool) : LogRes :=
  let c := s.coreAt k
  match mget? c.spec spec, s.orderedOf part with
  | some me, some o =>
    if inLog o row then .ok s
    else match rowConflicts c spec me.key row write with
      | v :: vs => .wait (s.rollBack k (v :: vs))
      | [] =>
        let enter (s : State) : State :=
          let c := s.coreAt k
          match mget? c.spec spec with
          | none => s
          | some me =>
            let me := if write then { me with wset := me.wset ||| rowBit row } else { me with rset := me.rset ||| rowBit row }
            s.setCore k { c with spec := mput c.spec spec me }
        if write && !me.wset.getLsbD row then
          let t := c.row row
          match s.takeLog k o spec (.rowImg row (s.rowImage k row) t.full t.poison) with
          | .ok s => .ok (enter s)
          | .unlogged s => .ok (enter s)
          | .wait s => .wait s
        else .ok (enter s)
  | _, _ => .ok s

/-- The tasks that an access to several rows conflicts with (R169); the rows of the log conflict with nothing. -/
def allConflicts (s : State) (k spec part : Nat) (l : List (Nat × Bool)) : List Nat :=
  match mget? (s.coreAt k).spec spec, s.orderedOf part with
  | some me, some o =>
    (l.flatMap (fun x => if inLog o x.1 then [] else rowConflicts (s.coreAt k) spec me.key x.1 x.2)).foldl numIns []
  | _, _ => []

/-- The rows of an access by an ordered task of core k, one after the other. -/
def State.enterRows (s : State) (k spec part : Nat) : List (Nat × Bool) → LogRes
  | [] => .ok s
  | (r, w) :: l => match s.touchRow k spec r part w with
    | .ok s => s.enterRows k spec part l
    | x => x

/-- An access by an ordered task of core k to several rows (row, write): the conflicts of all of them make one rollback
(R170), and all rows are entered before the access runs. -/
def State.touchAll (s : State) (k spec part : Nat) (l : List (Nat × Bool)) : LogRes :=
  match allConflicts s k spec part l with
  | [] => s.enterRows k spec part l
  | vs => .wait (s.rollBack k vs)

/-- The row accesses of a slot's task, which are entered when it is ordered. -/
def State.touchRows (s : State) (id : SlotId) (l : List (Nat × Bool)) : LogRes :=
  let t := (s.slotAt id).task
  if !t.ord then .ok s else s.touchAll (coreOf t.dcore) t.spec (s.partOf t.launch) l

/-! ## Access to own rows: vector unit, empty and poisoned rows (R231, R233) -/

/-- Whether the vector unit of a core is busy on this cycle. -/
def State.vuBusy (s : State) (k : Nat) : Bool := s.now < (s.coreAt k).vuBusy

/-- Occupies the vector unit of a core. -/
def State.occupy (s : State) (k n : Nat) : State :=
  let c := s.coreAt k
  s.setCore k { c with vuBusy := s.now + n }

/-- The poison trap of a row (R415). -/
def State.rowPoison (s : State) (r : Nat) : Trap := ⟨trapPoison, 0, w64 r, s.sched.ir.pc⟩

/-- A scratchpad access by the issuing slot on its dispatching core: it loses its turn while the vector unit is busy
(R233), parks on an empty row it reads (R231), takes the data-poison trap on a poisoned row it reads, enters the rows
into an ordered task's sets (R168), and then goes on. -/
def scrAccess (s : State) (reads writes : List Nat) (cost : Nat) (k : State → Res) : Res :=
  let c := s.coreAt s.here
  if s.vuBusy s.here then .next s
  else if reads.any (fun r => !(c.row r).full) then .next s
  else match reads.find? (fun r => (c.row r).poison) with
    | some r => .next (s.raise s.sched.cur (s.rowPoison r))
    | none =>
      match s.touchRows s.sched.cur (reads.map (·, false) ++ writes.map (·, true)) with
      | .ok s => k (s.occupy s.here cost)
      | .wait s => .next s
      | .unlogged s => .next s

end Sys2Proof.Machine
end

