-- ==== Sys2Proof/Machine/Access.lean ====
section
/-! DEFINITION. Global accesses: what is performed at a home, where an access runs, cluster caches, faults at issue
(spec 05 R102 to R114, 11 R259 to R277, 14 R336 to R359). -/

namespace Sys2Proof.Machine

open Sys2Proof

/-! ## What an access is -/

/-- The access size in bytes (R337). -/
def opSize : Perform → Nat
  | .load f => 2 ^ (f.toNat % 4)
  | .store n _ => n
  | .fill _ | .tagWrite _ | .syncRead | .syncWrite _ | .tagRead | .await | .cas _ _ => 8
  | .red _ ty _ => if ty.toNat < 2 then 4 else 8
  | .amo _ w _ => if w = 3 then 8 else 4
  | .cas2 _ _ _ _ => 16
  | .barrier _ _ => 32
  | .line _ => 64

/-- What it needs of the leaf (R105). -/
def opNeed : Perform → Need
  | .load _ | .syncRead | .tagRead | .await | .line none => .read
  | .store _ _ | .fill _ | .tagWrite _ | .red _ _ _ | .syncWrite _ | .line (some _) => .write
  | .amo _ _ _ | .cas _ _ | .cas2 _ _ _ _ | .barrier _ _ => .both

/-- Its access code in a fault record (R111). -/
def opCode : Perform → Nat
  | .load _ | .syncRead | .tagRead => accLoad
  | .store _ _ | .fill _ | .tagWrite _ | .syncWrite _ => accStore
  | .red _ _ _ => accRed
  | .amo _ _ _ | .cas _ _ | .cas2 _ _ _ _ | .barrier _ _ => accAtomic
  | .await => accFoot
  | .line none => accCopyRead
  | .line (some _) => accCopyWrite

/-- Whether it is posted when its home is elsewhere (R338). -/
def opPosted : Perform → Bool
  | .store _ _ | .fill _ | .tagWrite _ | .red _ _ _ => true
  | _ => false

/-- Whether it uses the full/empty tag (R272). -/
def opTagged : Perform → Bool
  | .fill _ => true
  | .tagWrite _ => true
  | .syncRead => true
  | .syncWrite _ => true
  | .tagRead => true
  | .await => true
  | .load _ => false
  | .store _ _ => false
  | .red _ _ _ => false
  | .amo _ _ _ => false
  | .cas _ _ => false
  | .cas2 _ _ _ _ => false
  | .barrier _ _ => false
  | .line _ => false

/-- Whether poison stops it (R231, R275, R415). -/
def opReads : Perform → Bool
  | .load _ | .syncRead | .amo _ _ _ | .cas _ _ | .cas2 _ _ _ _ => true
  | _ => false

/-- log2 of a size. -/
def log2Size (n : Nat) : Nat := Nat.log2 n

/-! ## Values at a home -/

/-- A loaded value, extended by func3 (R340). -/
def extendLoad (f : BitVec 3) (n : Nat) : Word :=
  if f = 0 then (BitVec.ofNat 8 n).signExtend 64
  else if f = 1 then (BitVec.ofNat 16 n).signExtend 64
  else if f = 2 then (BitVec.ofNat 32 n).signExtend 64
  else w64 n

/-- An atomic or reduction operation on N-bit values: 0 ADD, 1 AND, 2 OR, 3 XOR, 4 MIN, 5 MAX, 6 MINN, 7 MAXN, 8 SWAP
(R349, R350). -/
def amoOp (op n : Nat) (w x : Nat) : Nat :=
  let w := w % 2 ^ n
  let x := x % 2 ^ n
  let sgn (v : Nat) : Int := if v < 2 ^ (n - 1) then v else (v : Int) - 2 ^ n
  match op with
  | 0 => (w + x) % 2 ^ n
  | 1 => w &&& x
  | 2 => w ||| x
  | 3 => w ^^^ x
  | 4 => if sgn w ≤ sgn x then w else x
  | 5 => if sgn w ≤ sgn x then x else w
  | 6 => min w x
  | 7 => max w x
  | _ => x

/-- The barrier block (R356): EXPECT, MEMBERS, PENDJ, ARRIVED, GEN, FLT. -/
structure BarBlk where
  expect : Nat
  members : Nat
  pendj : Nat
  arrived : Nat
  gen : Nat
  flt : Bool
  deriving DecidableEq, Repr

/-- A block from its three words. -/
def barOf (w0 w1 w2 : Nat) : BarBlk :=
  ⟨bits w0 63 32, bits w0 31 0, bits w1 63 32, bits w1 31 0, bits w2 63 32, bit w2 0⟩

/-- A block's three words as bytes. -/
def barBytes (b : BarBlk) : List Byte :=
  natBytes 8 (b.expect * 2 ^ 32 + b.members) ++ natBytes 8 (b.pendj * 2 ^ 32 + b.arrived) ++
  natBytes 8 (b.gen * 2 ^ 32 + b2n b.flt)

/-- What serving a barrier request gives: the block, the status, and what happens to the waiters and the handler. -/
structure BarServed where
  blk : BarBlk
  status : Nat
  release : Option Nat     -- waiters released with this status
  notify : Bool
  counted : Bool           -- an arrival that was counted
  deriving DecidableEq, Repr

/-- Changes the counts as the request asks (R358); none when it is answered at once with a status. -/
def barCount (b : BarBlk) : BarReq → Nat ⊕ BarBlk
  | .joinSelf =>
    if b.members = 2 ^ 32 - 1 then .inl 2
    else .inr { b with members := b.members + 1, pendj := b.pendj - 1 }
  | .joinAnnounce n => .inr { b with pendj := min (b.pendj + n.toNat % 2 ^ 32) (2 ^ 32 - 1) }
  | .leaveSelf => if b.members = 0 then .inl 2 else .inr { b with members := b.members - 1 }
  | .leaveAnnounce n => .inr { b with pendj := b.pendj - min b.pendj (n.toNat % 2 ^ 32) }
  | .arrive _ => if b.flt then .inl 1 else .inr { b with arrived := b.arrived + 1 }

/-- Whether a request is an arrival. -/
def isArrive : BarReq → Bool
  | .arrive _ => true
  | _ => false

/-- Serving a barrier request (R358, R359). -/
def serveBarrier (b : BarBlk) (r : BarReq) : BarServed :=
  match barCount b r with
  | .inl st => ⟨b, st, none, false, false⟩
  | .inr b =>
    let target := if b.expect = 0 then b.members else b.expect
    if !b.flt && 0 < b.expect && b.members + b.pendj < b.expect then
      ⟨{ b with flt := true }, 1, some 1, true, (isArrive r)⟩
    else if !b.flt && 0 < b.arrived && target ≤ b.arrived && (0 < b.expect || b.pendj = 0) then
      ⟨{ b with arrived := 0, gen := (b.gen + 1) % 2 ^ 32 }, b2n b.flt, some 0, false, false⟩
    else ⟨b, b2n b.flt, none, false, (isArrive r)⟩

/-- The result word of a barrier request (R357). -/
def barResult (gen status : Nat) : Word := w64 (gen * 2 ^ 32 + status)

/-! ## Delivering results -/

/-- Whether the token engine awaits a mask record's word (R205). -/
def maskAwait (a : Access) : Bool := a.how == .await && coreOf (a.org / 16) == unitToken

/-- A WAIT word of a queued task has been seen full (R140): its read carries the task's number and the word's place. So does
that of a mask record for the request that waits for it (R205). -/
def State.waitSeen (s : State) (a : Access) : State :=
  if maskAwait a then
    match mget? s.agents.tokOps a.pc.toNat with
    | none => s
    | some o => s.setAgents { s.agents with tokOps := mput s.agents.tokOps a.pc.toNat { o with seen := true } }
  else
  let cl := clusterOf (coreOf (a.org / 16))
  let c := s.cluster cl
  s.setCluster cl { c with queue := c.queue.map (fun (t : QTask) =>
    if t.id = a.pc.toNat && !t.sat.contains a.dst then { t with sat := t.sat ++ [a.dst] } else t) }

/-- Whether a slot stands at the instruction of an access until its answer comes. -/
def Slot.waitsFor (sl : Slot) (a : Access) : Bool := sl.st == .waiting && !(a.dst != 0 && (sl.cell a.dst).pend)

/-- Writes the results of an access into its slot: the destination becomes full (R338), a slot that waited goes on. The
results of another module's access go back to it, in an answer to its request (R59). -/
def State.deliverResult (s : State) (a : Access) (v0 v1 : Word) : State :=
  let src := (a.srcs.head?).getD ⟨a.org / 16, 0, 0⟩
  if modOf src.core != s.fabric.self then s.respond 2 src.core src.slot (homeOf a.pa) (.result a v0 v1)
  else if a.srcs.isEmpty then
    (if a.how = .await then s.waitSeen a else if a.org = ringOrg s then s.ringAnswer a v0 else s)
  else
    let id : SlotId := ⟨s.forwarded (coreOf src.core), src.slot⟩
    let sl := s.slotAt id
    if sl.task.launch != a.launch || sl.st == .free || (a.dst != 0 && sl.st != .waiting && !(sl.cell a.dst).pend) then s
    else
      let two := match a.how with
        | .cas2 _ _ _ _ => true
        | _ => false
      let w := sl.setG a.dst v0
      let w := if two then w.setG (a.dst + 1) v1 else w
      if sl.waitsFor a then
        s.setSlot id { w with st := .running, pc := sl.next, fell := sl.nextFell, entry := false }
      else s.setSlot id { w with outst := sl.outst - 1 }

/-- An acknowledgement to a slot of another module waits to be combined, at most 64 cycles and up to 255 (R65). -/
def State.holdAck (s : State) (id : SlotId) (n : Nat) : State :=
  match s.fabric.acks.find? (fun x => x.1 == id) with
  | none => (s.setFabric { s.fabric with acks := s.fabric.acks ++ [(id, n)] }).after (s.pick Config.useAck % 65) (.pwackCombineTimeout id)
  | some (_, k) =>
    if 255 < k + n then s.respondAck id.core id.slot n
    else s.setFabric { s.fabric with acks := s.fabric.acks.map (fun (x : SlotId × Nat) => if x.1 == id then (id, k + n) else x) }

/-- Acknowledges a posted access: one PWACK for each listed source (R65, R68). -/
def State.ackPosted (s : State) (a : Access) : State :=
  a.srcs.foldl (fun s src =>
    if src.count = 0 then s
    else if modOf src.core = s.fabric.self then
      s.send (homeOf a.pa + 2 ^ 20) (coreOf src.core) (.pwack ⟨coreOf src.core, src.slot⟩ src.count)
    else if s.choice Config.useAck then s.holdAck ⟨src.core, src.slot⟩ src.count
    else s.respondAck src.core src.slot src.count) s

/-! ## Performing at a home -/

/-- The outcome of an access at its home. -/
inductive PRes
  | done (s : State) (v0 v1 : Word)
  | wait (s : State)                 -- the wrong tag (R273), or an arrival that waits for its episode (R358)
  | fault (cause : Nat)
  | poison
  | busy (s : State)                 -- a copy engine or a peer owns the line, or its group refreshes (R252, R73, R253)
  deriving DecidableEq, Repr

/-- A module joins the sharers of a line: the fifth turns the entry into its coarse form, a vector of 64 bits (R73). -/
def joinSharers (l : List Nat) (m : Nat) : List Nat :=
  let bitOf (x : Nat) : Nat := 2 ^ 14 + x % 64
  if l.any (fun x => decide (2 ^ 14 ≤ x)) then numIns l (bitOf m)
  else if l.length < 4 || l.contains m then numIns l m
  else (l ++ [m]).foldl (fun acc x => numIns acc (bitOf x)) []

/-- The modules to which an entry's invalidations or its ownership recall go (R73). -/
def peerTargets (s : State) (e : List Nat × Nat) : List Nat :=
  if e.2 != 0 then [e.2 - 1]
  else if e.1.any (fun x => decide (2 ^ 14 ≤ x)) then
    s.otherModules.filter (fun m => e.1.contains (2 ^ 14 + m % 64) && !s.fabric.lost.contains m)
  else e.1

/-- Asks a line back from the peers that hold it (R73). -/
def State.recallPeers (s : State) (line : Nat) : State :=
  if numHas s.mem.peerRecalls line then s
  else match mget? s.mem.peers line with
    | none => s
    | some e =>
      let l := peerTargets s e
      let s := s.setMem { s.mem with
        peerRecalls := numIns s.mem.peerRecalls line, recallOut := s.mem.recallOut ++ l.map (fun m => (line, m)) }
      let s := if l.isEmpty then s.post (.peerRecallDone line) else s
      l.foldl (fun s m => s.ask 2 m (line * 64) unitRouter 0 0 0 (.recall line)) s

/-- Whether the weight-store bank group of an address refreshes on this cycle (R253). -/
def refreshing (s : State) (pa : Nat) : Bool := s.now < mget s.mem.refresh (bits pa 13 10) 0

/-- Why an access to a line of this module has to come again (R252, R73, R253, R120): a copy engine or a peer has it, a
read meets a refresh, or its frame moves; the state in which it comes again. -/
def lineBusy (s : State) (pa : Nat) (write : Bool) : Option State :=
  match copyOwner s (pa / 64) with
  | some cl => some (s.post (.lineRecall cl (pa / 64)))
  | none =>
    if peerBlocks s (pa / 64) write then some (s.recallPeers (pa / 64))
    else if region pa = 2 && !write && refreshing s pa then some s
    else if movingAt s pa then some s
    else none

/-- Whether the access writes. -/
def opWrites (p : Perform) : Bool := (opNeed p).writes

/-- The checks a home makes before it performs an access, in order (R107, R108, R112, R127, R272, R349, R356). -/
def homeCheck (s : State) (a : Access) : Option Nat :=
  let r := region a.pa
  if !paOk s a.pa then some causePhysaddr
  else if encrypted r && !s.keyLive (s.accKey a.job a.va) then some causeKeydead
  else if r = 2 && (opWrites a.how) && !s.mem.wsOpen.getLsbD (bits a.pa 38 36) then some causeWsclosed
  else if inHeat s a.pa && (opWrites a.how) then some causePerm
  else if (opTagged a.how) && 4 ≤ r then some causeUntagged
  else match a.how with
    | .barrier _ _ => if 2 ≤ r then some causeUnsupatom else none
    | _ => none

/-- Writes bytes at a home under the access's key; whole words lose their poison. -/
def State.putHome (s : State) (a : Access) (l : List Byte) : State :=
  let m := s.mem.write (s.accKey a.job a.va) a.pa l
  s.setMem (if region a.pa = 3 then m else clearPoison m a.pa l.length)

/-- The number at a home under the access's key. -/
def State.getHome (s : State) (a : Access) (n : Nat) : Nat := bytesNat (s.mem.read (s.accKey a.job a.va) a.pa n)

/-- Releases the waiters of a barrier block that its home's list holds (R358). -/
def State.releaseBarrier (s : State) (pa gen status : Nat) : State :=
  let isB (w : Waiter) : Bool := w.parked && w.acc.pa == pa && (match w.acc.how with
    | .barrier _ _ => true
    | _ => false)
  let ws := s.mem.waiters.filter isB
  let s := s.setMem { s.mem with waiters := s.mem.waiters.filter (fun w => !isB w) }
  ws.foldl (fun s w => s.deliverResult w.acc (barResult gen status) 0) s

/-- The launch of an underpopulated barrier is notified (R359). -/
def State.barUnder (s : State) (a : Access) : State :=
  match s.launchAt a.launch with
  | none => s
  | some l =>
    if l.handler = 0 then
      s.jobFault a.job (faultWords
        { engine := if region a.pa = 0 then 3 else 4, cause := causeBarunder, job := a.job,
          place := gcid s (homeOf a.pa), va := a.va, access := accAtomic, size := 5, spec := false, slot := 0, cmd := 0,
          level := 0, token := 0 })
    else s.postHandler a.launch l a.va 1

/-- Performs a barrier request at its home (R358). -/
def performBarrier (s : State) (a : Access) (r : BarReq) : PRes :=
  let b := barOf (s.getHome a 8) (s.getHome { a with pa := a.pa + 8 } 8) (s.getHome { a with pa := a.pa + 16 } 8)
  let v := serveBarrier b r
  let s := s.putHome a (barBytes v.blk)
  let s := match v.release with
    | some st => s.releaseBarrier a.pa b.gen st
    | none => s
  let s := if v.notify then s.barUnder a else s
  match r with
  | .arrive true =>
    if v.counted && v.release.isNone then .wait s else .done s (barResult b.gen v.status) 0
  | _ => .done s (barResult b.gen v.status) 0

/-- An access that its home serves is performed in one step of the coherence order (R260, R261, R272, R276, R277). -/
def serve (s : State) (a : Access) : PRes :=
  let n := (opSize a.how)
  if (opReads a.how) && (s.isPoison a.pa || (opSize a.how == 16 && s.isPoison (a.pa + 8))) &&
      (a.how != .syncRead || s.isFull a.pa) then .poison
  else match a.how with
  | .load f => .done s (extendLoad f (s.getHome a n)) 0
  | .store n v => .done (s.putHome a (natBytes n v.toNat)) 0 0
  | .fill v => .done ((s.putHome a (natBytes 8 v.toNat)).setFull a.pa true) 0 0
  | .tagWrite full => .done (s.setFull a.pa full) 0 0
  | .tagRead => .done s (boolWord (s.isFull a.pa)) 0
  | .await => if s.isFull a.pa then .done s 1 0 else .wait s
  | .syncRead => if s.isFull a.pa then .done (s.setFull a.pa false) (w64 (s.getHome a 8)) 0 else .wait s
  | .syncWrite v =>
    if s.isFull a.pa then .wait s else .done ((s.putHome a (natBytes 8 v.toNat)).setFull a.pa true) 0 0
  | .red op _ v => .done (s.putHome a (natBytes n (amoOp op.toNat (8 * n) (s.getHome a n) v.toNat))) 0 0
  | .amo op w x =>
    let old := s.getHome a n
    .done (s.putHome a (natBytes n (amoOp op.toNat (8 * n) old x.toNat)))
      (if w = 1 then (BitVec.ofNat 32 old).signExtend 64 else w64 old) 0
  | .cas e x =>
    let old := s.getHome a 8
    .done (if old = e.toNat then s.putHome a (natBytes 8 x.toNat) else s) (w64 old) 0
  | .cas2 el eh nl nh =>
    let lo := s.getHome a 8
    let hi := s.getHome { a with pa := a.pa + 8 } 8
    .done (if lo = el.toNat && hi = eh.toNat then s.putHome a (natBytes 8 nl.toNat ++ natBytes 8 nh.toNat) else s)
      (w64 lo) (w64 hi)
  | .barrier r _ => performBarrier s a r
  | .line none => .done s 0 0
  | .line (some l) => .done (s.putHome a l) 0 0

/-- What keeps an access from being served at its home. -/
def atHome (s : State) (a : Access) (k : State → PRes) : PRes :=
  match homeCheck s a with
  | some c => .fault c
  | none => match lineBusy s a.pa (opWrites a.how) with
    | some s => .busy s
    | none => k s

/-- Performs an access at its home, which counts it (R115). -/
def perform (s : State) (a : Access) : PRes := atHome s a (fun s => serve (s.heat a.pa) a)

/-- A waiter's access runs again at its home (R273): it has been counted. -/
def performAgain (s : State) (a : Access) : PRes := atHome s a (fun s => serve s a)

/-- The capacity of a home's waiter list (R273). -/
def waiterCap (h : Nat) : Nat := if coreDie h = 8 then 64 else if coreGroup h < 128 then 32 else 256

/-- The parked waiters of a home. -/
def parkedAt (s : State) (h : Nat) : Nat := (s.mem.waiters.filter (fun w => w.parked && homeOf w.acc.pa == h)).length

/-- The word of a barrier block that holds GEN and FLT (R356). -/
def State.barWord (s : State) (a : Access) : Nat := s.getHome { a with pa := a.pa + 16 } 8

/-- Enters a waiter: it retries every 16 cycles, or parks (R273). An arrival that the list has no room for reads its block
every 16 cycles (R358). -/
def State.addWaiter (s : State) (a : Access) : State :=
  let (now, first) := match a.how with
    | .barrier _ _ => (true, bits (s.barWord a) 63 32)
    | _ => (s.mgmt.syncretry == 0, 0)
  let park := now && parkedAt s (homeOf a.pa) < waiterCap (homeOf a.pa)
  let s := s.setMem { s.mem with waiters := s.mem.waiters ++ [⟨a, first, park⟩] }
  if park then s else s.after 16 (.syncRetry a)

/-! ## Faults of a slot's access -/

/-- The engine of a slot's fault: tile thread, or home (R112). -/
def engineAt (k : Nat) : Nat := if coreDie k = 8 then 4 else if 128 ≤ coreGroup k then 3 else 0

/-- Whether a cause is found on the physical side: at a home, a decoder or a port (R112). -/
def physicalCause (c : Nat) : Bool := c == 5 || (7 ≤ c && c ≤ 12) || c == 15

/-- The address that a record names: for a physical-side fault that of the 4 KiB page (R111). -/
def recordVa (cause : Nat) (va : Word) : Word := if physicalCause cause then va &&& ~~~4095#64 else va

/-- The fault record of a slot's access, without its token. -/
def slotFault (s : State) (id : SlotId) (cause access size level : Nat) (va : Word) : FaultRec :=
  let t := (s.slotAt id).task
  { engine := engineAt id.core, cause := cause, job := t.job, place := gcid s id.core, va := recordVa cause va,
    access := access, size := size, spec := t.ord, slot := id.slot, cmd := 0, level := level, token := 0 }

/-- Parks the issuing slot on a fault; the instruction issues again on replay (R111, R114). While the replay queues are
full the slot tries again with no record (R113). -/
def State.parkFault (s : State) (cause access size level : Nat) (va : Word) : State :=
  let id := s.sched.cur
  let t := (s.slotAt id).task
  match s.raiseFault (slotFault s id cause access size level va) t.launch t.handler (.thread id) with
  | none => s
  | some s' => s'.setSlot id { s'.slotAt id with st := .fault s.mem.nextToken }

/-- The fault record of an access that waits at a home (R111): the record of a slot's access says whether its task is
speculative; `level` is that of a walk fault. -/
def homeRec (s : State) (a : Access) (cause level : Nat) : FaultRec :=
  let src := (a.srcs.head?).getD ⟨0, 0, 0⟩
  { engine := if maskAwait a then 6 else if a.how = .await then 2 else if region a.pa = 3 then 0 else if region a.pa = 0 || region a.pa = 2 then 3 else 4,
    cause := cause, job := a.job, place := if a.how = .await then a.org / 16 else gcid s (homeOf a.pa), va := recordVa cause a.va,
    access := if a.release then accDeferred else (opCode a.how), size := log2Size (opSize a.how), spec := a.ord,
    slot := src.slot, cmd := 0, level := level, token := 0 }

/-- The number under which a cache of another module is kept that reads or writes a line of this one, and its module. -/
def remLoc (modid cache : Nat) : Nat := 2 ^ 40 + modid * 2 ^ 21 + cache
def remMod (loc : Nat) : Nat := loc / 2 ^ 21 % 2 ^ 14

/-- A line that a cache has asked for will not come, for a cause that what needs it meets (R57, R94). -/
def State.lineFailed (s : State) (loc dev line cause : Nat) : State :=
  if remLoc 0 0 ≤ loc then s.respond 2 (remMod loc * 65536 + unitRouter) 0 unitPool (.lineFault (loc % 2 ^ 21) line cause)
  else s.setMem { s.mem with
    fills := s.mem.fills.erase (loc, dev, line),
    codeFills := s.mem.codeFills.filter (fun c => !(c.loc == loc && c.line == dev * 2 ^ 46 + line)),
    dead := s.mem.dead ++ [(loc, dev, line, cause)] }

/-- An access that waits at a home (R111, R114): its record and its place in the replay queue. A fault of an access to a
fault ring ends the writing of its record (R133); one of a line that a cache reads in host space is met by what reads the
line. -/
def State.homeFaultAt (s : State) (a : Access) (cause level : Nat) : State :=
  if a.how = .line none then s.lineFailed a.dst s.fabric.self (a.pa / 64) cause
  else if a.srcs.isEmpty && a.org % 2 ^ 20 = ringOrg s % 2 ^ 20 then
    (if modOf (a.org / 16) = s.fabric.self then s.ringFail a.launch
     else s.respond 2 (a.org / 16) 0 (homeOf a.pa) (.aborted a false))
  else s.faultOrStop (homeRec s a cause level) a.launch a.handler (.access a)

/-- A fault that the home itself raises. -/
def State.homeFault (s : State) (a : Access) (cause : Nat) : State := s.homeFaultAt a cause 0

/-! ## Cluster caches of PHASED lines (11 R270) -/

/-- The phase number of a partition. -/
def State.phaseOf (s : State) (part : Nat) : Nat := mget s.work.phases part 0

/-- The line of a cache that holds a module's line. -/
def findLine (m : Mem) (loc dev line : Nat) : Option CLine :=
  m.clines.find? (fun l => l.loc == loc && l.dev == dev && l.line == line)

/-- Replaces or adds a cached line. -/
def putLine (m : Mem) (l : CLine) : Mem :=
  { m with clines := m.clines.filter (fun x => !(x.loc == l.loc && x.dev == l.dev && x.line == l.line)) ++ [l] }

/-- Drops a cached line. -/
def dropLine (m : Mem) (loc dev line : Nat) : Mem :=
  { m with clines := m.clines.filter (fun x => !(x.loc == loc && x.dev == dev && x.line == line)) }

/-- The words of a line that its dirty bytes cover whole. -/
def CLine.wholeWords (l : CLine) : List Nat := (List.range 8).filter (fun i => bits l.dirty.toNat (8 * i + 7) (8 * i) == 255)

/-- Merges the dirty bytes of a line at its home in this module (R270); words written whole lose their poison. -/
def mergeLine (m : Mem) (l : CLine) : Mem :=
  let m := m.rekey l.key l.line
  let m := { m with poison := l.wholeWords.foldl (fun p i => numDel p (l.line * 8 + i)) m.poison }
  let cells := (List.range 64).foldl (fun c i =>
    if l.dirty.getLsbD i then setByte c (l.line * 64 + i) (l.data.getD i 0) else c) m.cells
  { m with cells := cells, resvs := m.resvs.filter (fun r => r.2 != l.line) }

/-- The runs of a line's dirty bytes: their offsets and bytes. -/
def dirtyRuns (l : CLine) : Nat → Nat → List (Nat × List Byte)
  | _, 0 => []
  | i, fuel + 1 =>
    if 64 ≤ i then []
    else if l.dirty.getLsbD i then
      let n := ((List.range (64 - i)).takeWhile (fun k => l.dirty.getLsbD (i + k))).length
      (i, (l.data.drop i).take n) :: dirtyRuns l (i + n) fuel
    else dirtyRuns l (i + 1) fuel

/-- Whether a physical address lies in a pool window. -/
def isPool (pa : Nat) : Bool := 4 ≤ region pa && region pa ≤ 7

/-- Whether a write to this module's memory meets the heat area or a read-only window, which raise PERM (R94, R112,
R116). -/
def writeBarred (s : State) (pa : Nat) : Bool := inHeat s pa || (isPool pa && poolReadOnly s pa)

/-- A request to the CXL pool port leaves with a new token (R94): a write of its bytes, or a read of n. -/
def State.poolSend (s : State) (pa : Nat) (data : List Byte) (write : Bool) (what : HostRead) : State :=
  let t := s.host.nextRead
  let s := s.setHost { s.host with nextRead := t + 1, pendingReads := s.host.pendingReads ++ [(t, what)] }
  (s.emit (.pool t (poolWindow pa) (poolAddr s pa) data write)).after 85000000 (.poolTimeout t)

/-- No key: bytes that no job wrote. -/
def noKey : Nat := 64

/-- The remote-line cache among the caches. -/
def remoteCache : Nat := 1024

/-- What a cluster writes back to another module's home enters the copy that the remote-line cache holds (R72, R270). -/
def State.mergeRemote (s : State) (l : CLine) : State :=
  match findLine s.mem remoteCache l.dev l.line with
  | none => s
  | some r =>
    if l.loc = remoteCache then s
    else s.setMem (putLine s.mem { r with data := (List.range 64).map (fun i =>
      if l.dirty.getLsbD i then l.data.getD i 0 else r.data.getD i 0) })

/-- Writes a dirty line back and leaves it clean (R266, R270). A line homed elsewhere, or in pool memory, counts as not
written back until it is acknowledged; its home counts the write-back (R115). -/
def State.writeBack (s : State) (l : CLine) : State :=
  if l.dirty = 0 then s
  else
    let pa := l.line * 64
    let out (s : State) (n : Nat) : State :=
      s.setMem { s.mem with wbOut := s.mem.wbOut ++ List.replicate n (l.loc, l.dev, l.line) }
    let s := if l.dev != s.fabric.self then
        ((out s 1).mergeRemote l).ask 2 l.dev pa unitRouter 0 l.part 0 (.lineWrite l.line l.loc l.data l.dirty false (wireKey s l.key))
      else if isPool pa then
        -- a line under another key is written whole, as its cache holds it
        let rs := dirtyRuns (if (mget? s.mem.keys l.line).any (fun k => k != l.key) then { l with dirty := BitVec.allOnes 64 } else l) 0 65
        let s := s.setMem { s.mem with
          keys := if l.key = noKey then s.mem.keys else mput s.mem.keys l.line l.key,
          poison := l.wholeWords.foldl (fun p i => numDel p (l.line * 8 + i)) s.mem.poison }
        rs.foldl (fun s r => s.poolSend (pa + r.1) r.2 true (.lineWrite l.loc l.line)) ((out s rs.length).heat pa)
      else (s.heat pa).setMem (mergeLine (s.heat pa).mem l)
    s.setMem (putLine s.mem { l with dirty := 0 })

/-- Writes back the dirty lines that satisfy a condition. -/
def State.writeBackAll (s : State) (p : CLine → Bool) : State :=
  (s.mem.clines.filter p).foldl (fun s l => s.writeBack l) s

/-- Drops the clean lines that satisfy a condition. -/
def State.dropClean (s : State) (p : CLine → Bool) : State :=
  s.setMem { s.mem with clines := s.mem.clines.filter (fun l => !(l.dirty == 0 && p l)) }

/-- The lines a release or an acquire of a scope covers, for a cluster (R266, R267). -/
def scopeLines (s : State) (k : Nat) (scope : Nat) (l : CLine) : Bool :=
  if !isTile s.part k then decide (5 ≤ scope) && l.loc == remoteCache
  else
    (l.loc == clusterOf k && ((scope == 3 && l.dev == s.fabric.self && coreDie (homeOf (l.line * 64)) == coreDie k) ||
      (scope == 4 && l.dev == s.fabric.self) || decide (5 ≤ scope))) ||
    (l.loc == remoteCache && decide (5 ≤ scope))

/-- Whether a write-back that a release or an acquire of a scope covers is not yet acknowledged (R266, R269). -/
def scopeOut (s : State) (k scope : Nat) : Bool :=
  s.mem.wbOut.any (fun x => scopeLines s k scope
    { loc := x.1, dev := x.2.1, line := x.2.2, phase := 0, part := 0, key := 0, data := [], dirty := 0, psn := 0 })

/-- The write-backs of a release at a scope (R266). -/
def State.releaseLines (s : State) (k scope : Nat) : State := s.writeBackAll (scopeLines s k scope)

/-- The drops of an acquire at a scope (R267). -/
def State.acquireLines (s : State) (k scope : Nat) : State := s.dropClean (scopeLines s k scope)

/-- A line of a cluster cache that a read may use: dirty, or of the current phase (R270). -/
def usable (s : State) (part : Nat) (l : CLine) : Bool := l.dirty != 0 || s.phaseOf part ≤ l.phase

/-- A cached line's bytes as an access under a key reads them (R125). -/
def CLine.read (l : CLine) (key : Nat) : List Byte :=
  if l.key = key || l.key = noKey || !encrypted (region (l.line * 64)) then l.data
  else (List.range 64).map (Config.undecrypted key l.key l.line l.data)

/-- A line leaves a cache that needs its place: written back when it is dirty (R270). -/
def State.evictLine (s : State) (l : CLine) : State :=
  (s.writeBack l).setMem (dropLine (s.writeBack l).mem l.loc l.dev l.line)

/-- The set of the remote-line cache in which a line lies: 32 MiB in 16 ways of 64-byte lines (R72, notes/assumptions/93). -/
def remoteSet (line : Nat) : Nat := line % 32768

/-- Makes room in the remote-line cache for a line: of a full set any line goes (R72). -/
def State.remoteRoom (s : State) (line : Nat) : State :=
  let mine := s.mem.clines.filter (fun l => l.loc == remoteCache && remoteSet l.line == remoteSet line)
  if mine.length < 16 then s
  else match mine[s.pick Config.useEvict % mine.length]? with
    | some l => s.evictLine l
    | none => s

/-- Whether a cache asks for lines of other modules through the remote-line cache: cluster caches, copy engines and tool
cores, and no code cache or unit (R72). -/
def throughRemote (loc : Nat) : Bool := loc != remoteCache && !(3000 ≤ loc && loc < 5000) && loc < 8000

/-- Whether a cache's copy of a COH line is entered in the home's peer directory: that of a copy engine or a tool core
(R72, R251). -/
def tracked (loc : Nat) : Bool := 5000 ≤ loc && loc < 8000

/-- Asks another module's home for a line, for a cache or the remote-line cache. -/
def State.askRemote (s : State) (loc dev line : Nat) (shared : Bool) : State :=
  if s.mem.fills.contains (loc, dev, line) then s
  else (s.setMem { s.mem with fills := s.mem.fills ++ [(loc, dev, line)] }).ask 2 dev (line * 64) unitRouter 0 0 0
    (.lineRequest line loc shared)

/-- Whether a request to the same line of pool memory is outstanding that an access may not pass: accesses to one line of
which one writes are performed one after the other (R96). -/
def poolBusy (s : State) (pa : Nat) (write : Bool) : Bool :=
  s.host.pendingReads.any (fun r => match r.2 with
    | .access a => region a.pa != 8 && a.pa / 64 == pa / 64 && (write || opWrites a.how)
    | .poolWrite a _ _ => a.pa / 64 == pa / 64
    | .line _ l => write && l == pa / 64
    | .lineWrite _ l => l == pa / 64
    | _ => false)

/-- Asks for a line; its data, read at the home or in pool memory, arrive by LINE_FILL. -/
def State.askLine (s : State) (loc dev line : Nat) : State :=
  let pa := line * 64
  let asked (s : State) : State := s.setMem { s.mem with fills := s.mem.fills ++ [(loc, dev, line)] }
  if s.mem.fills.contains (loc, dev, line) then s
  else if dev = s.fabric.self && region pa < 4 then
    match lineBusy s pa false with
    | some s => s
    | none => ((asked s).heat pa).send (2 ^ 21 + loc) line (.lineFill loc dev line (bytesAt s.mem.cells pa 64))
  else if dev = s.fabric.self then
    match lineBusy s pa false with
    | some s => s
    | none => if poolBusy s pa false then s else ((asked s).heat pa).poolSend pa (List.replicate 64 0) false (.line loc line)
  else if throughRemote loc then
    match (findLine s.mem remoteCache dev line).filter (fun l => tracked loc || usable s l.part l) with
    | some l => (asked s).send (2 ^ 21 + loc) line (.lineFill loc dev line l.data)
    | none =>
      ((asked s).setFabric { s.fabric with lineWaits := s.fabric.lineWaits ++ [(loc, dev, line)] }).askRemote remoteCache dev
        line (tracked loc)
  else s.askRemote loc dev line false

/-- Asks for a line of host space, with an access of a job at its hub dock core (R91). -/
def State.askHostLine (s : State) (loc job launch : Nat) (ord handler : Bool) (va : Word) (pa : Nat) : State :=
  if s.mem.fills.contains (loc, s.fabric.self, pa / 64) then s
  else
    let a : Access := {
      srcs := [], org := gcid s (homeOf pa) * 16, va := va, pa := pa / 64 * 64, pc := 0, job := job, launch := launch,
      part := s.partOf launch, user := true, ord := ord, handler := handler, release := false, dst := loc, how := .line none }
    (s.setMem { s.mem with fills := s.mem.fills ++ [(loc, s.fabric.self, pa / 64)] }).send (2 ^ 21 + loc) (homeOf pa) (.homeAccess a)

/-- The cause for which the last request of a cache for a line failed (R57, R94): it is met once. -/
def lineDead (s : State) (loc dev line : Nat) : Option Nat :=
  (s.mem.dead.find? (fun x => x.1 == loc && x.2.1 == dev && x.2.2.1 == line)).map (·.2.2.2)

/-- The mark goes. -/
def State.clearDead (s : State) (loc dev line : Nat) : State :=
  s.setMem { s.mem with dead := s.mem.dead.filter (fun x => !(x.1 == loc && x.2.1 == dev && x.2.2.1 == line)) }

/-- A line that a unit reads with a coherent load at its home. -/
inductive LineRead
  | ok (data : List Byte) (s : State)
  | wait (s : State)
  | fault (cause : Nat)
  deriving DecidableEq, Repr

/-- The number under which a unit's lines on their way are kept. -/
def unitLoc (n : Nat) : Nat := 8000 + n

/-- A unit reads the line at an address for a launch: of this module's own memory at once, else when the line has come. -/
def unitLine (s : State) (loc job launch : Nat) (va : Word) (dev pa : Nat) : LineRead :=
  let key := s.accKey job va
  if dev = s.fabric.self && !paOk s pa then .fault causePhysaddr
  else if dev = s.fabric.self && encrypted (region pa) && !s.keyLive key then .fault causeKeydead
  else if dev = s.fabric.self && region pa < 4 then
    match lineBusy s pa false with
    | some s => .wait s
    | none => .ok (s.mem.read key (pa / 64 * 64) 64) (s.heat pa)
  else match findLine s.mem loc dev (pa / 64) with
    | some l => .ok (l.read key) (s.setMem (dropLine s.mem loc dev (pa / 64)))
    | none =>
      match lineDead s loc dev (pa / 64) with
      | some c => .fault c
      | none => .wait (if dev = s.fabric.self && region pa = 8 then s.askHostLine loc job launch false false va pa
          else s.askLine loc dev (pa / 64))

/-! ## Where an access of a thread runs (R338) -/

/-- A thread's access as its home will see it. -/
def threadAccess (s : State) (sl : Slot) (va : Word) (x : Xlat) (dst : Nat) (how : Perform) (count : Nat) : Access :=
  { srcs := [⟨gcid s s.here, s.sched.cur.slot, count⟩], org := sl.task.dcore * 16 + s.sched.cur.slot, va := va, pa := x.pa,
    pc := s.sched.ir.pc, job := sl.task.job, launch := sl.task.launch, part := s.partOfTask sl.task, user := !sl.sup,
    ord := sl.task.ord, handler := sl.task.handler, release := false, dst := dst, how := how }

/-- An access leaves the issuing slot for its home, in this module or another. -/
def State.leave (s : State) (dev : Nat) (a : Access) : State :=
  if dev = s.fabric.self then s.send (srcKey s.here s.sched.cur.slot) (homeOf a.pa) (.homeAccess a)
  else s.askAccess dev a (s.accKey a.job a.va)

/-- A posted access leaves: the posted count rises; at 1,023 the slot loses its turn (R65). -/
def postAccess (s : State) (sl : Slot) (x : Xlat) (a : Access) : Res :=
  if 1023 ≤ sl.posted then .next s
  else .next ((s.retire { sl with posted := sl.posted + 1 }).leave x.dev a)

/-- Whether a barrier request. -/
def opBarrier : Perform → Bool
  | .barrier _ _ => true
  | _ => false

/-- Whether a block lies in PHASED memory of this module: its home refuses the request (R356). -/
def phasedBarrier (s : State) (x : Xlat) (how : Perform) : Bool := opBarrier how && x.ty == 1 && x.dev == s.fabric.self

/-- An access runs again: it is translated where it was issued, or at its home when that is another module. -/
def State.rerun (s : State) (a : Access) : State :=
  let loc := match a.srcs with
    | x :: _ => if modOf x.core = s.fabric.self then coreOf x.core else homeOf a.pa
    | [] => homeOf a.pa
  match translate s loc a.job a.user a.va (opNeed a.how) with
  | (.ok x, s) =>
    if phasedBarrier s x a.how then s.homeFault { a with pa := x.pa } causeUnsupatom
    else if x.dev = s.fabric.self then s.post (.homeAccess { a with pa := x.pa }) else s.askAccess x.dev { a with pa := x.pa } (s.accKey a.job a.va)
  | (.zpage pte, s) => s.askPage pte a.job a.va a.launch (.access a)
  | (.fault c lv, s) => s.homeFaultAt a c lv

/-- An access leaves for its home or unit. -/
def State.sendHome (s : State) (x : Xlat) (a : Access) : State :=
  if phasedBarrier s x a.how then s.homeFault a causeUnsupatom else s.leave x.dev a

/-- Sends an access to its home or unit without migration (R338): the destination is pending, the slot goes on. -/
def sendAccess (s : State) (sl : Slot) (x : Xlat) (a : Access) : State :=
  let two := match a.how with
    | .cas2 _ _ _ _ => true
    | _ => false
  let sl := if two then (sl.pendG a.dst).pendG (a.dst + 1) else sl.pendG a.dst
  (s.retire { sl with outst := sl.outst + 1 }).sendHome x a

/-- The slot parks at its instruction until the answer comes (R224). -/
def Slot.parkFor (sl : Slot) (ir : Fetched) (dst : Nat) : Slot :=
  let g := sl.goTo ir ir.npc ir.npcEnd false
  { g with st := .waiting, pc := ir.pc, fell := sl.fell, next := ir.npc, nextFell := ir.npcEnd, wreg := dst }

/-- A posted access of the issuing slot to its core's scratchpad, on its way: performed at issue + 3 cycles, so that the
core's accesses see it from the cycle after (R232, R259). -/
def State.lateWrite (s : State) (a : Access) : State :=
  match a.how with
  | .store n v => s.scrWrite (bits a.pa 31 16) s.sched.cur.slot (a.pa % 65536) (natBytes n v.toNat) none
  | _ => s.after 4 (.homeAccess a)

/-- A local access is performed at issue, a posted one to a scratchpad at issue + 3 cycles (R259, R338). -/
def performLocal (s : State) (a : Access) : PRes :=
  if region a.pa = 3 && opPosted a.how then atHome s a (fun s => .done (s.lateWrite a) 0 0) else perform s a

/-- A local access of the issuing slot (R259, R338). -/
def localAccess (s : State) (sl : Slot) (a : Access) : Res :=
  match performLocal s a with
  | .done s' v0 v1 =>
    let two := match a.how with
      | .cas2 _ _ _ _ => true
      | _ => false
    let sl := if (opPosted a.how) || (match a.how with | .syncWrite _ => true | _ => false) then sl
      else s'.writeG sl a.dst v0
    let sl := if two then s'.writeG sl (a.dst + 1) v1 else sl
    .next (s'.retire sl)
  | .wait s' => .next ((s'.setMe (sl.parkFor s.sched.ir a.dst)).addWaiter a)
  | .fault c =>
    if (opPosted a.how) then
      let a := { a with srcs := a.srcs.map (fun (x : Source) => { x with count := 1 }) }
      .next ((s.retire { sl with posted := sl.posted + 1 }).homeFault a c)
    else .next (s.parkFault c (opCode a.how) (log2Size (opSize a.how)) 0 a.va)
  | .poison => .next (s.raise s.sched.cur ⟨trapPoison, 1, a.va, s.sched.ir.pc⟩)
  | .busy s' => .next s'

/-- Whether n bytes that a cached line gives at an offset come from a poisoned word of its home: bytes written since are
clean (R73, R251, R270). -/
def poisonIn (s : State) (l : CLine) (off n : Nat) : Bool :=
  l.dev == s.fabric.self && s.isPoison (l.line * 64 + off) && bits l.dirty.toNat (off + n - 1) off != 2 ^ n - 1

/-- A thread's access to PHASED memory through its cluster cache (R270). -/
def phasedAccess (s : State) (sl : Slot) (x : Xlat) (a : Access) : Res :=
  let cl := clusterOf s.here
  let line := x.pa / 64
  let part := a.part
  let key := s.accKey a.job a.va
  if x.dev = s.fabric.self && !paOk s x.pa then
    .next (s.parkFault causePhysaddr (opCode a.how) (log2Size (opSize a.how)) 0 a.va)
  else if encrypted (region x.pa) && !s.keyLive key then
    .next (s.parkFault causeKeydead (opCode a.how) (log2Size (opSize a.how)) 0 a.va)
  else if x.dev = s.fabric.self && opWrites a.how && writeBarred s x.pa then
    .next (s.parkFault causePerm (opCode a.how) (log2Size (opSize a.how)) 0 a.va)
  else match findLine s.mem cl x.dev line with
  | some l =>
    if !usable s part l then .next ((s.setMem (dropLine s.mem cl x.dev line)).askLine cl x.dev line)
    else
      let off := x.pa % 64
      match a.how with
      | .load f =>
        if poisonIn s l off (opSize a.how) || l.psn.getLsbD (off / 8) then .next (s.raise s.sched.cur ⟨trapPoison, 1, a.va, s.sched.ir.pc⟩)
        else .next (s.retire (s.writeG sl a.dst (extendLoad f (bytesNat (((l.read key).drop off).take (opSize a.how))))))
      | .store n v =>
        let old := l.read key
        let data := old.take off ++ natBytes n v.toNat ++ old.drop (off + n)
        let dirty := l.dirty ||| (BitVec.ofNat 64 ((2 ^ n - 1) * 2 ^ off))
        .next ((s.setMem (putLine s.mem { l with data := data, dirty := dirty, key := key })).retire sl)
      | _ => .next s
  | none => match lineDead s cl x.dev line with
    | some c => .next ((s.clearDead cl x.dev line).parkFault c (opCode a.how) (log2Size (opSize a.how)) 0 a.va)
    | none => .next (s.askLine cl x.dev line)

/-- The cluster cache first writes back and drops its own copy of the line (R271). -/
def State.flushOwn (s : State) (k dev line : Nat) : State :=
  if !isTile s.part k then s
  else match findLine s.mem (clusterOf k) dev line with
    | none => s
    | some l => s.evictLine l

/-- The core of a home that a migrant goes to: any of the four dock cores of a slice (R62, notes/assumptions/13). -/
def State.pickHome (s : State) (pa : Nat) : Nat :=
  let h := homeOf pa
  if region pa = 0 || region pa = 2 then h + s.pick Config.useDockCore % 4 else h

/-- Whether an access goes through the cluster cache: plain loads and stores of PHASED memory on a tile core. -/
def throughCache (s : State) (x : Xlat) (how : Perform) : Bool :=
  x.ty == 1 && isTile s.part s.here && (match how with
    | .load _ => true
    | .store _ _ => true
    | _ => false)

/-- An access that is sent to its home or unit without migration, once the posted count is zero (R263, R338); the slot stands
at a BARARR until its episode is released (R358). -/
def sendStill (s : State) (sl : Slot) (x : Xlat) (a : Access) : Res :=
  if sl.posted != 0 then .next s
  else match a.how with
  | .barrier (.arrive true) _ => .next ((s.setMe (sl.parkFor s.sched.ir a.dst)).sendHome x a)
  | _ => .next (sendAccess s sl x a)

/-- An access as a posted one: its home acknowledges one access to the slot (R65). -/
def asPosted (a : Access) : Access := { a with srcs := a.srcs.map (fun (y : Source) => { y with count := 1 }) }

/-- An access to a unit (DEV memory): stores, TAGW and RED are posted, and the others wait for a posted count of zero (R263,
R338). A unit of this module answers loads and stores at once, and what it does not serve faults there (R107, R349,
R350). -/
def devAccess (s : State) (sl : Slot) (x : Xlat) (a : Access) : Res :=
  let own := x.dev == s.fabric.self
  if own && !paOk s x.pa then .next (s.parkFault causePhysaddr (opCode a.how) (log2Size (opSize a.how)) 0 a.va)
  else match a.how with
  | .load f =>
    if sl.posted != 0 || s.mustWait then .next s
    else if own then .next (s.retire (s.writeG sl a.dst (extendLoad f (s.mmioRead (x.pa % 2 ^ 48) (opSize a.how)))))
    else .next (sendAccess s sl x a)
  | .store n v => if own then .next ((s.retire sl).mmioWrite (x.pa % 2 ^ 48) n v.toNat) else postAccess s sl x (asPosted a)
  | .fill _ | .tagWrite _ | .red _ _ _ => postAccess s sl x (asPosted a)
  | .syncRead | .syncWrite _ | .tagRead | .await | .amo _ _ _ | .cas _ _ | .cas2 _ _ _ _ | .barrier _ _ | .line _ =>
    if s.mustWait then .next s else sendStill s sl x a

/-- A translated access of the issuing slot runs at the first place of R338 that applies. -/
def place (s : State) (sl : Slot) (va : Word) (x : Xlat) (dst : Nat) (how : Perform) : Res :=
  let a := threadAccess s sl va x dst how 0
  if x.ty = 2 then devAccess s sl x a
  else if throughCache s x how then
    (if (opPosted how) || !s.mustWait then phasedAccess s sl x a else .next s)
  else
    let s := if x.ty = 1 then s.flushOwn s.here x.dev (x.pa / 64) else s
    if x.ty = 1 && s.mem.wbOut.contains (clusterOf s.here, x.dev, x.pa / 64) then .next s
    else if x.dev = s.fabric.self && !paOk s x.pa then
      .next (s.parkFault causePhysaddr (opCode how) (log2Size (opSize how)) 0 va)
    else
    let home := x.dev = s.fabric.self && servesHome s.here x.pa
    let here := home && region x.pa < 4
    if (opPosted how) then (if here then localAccess s sl a else postAccess s sl x (asPosted a))
    else if s.mustWait then .next s
    else if here && phasedBarrier s x how then
      .next (s.parkFault causeUnsupatom (opCode how) (log2Size (opSize how)) 0 va)
    else if here then localAccess s sl a
    else if home then .next ((s.setMe (sl.parkFor s.sched.ir dst)).sendHome x a)
    else if (opBarrier how) || sl.intrap then sendStill s sl x a
    else if s.me.mayLeave then
      .next (s.migrate s.sched.cur s.sched.ir.pc x.dev (if x.dev = s.fabric.self then s.pickHome x.pa else homeOf x.pa)
        (some x.pa))
    else .next s

/-- A global access of the issuing slot: translation at the slot (R102 to R107), then its place. A translation fault
parks the slot at the instruction (R114). -/
def globalAccess (s : State) (sl : Slot) (va : Word) (dst : Nat) (how : Perform) : Res :=
  match translate s s.here sl.task.job (!sl.sup) va (opNeed how) with
  | (.fault c lv, s) => .next (s.parkFault c (opCode how) (log2Size (opSize how)) lv va)
  | (.zpage pte, s) => .next (s.askPage pte sl.task.job va sl.task.launch (.thread s.sched.cur))
  | (.ok x, s) =>
    if region x.pa = 3 && sl.task.ord && x.dev * 65536 + bits x.pa 31 16 != sl.task.dcore then
      .next (s.raise s.sched.cur (s.trapHere trapOrdered 3))
    else if region x.pa = 3 && sl.task.ord && x.dev = s.fabric.self then
      match s.touchRows s.sched.cur [(rowOf x.pa, (opWrites how))] with
      | .ok s => place s sl va x dst how
      | .wait s => .next s
      | .unlogged s => .next s
    else place s sl va x dst how

end Sys2Proof.Machine
end

