-- ==== Sys2Proof/Machine/Memory.lean ====
section
/-! DEFINITION. Memory, atomic and ordering instructions: majors 0x18 to 0x1F (spec 14 R336 to R358). -/

namespace Sys2Proof.Machine

open Sys2Proof

/-! ## Shared forms -/

/-- A global access whose address is read from register a (and b), with a destination (R336). -/
def loadForm (s : State) (pre : List (Option Trap)) (m : Demand) (ea : Word → Word → Word) (n : Nat)
    (extra : Seen → Option Trap) (how : Vals → Perform) (dst : Nat) (mod : Slot → Slot) : Res :=
  issueAfter s pre m
    (fun x => match s.misaligned (x.a.bind (fun a => if m.b.isSome then x.b.map (ea a) else some (ea a 0))) n with
      | some t => some t
      | none => extra x)
    (fun v sl => if s.acqWait then .next s else globalAccess s (mod sl) (ea v.a v.b) dst (how v))

/-- A sign-extended displacement of 12 bits (R294). -/
def disp12 (d : BitVec 12) : Word := d.signExtend 64

/-! ## LD, ST and the indexed forms (R340) -/

/-- LD (R340). -/
def execLd (d base : Reg) (sb : Bool) (func3 : BitVec 3) (disp : BitVec 12) (s : State) : Res :=
  loadForm s [] ⟨some (base.toNat, sb), none, none, [], [d.toNat]⟩ (fun a _ => a + disp12 disp) (2 ^ (func3.toNat % 4))
    noChecks (fun _ => .load func3) d.toNat id

/-- LDX: g[base] + g[b], 64 bits (R294, R340). -/
def execLdx (d base : Reg) (sb : Bool) (b : Reg) (s : State) : Res :=
  loadForm s [] ⟨some (base.toNat, sb), some (b.toNat, false), none, [], [d.toNat]⟩ (fun a b => a + b) 8
    noChecks (fun _ => .load 3) d.toNat id

/-- ST: d names the stored register, read plainly (R340); an ordered task takes subcode 0 (R165). -/
def execSt (d base : Reg) (sb : Bool) (size : BitVec 2) (disp : BitVec 12) (s : State) : Res :=
  loadForm s [s.ordTrap 0] ⟨some (base.toNat, sb), none, some d.toNat, [], []⟩ (fun a _ => a + disp12 disp) (2 ^ size.toNat)
    noChecks (fun v => .store (2 ^ size.toNat) (v.d &&& w64 (2 ^ (8 * 2 ^ size.toNat) - 1))) 0 id

/-- STX (R340). -/
def execStx (d base : Reg) (sb : Bool) (b : Reg) (s : State) : Res :=
  loadForm s [s.ordTrap 0] ⟨some (base.toNat, sb), some (b.toNat, false), some d.toNat, [], []⟩ (fun a b => a + b) 8
    noChecks (fun v => .store 8 v.d) 0 id

/-! ## Synchronising and tag instructions (R342) -/

/-- LDF: waits until full, reads, sets empty (R342). -/
def execLdf (o : Ops2) (s : State) : Res :=
  loadForm s [] ⟨some (o.a.toNat, o.sa), none, none, [], [o.d.toNat]⟩ (fun a _ => a) 8
    (fun _ => if o.t then some s.badOperand else none) (fun _ => .syncRead) o.d.toNat id

/-- The G3 forms whose value is in g[b]: the address is g[a] alone. -/
def storeDemand (o : OpsAB) : Demand := ⟨some (o.a.toNat, o.sa), some (o.b.toNat, o.sb), none, [], []⟩

/-- A global access at g[a] with a value in g[b]. -/
def valueForm (s : State) (pre : List (Option Trap)) (o : OpsAB) (n : Nat) (k : Vals → Slot → Res) : Res :=
  issueAfter s pre (storeDemand o) (fun x => s.misaligned x.a n) (fun v sl => if s.acqWait then .next s else k v sl)

/-- STF: waits, losing its turns, for a posted count of zero and for the slot's scratchpad writes, then waits until
empty, writes and sets full (R342, R268). -/
def execStf (o : OpsAB) (s : State) : Res :=
  valueForm s [s.ordTrap 0] o 8 (fun v sl =>
    if s.coreRelease then globalAccess s sl v.a 0 (.syncWrite v.b) else .next s)

/-- TAGR (R342). -/
def execTagr (o : Ops2) (s : State) : Res :=
  loadForm s [] ⟨some (o.a.toNat, o.sa), none, none, [], [o.d.toNat]⟩ (fun a _ => a) 8
    (fun _ => if o.t then some s.badOperand else none) (fun _ => .tagRead) o.d.toNat id

/-- TAGW.E (R342). -/
def execTagwE (a : Reg) (sa : Bool) (s : State) : Res :=
  loadForm s [s.ordTrap 0] ⟨some (a.toNat, sa), none, none, [], []⟩ (fun a _ => a) 8 noChecks (fun _ => .tagWrite false) 0 id

/-- TAGW.F (R342). -/
def execTagwF (a : Reg) (sa : Bool) (s : State) : Res :=
  loadForm s [s.ordTrap 0] ⟨some (a.toNat, sa), none, none, [], []⟩ (fun a _ => a) 8 noChecks (fun _ => .tagWrite true) 0 id

/-! ## Acquire, release, deferred stores (R343, R344) -/

/-- The steps of a release at a scope (R266): begun at the first attempt and not begun again (R343); the instruction
loses its turns until they are complete. -/
def withRelease (s : State) (scope : BitVec 3) (sl : Slot) (k : State → Slot → Res) : Res :=
  if scope = 0 then k s sl
  else
    let s := if sl.relBegun then s else s.releaseLines s.here scope.toNat
    if s.me.posted = 0 && !s.scrPending && !scopeOut s s.here scope.toNat then k s { sl with relBegun := false }
    else .next (s.setMe { s.me with relBegun := true })

/-- LDACQ: a 64-bit load, then an acquire at the scope (R343, R267). -/
def execLdacq (o : Ops2) (scope : BitVec 3) (s : State) : Res :=
  loadForm s [] ⟨some (o.a.toNat, o.sa), none, none, [], [o.d.toNat]⟩ (fun a _ => a) 8
    (fun _ => if o.t then some s.badOperand else none) (fun _ => .load 3) o.d.toNat
    (fun sl => { sl with acq := some scope })

/-- STREL: a release at the scope, then a 64-bit store (R343, R266). -/
def execStrel (o : OpsAB) (scope : BitVec 3) (s : State) : Res :=
  valueForm s [s.ordTrap 0] o 8 (fun v sl =>
    withRelease s scope sl (fun s sl => globalAccess s sl v.a 0 (.store 8 v.b)))

/-- Appends a DSTORE record to the current entry of the task, or takes a new one (R173). -/
def appendDstore (s : State) (k spec : Nat) (o : Ordered) (r : Word × Word) : LogRes :=
  let c := s.coreAt k
  let mine := c.log.filter (fun e => e.spec == spec && (match e.kind with
    | .dstore _ => true
    | _ => false))
  match mine.getLast? with
  | some e =>
    match e.kind with
    | .dstore l =>
      if l.length < 4 then .ok (s.logStore k o { e with kind := .dstore (l ++ [r]) }) else s.takeLog k o spec (.dstore [r])
    | _ => s.takeLog k o spec (.dstore [r])
  | none => s.takeLog k o spec (.dstore [r])

/-- STD: a store in a plain task; a deferred record in an ordered one (R344). -/
def execStd (o : OpsAB) (size : BitVec 2) (s : State) : Res :=
  valueForm s [] o (2 ^ size.toNat) (fun v sl =>
    let val := v.b &&& w64 (2 ^ (8 * 2 ^ size.toNat) - 1)
    if !s.ordered then globalAccess s sl v.a 0 (.store (2 ^ size.toNat) val)
    else match translate s s.here sl.task.job (!sl.sup) v.a .write with
      | (.fault c lv, s) => .next (s.parkFault c accStore size.toNat lv v.a)
      | (.zpage pte, s) => .next (s.askPage pte sl.task.job v.a sl.task.launch (.thread s.sched.cur))
      | (.ok x, s) =>
        if region x.pa = 3 then .next (s.raise s.sched.cur (s.trapHere trapOrdered 3))
        else if modOf sl.task.dcore != s.fabric.self then .next (s.askHome (sl.parkFor s.sched.ir 0))
        else match s.orderedOf (s.partOf sl.task.launch) with
          | none => .next (s.retire sl)
          | some od =>
            match appendDstore s (coreOf sl.task.dcore) sl.task.spec od
              (w64 (size.toNat * 2 ^ 61 + v.a.toNat % 2 ^ 54), val) with
            | .ok s => .next (s.retire sl)
            | .wait s => .next s
            | .unlogged s => .next s)

/-! ## HOME and VISIT (R345) -/

/-- HOME: the return to the dispatching core (R345). -/
def execHome (s : State) : Res :=
  if s.acqWait then .next s
  else if s.onDcore then .next (s.retire s.me) else s.goHome

/-- VISIT: to the home of an address, without accessing it (R345). -/
def execVisit (a : Reg) (sa : Bool) (s : State) : Res :=
  issue s ⟨some (a.toNat, sa), none, none, [], []⟩
    (fun _ => if s.me.intrap && !s.onDcore then some s.badOperand else none) (fun v sl =>
    if s.acqWait || s.mustWait then .next s
    else match translate s s.here sl.task.job (!sl.sup) v.a .read with
      | (.fault c lv, s) => .next (s.parkFault c accMigrate 0 lv v.a)
      | (.zpage pte, s) => .next (s.askPage pte sl.task.job v.a sl.task.launch (.thread s.sched.cur))
      | (.ok x, s) =>
        if x.ty = 2 then .next (s.parkFault causePerm accMigrate 0 0 v.a)
        else if x.dev = s.fabric.self && !paOk s x.pa then .next (s.parkFault causePhysaddr accMigrate 0 0 v.a)
        else if (x.dev = s.fabric.self && servesHome s.here x.pa) || sl.intrap then .next (s.retire sl)
        else if s.me.mayLeave then
          .next (s.migrate s.sched.cur s.sched.ir.pc x.dev
            (if x.dev = s.fabric.self then s.pickHome x.pa else homeOf x.pa) (some x.pa))
        else .next s)

/-! ## Atomics and reductions (R349, R350) -/

/-- The size code of an atomic: 01 and 10 are 32 bits, 11 is 64 (R349). -/
def amoBytes (w : BitVec 2) : Nat := if w = 3 then 8 else 4

/-- An atomic at g[a]. A transient destination takes the illegal-operand trap (R226). -/
def atomicForm (s : State) (o : Ops3) (third : Bool) (runs dests : List Nat) (n : Nat) (odd : Bool)
    (how : Vals → Perform) : Res :=
  issueAfter s [s.ordTrap 0] ⟨some (o.a.toNat, o.sa), some (o.b.toNat, o.sb), if third then some o.d.toNat else none, runs, dests⟩
    (fun x => if o.t || odd then some s.badOperand else s.misaligned x.a n)
    (fun v sl => if s.acqWait then .next s else globalAccess s sl v.a o.d.toNat (how v))

/-- AMO (R349). -/
def execAmo (o : Ops3) (aop : BitVec 4) (width : BitVec 2) (s : State) : Res :=
  atomicForm s o false [] [o.d.toNat] (amoBytes width) false (fun v => .amo aop width v.b)

/-- CAS: g[d] is the expected value, read plainly at issue (R349). -/
def execCas (o : Ops3) (s : State) : Res :=
  atomicForm s o true [] [o.d.toNat] 8 false (fun v => .cas v.d v.b)

/-- CAS2: d and b name even registers, each with the next (R349, R223). -/
def execCas2 (o : Ops3) (s : State) : Res :=
  atomicForm s o true [o.d.toNat + 1, o.b.toNat + 1] [o.d.toNat, o.d.toNat + 1] 16
    (o.d.toNat % 2 == 1 || o.b.toNat % 2 == 1)
    (fun v => .cas2 v.d (v.run.getD 0 0) v.b (v.run.getD 1 0))

/-- RED: posted; reads g[b] at issue (R350). -/
def execRed (o : OpsAB) (op : BitVec 4) (ty : BitVec 2) (s : State) : Res :=
  valueForm s [s.ordTrap 0] o (if ty.toNat < 2 then 4 else 8) (fun v sl =>
    globalAccess s sl v.a 0 (.red op ty v.b))

/-! ## Fences, promotion, ACKW, phases (R351 to R355) -/

/-- FENCE: acq, rel, acqrel at a scope (R352): the release comes first, then the acquire. -/
def execFence (kind : BitVec 2) (scope : BitVec 3) (s : State) : Res :=
  if s.acqWait then .next s
  else if kind = 0 then .next (s.retire { s.me with acq := some scope })
  else withRelease s scope s.me (fun s _ =>
    .next (s.retire { s.me with relBegun := false, acq := if kind = 1 then none else some scope }))

/-- Whether a cluster of this module lies in a partition (R135). -/
def inPartition (s : State) (part cl : Nat) : Bool :=
  s.work.partcfg.any (fun x => let w := x.2.toNat
    bit w 0 && bits w 63 48 == part && bits w 31 22 ≤ cl && cl < bits w 31 22 + bits w 21 11)

/-- The invalid-target trap with the identifier named (R415). -/
def State.badTarget (s : State) (id : Nat) : Trap := ⟨trapTarget, 0, w64 id, s.sched.ir.pc⟩

/-- The drops that end a PROMOTE at a core (R269): the clean lines of its own cluster cache, and those of the remote-line
cache. -/
def State.endPromote (s : State) (k : Nat) : State :=
  s.dropClean (fun l => (isTile s.part k && l.loc == clusterOf k) || (l.loc == remoteCache && l.dev != s.fabric.self))

/-- Whether write-backs of a cluster cache are not acknowledged. -/
def writingBack (s : State) (cl : Nat) : Bool := s.mem.wbOut.any (fun x => x.1 == cl)

/-- PROMOTE (R354, R269): the named cluster writes back its dirty PHASED lines; once every write-back is acknowledged the
slot's own cluster cache and the remote-line cache drop clean lines. -/
def execPromote (a : Reg) (sa : Bool) (s : State) : Res :=
  issue s ⟨some (a.toNat, sa), none, none, [], []⟩
    (fun x => x.a.bind (fun v =>
      let m := bits v.toNat 23 10
      let cl := bits v.toNat 9 0
      if m = s.fabric.self && !inPartition s (s.partOfTask s.me.task) cl then
        some (s.badTarget (v.toNat % 2 ^ 24)) else none))
    (fun v sl =>
      let m := bits v.a.toNat 23 10
      let cl := bits v.a.toNat 9 0
      if s.acqWait then .next s
      else if m != s.fabric.self then
        .next ((s.setMe (sl.parkFor s.sched.ir 0)).ask 2 m 0 s.here s.sched.cur.slot (s.partOfTask sl.task) sl.task.launch
          (.promote cl s.sched.cur))
      else
        let s := if sl.relBegun then s else s.writeBackAll (fun l => l.loc == cl)
        if writingBack s cl then .next (s.setMe { s.me with relBegun := true })
        else .next ((s.endPromote s.here).retire { sl with relBegun := false }))

/-- Whether a graph has completed. -/
def graphDone (g : Graph) : Bool := 3 ≤ g.st

/-- Whether the phase of a partition advances: its set is not empty and every graph in it has completed (R355). -/
def phaseReady (s : State) (part : Nat) : Bool :=
  let set := mget s.work.phaseSets part []
  !set.isEmpty && set.all (fun g => (mget? s.work.graphs g).elim true graphDone)

/-- PHASE (R355): adds a graph of the job to the set of the current phase; an ordered task takes subcode 8 (R339). -/
def execPhase (o : OpsDA) (s : State) : Res :=
  issueAfter s [s.ordTrap 8] ⟨some (o.a.toNat, o.sa), none, none, [], [o.d.toNat]⟩ noChecks (fun v sl =>
    if s.acqWait || s.mustWait then .next s
    else if modOf sl.task.dcore != s.fabric.self then .next (s.askHome ((sl.pendG o.d.toNat).advance s.sched.ir))
    else
      let g := bits v.a.toNat 15 0
      let part := s.partOfTask sl.task
      let ph := s.phaseOf part
      match mget? s.work.graphs g with
      | none => .next (s.retire (s.writeG sl o.d.toNat (w64 (2 * 2 ^ 62 + ph))))
      | some gr =>
        if gr.job != sl.task.job then .next (s.retire (s.writeG sl o.d.toNat (w64 (2 * 2 ^ 62 + ph))))
        else if graphDone gr then .next (s.retire (s.writeG sl o.d.toNat (w64 (2 ^ 62 + ph))))
        else
          let set := numIns (mget s.work.phaseSets part []) g
          let s := s.setWork { s.work with phaseSets := mput s.work.phaseSets part set }
          .next (s.retire (s.writeG sl o.d.toNat (w64 ph))))

/-- ACKW: a release, and every stream of the slot has produced its token (R353). -/
def execAckw (scope : BitVec 3) (s : State) : Res :=
  if s.acqWait || s.me.streams0 != 0 || s.me.streams1 != 0 then .next s
  else withRelease s scope s.me (fun s _ => .next (s.retire { s.me with relBegun := false }))

/-! ## Barriers (R357, R358) -/

/-- The join list after a request. -/
def joinAfter (l : List Word) (va : Word) (self join : Bool) : List Word :=
  if !self then l else if join then l ++ [va] else l.filter (fun x => x != va)

/-- BARJOIN and BARLEAVE: the request of the issuing task itself when g[b] is 0, else announced joins (R358). -/
def barrierMember (s : State) (o : OpsDAB) (join : Bool) : Res :=
  let list := s.me.task.joins
  issueAfter s [s.ordTrap 8] ⟨some (o.a.toNat, o.sa), some (o.b.toNat, o.sb), none, [], [o.d.toNat]⟩
    (fun x => match s.misaligned x.a 32 with
      | some t => some t
      | none => match x.a, x.b with
        | some a, some b =>
          if b != 0 then none
          else if join && (4 ≤ list.length || list.contains a) then some s.badOperand
          else if !join && !list.contains a then some s.badOperand else none
        | _, _ => none)
    (fun v sl =>
      if s.acqWait then .next s
      else
        let sl := { sl with task := { sl.task with joins := joinAfter list v.a (v.b == 0) join } }
        globalAccess s sl v.a o.d.toNat
          (.barrier (if v.b = 0 then (if join then .joinSelf else .leaveSelf)
            else if join then .joinAnnounce v.b else .leaveAnnounce v.b) 0))

/-- BARJOIN (R358). -/
def execBarjoin (o : OpsDAB) (s : State) : Res := barrierMember s o true

/-- BARLEAVE (R358). -/
def execBarleave (o : OpsDAB) (s : State) : Res := barrierMember s o false

/-- BARARR and BARARN: a release, then an arrival on a barrier of the join list (R357, R358). -/
def barrierArrive (s : State) (o : OpsDA) (scope : BitVec 3) (wait : Bool) : Res :=
  issueAfter s [s.ordTrap 8] ⟨some (o.a.toNat, o.sa), none, none, [], [o.d.toNat]⟩
    (fun x => match s.misaligned x.a 32 with
      | some t => some t
      | none => x.a.bind (fun a => if s.me.task.joins.contains a then none else some s.badOperand))
    (fun v sl => if s.acqWait then .next s
      else withRelease s scope sl (fun s sl =>
        globalAccess s (if wait then { sl with acq := some scope } else sl) v.a o.d.toNat (.barrier (.arrive wait) scope)))

/-- BARARR: parks until the episode is released, then acquires (R358). -/
def execBararr (o : OpsDA) (scope : BitVec 3) (s : State) : Res := barrierArrive s o scope true

/-- BARARN: the result reaches g[d] and the slot goes on (R358). -/
def execBararn (o : OpsDA) (scope : BitVec 3) (s : State) : Res := barrierArrive s o scope false

end Sys2Proof.Machine
end

