-- ==== Sys2Proof/Machine/Control.lean ====
section
/-! DEFINITION. Branches, calls, jumps and iteration nests: majors 0x10 to 0x14 (spec 13 R330 to R335, 06 R147, R148). -/

namespace Sys2Proof.Machine

open Sys2Proof

/-- The issuing slot continues at a target reached by a branch (R332). -/
def State.branch (s : State) (sl : Slot) (target : Word) : State := s.setMe (sl.goTo s.sched.ir target false true)

/-- PC + 4·disp (R330). -/
def State.target (s : State) (disp : Word) : Word := s.sched.ir.pc + 4 * disp

/-- BR (R330). -/
def execBr (disp : BitVec 26) (s : State) : Res := .next (s.branch s.me (s.target (disp.signExtend 64)))

/-- CALL: g[d] receives the fall-through address (R330). -/
def execCall (d : Reg) (disp : BitVec 21) (s : State) : Res :=
  issue s { noDemand with dests := [d.toNat] } noChecks (fun _ sl =>
    .next (s.branch (s.writeG sl d.toNat s.sched.ir.npc) (s.target (disp.signExtend 64))))

/-- A conditional branch on g[a], read plainly (R330). -/
def condBranch (a : Reg) (disp : BitVec 12) (p : Word → Bool) (s : State) : Res :=
  issue s ⟨some (a.toNat, false), none, none, [], []⟩ noChecks (fun v sl =>
    .next (if p v.a then s.branch sl (s.target (disp.signExtend 64)) else s.retire sl))

/-- BRZ (R330). -/
def execBrz (a : Reg) (disp : BitVec 12) (s : State) : Res := condBranch a disp (fun x => x == 0) s

/-- BRNZ (R330). -/
def execBrnz (a : Reg) (disp : BitVec 12) (s : State) : Res := condBranch a disp (fun x => x != 0) s

/-- BRLTZ (R330). -/
def execBrltz (a : Reg) (disp : BitVec 12) (s : State) : Res := condBranch a disp (fun x => x.getLsbD 63) s

/-- BRGEZ (R330). -/
def execBrgez (a : Reg) (disp : BitVec 12) (s : State) : Res := condBranch a disp (fun x => !x.getLsbD 63) s

/-- BRBIT (R330). -/
def execBrbit (a : Reg) (bit : BitVec 6) (disp : BitVec 12) (s : State) : Res :=
  condBranch a disp (fun x => x.getLsbD bit.toNat) s

/-- JMP: a is read first, then g[d] receives the fall-through address (R331). -/
def execJmp (o : OpsDA) (s : State) : Res :=
  issue s ⟨some (o.a.toNat, o.sa), none, none, [], [o.d.toNat]⟩ noChecks (fun v sl =>
    .next (s.branch (s.writeG sl o.d.toNat s.sched.ir.npc) v.a))

/-! ## Iteration nests -/

/-- The cluster of the task's dispatching core (R333). -/
def nestCluster (t : Task) : Nat := clusterOf (coreOf t.dcore)

/-- A guest of another module parks at its instruction until a unit of that module answers (R387). -/
def foreignRequest (s : State) (sl : Slot) (dst : Nat) : State := s.askHome (sl.parkFor s.sched.ir dst)

/-- The lowest number below n that is not a key of a map. -/
def freeKey {α : Type} (m : Map α) : Nat → Nat → Option Nat
  | _, 0 => none
  | i, n + 1 => if (mget? m i).isSome then freeKey m (i + 1) n else some i

/-- The lowest participant entry of a fetcher that is free (R230: 256 entries). -/
def freePart (ns : Map Nest) : Nat → Nat → Option Nat
  | _, 0 => none
  | i, n + 1 => if ns.any (fun x => (mget? x.2.parts i).isSome) then freePart ns (i + 1) n else some i

/-- The result word of NEST (R334). -/
def nestResult (status n : Nat) : Word := w64 (status * 2 ^ 62 + n)

/-- A nest record's words, when it obeys R147 and R334: N0, N1, N2, NDIM, MINCHUNK. -/
def nestOf (w0 w1 w2 w3 : Nat) : Option (Nat × Nat × Nat × Nat × Nat) :=
  let ndim := bits w3 17 16
  let minc := bits w3 15 0
  let n0 := if ndim = 3 then w0 else 1
  let n1 := if 2 ≤ ndim then w1 else 1
  let t := n0 * n1 * w2
  if ndim = 0 || minc = 0 || bits w3 63 18 != 0 || t = 0 || 2 ^ 48 - 1 < t then none else some (n0, n1, w2, ndim, minc)

/-- Joins the issuing slot to a nest of its fetcher (R334). -/
def joinNest (s : State) (sl : Slot) (cl n : Nat) (ne : Nest) (d : Nat) (created : Bool) : Res :=
  let c := s.cluster cl
  match freePart c.nests 0 256 with
  | none => .next (s.retire (s.writeG sl d (nestResult 3 0)))
  | some p =>
    let s := s.setCluster cl { c with nests := mput c.nests n { ne with parts := mput ne.parts p (0, 0) } }
    let sl := { sl with task := { sl.task with nest := some (cl, n, p) } }
    .next (s.retire (s.writeG sl d (nestResult (if created then 0 else 1) n)))

/-- NEST (R334): joins the live nest of the launch with this record, or creates one from the record. -/
def execNest (o : OpsDA) (s : State) : Res :=
  issueAfter s [s.ordTrap 7] ⟨some (o.a.toNat, o.sa), none, none, [], [o.d.toNat]⟩
    (fun x => if s.me.task.nest.isSome then some s.badOperand else s.misaligned x.a 32)
    (fun v sl =>
      if sl.posted != 0 || s.acqWait then .next s
      else if modOf sl.task.dcore != s.fabric.self then .next (foreignRequest s sl o.d.toNat)
      else
        let cl := nestCluster sl.task
        match (s.cluster cl).nests.find? (fun x => x.2.launch == sl.task.launch && x.2.addr == v.a) with
        | some (n, ne) => joinNest s sl cl n ne o.d.toNat false
        | none =>
          match freeKey (s.cluster cl).nests 0 16 with
          | none => .next (s.retire (s.writeG sl o.d.toNat (nestResult 2 0)))
          | some n =>
            match translate s s.here sl.task.job (!sl.sup) v.a .read with
            | (.fault c lv, s) => .next (s.parkFault c accLoad 5 lv v.a)
            | (.zpage pte, s) => .next (s.askPage pte sl.task.job v.a sl.task.launch (.thread s.sched.cur))
            | (.ok x, s) =>
              match unitLine s (unitLoc cl) sl.task.job sl.task.launch v.a x.dev x.pa with
              | .wait s => .next s
              | .fault c => .next ((s.clearDead (unitLoc cl) x.dev (x.pa / 64)).parkFault c accLoad 5 0 v.a)
              | .ok data s =>
                if x.dev = s.fabric.self && (List.range 4).any (fun i => s.isPoison (x.pa + 8 * i)) then
                  .next (s.raise s.sched.cur ⟨trapPoison, 1, v.a, s.sched.ir.pc⟩)
                else
                  let w (i : Nat) : Nat := bytesNat ((data.drop (x.pa % 64 + 8 * i)).take 8)
                  match nestOf (w 0) (w 1) (w 2) (w 3) with
                  | none => .next (s.raise s.sched.cur s.badOperand)
                  | some (n0, n1, n2, ndim, minc) =>
                    joinNest s sl cl n ⟨v.a, sl.task.launch, n0, n1, n2, ndim, minc, 0, n0 * n1 * n2, []⟩ o.d.toNat true)

/-- A claim (R147): the size of the chunk handed out. -/
def claimSize (remaining minchunk p : Nat) : Nat :=
  min (max minchunk ((remaining + 2 * p - 1) / (2 * p))) remaining

/-- The values ITER writes for index L, outermost first (R148). -/
def unpackIndex (ne : Nest) (l : Nat) : List Word :=
  let i2 := l % ne.n2
  let i1 := l / ne.n2 % ne.n1
  let i0 := l / (ne.n1 * ne.n2)
  if ne.ndim = 1 then [w64 i2] else if ne.ndim = 2 then [w64 i1, w64 i2] else [w64 i0, w64 i1, w64 i2]

/-- The run of n registers from d. -/
def regRun (d n : Nat) : List Nat := (List.range n).map (fun i => d + i)

/-- Writes a run of registers. -/
def State.writeRun (s : State) (sl : Slot) (d : Nat) : List Word → Slot
  | [] => sl
  | v :: l => s.writeRun (s.writeG sl d v) (d + 1) l

/-- ITER (R335): the next index of the slot's chunk, a new chunk when it is used up, or the end. -/
def execIter (d : Reg) (n : BitVec 2) (s : State) : Res :=
  issueAfter s [s.ordTrap 7] { noDemand with dests := regRun d.toNat n.toNat }
    (fun _ => if s.me.task.nest.isNone || d = 0 then some s.badOperand else none)
    (fun _ sl =>
      match sl.task.nest with
      | none => .next s
      | some (cl, k, p) =>
        if modOf sl.task.dcore != s.fabric.self then .next (foreignRequest s sl d.toNat)
        else
          let c := s.cluster cl
          match mget? c.nests k with
          | none => .next (s.raise s.sched.cur s.badOperand)
          | some ne =>
            if n.toNat != ne.ndim then .next (s.raise s.sched.cur s.badOperand)
            else
              let (base, rem) := mget ne.parts p (0, 0)
              let size := claimSize ne.remaining ne.minchunk ne.parts.length
              let (base, rem, ne) := if 0 < rem then (base, rem, ne)
                else (ne.next, size, { ne with next := ne.next + size, remaining := ne.remaining - size })
              if rem = 0 then
                let s := s.leaveNest (some (cl, k, p))
                let sl := { sl with task := { sl.task with nest := none } }
                .next (s.retire (s.writeRun sl d.toNat (List.replicate n.toNat (BitVec.allOnes 64))))
              else
                let ne := { ne with parts := mput ne.parts p (base + 1, rem - 1) }
                let s := s.setCluster cl { c with nests := mput c.nests k ne }
                .next (s.retire (s.writeRun sl d.toNat (unpackIndex ne base))))

end Sys2Proof.Machine
end

