-- ==== Sys2Proof/WellFormed.lean ====
section
/-! DEFINITION. Which codes an instruction accepts: the widths, rounding modes, scopes, types, parts and limits
that spec chapters 12 to 16 allow. A word whose codes break one of these is not that instruction (R303). -/

namespace Sys2Proof

/-- Rounding codes 000 to 100 (R299). -/
def rmOk (rm : BitVec 3) : Bool := rm.toNat ≤ 4

/-- Scope codes 0 to 5 (R265). -/
def scopeOk (s : BitVec 3) : Bool := s.toNat ≤ 5

/-- Scopes of TLBI: core to fabric (R419). -/
def tlbiScope (s : BitVec 3) : Bool := s != 0 && scopeOk s

/-- Integer element types .i8 .i16 .i32 .n8 .n16 .n32 (R299, R361). -/
def intTy (t : BitVec 4) : Bool := t.toNat ∈ [0, 1, 2, 4, 5, 6]

/-- Float element types .f16 .bf16 .f32 (R299, R361). -/
def floatTy (t : BitVec 4) : Bool := t.toNat ∈ [8, 9, 10]

/-- Element types that vector instructions accept (R361). -/
def elemTy (t : BitVec 4) : Bool := intTy t || floatTy t

/-- Types VCVT accepts beside .f32 (R366). -/
def cvtTy (t : BitVec 4) : Bool := intTy t || t == 8 || t == 9

/-- Parts of a narrow type: 4 for one byte, 2 for two, 1 for four (R366). -/
def partOk (t : BitVec 4) (k : BitVec 2) : Bool :=
  if t == 0 || t == 4 then true
  else if t == 2 || t == 6 then k == 0
  else k.toNat < 2

/-- Table code types .t4 .t6 .t8 (R299, R367). -/
def codeTy (t : BitVec 4) : Bool := t.toNat ∈ [12, 13, 14]

/-- Types of VPACK and VUNPACK (R372). -/
def packTy (t : BitVec 4) : Bool := t.toNat ∈ [0, 1, 4, 5, 8, 9]

/-- Operation and width pairs of AMO (R349). -/
def amoOk (aop : BitVec 4) (w : BitVec 2) : Bool :=
  if aop.toNat ≤ 3 || aop == 8 then w != 0
  else if aop == 4 || aop == 5 then w == 1 || w == 3
  else if aop == 6 || aop == 7 then w == 2 || w == 3
  else false

/-- Operation and type pairs of RED (R350). -/
def redOk (op : BitVec 4) (ty : BitVec 2) : Bool :=
  if op.toNat ≤ 3 then true
  else if op == 4 || op == 5 then ty == 0 || ty == 2
  else if op == 6 || op == 7 then ty == 1 || ty == 3
  else false

/-- The func values of a MOVQ pop (R389). A port that no pop names keeps func 0 for the operand trap (R223). -/
def popFuncOk (q : BitVec 3) (func : BitVec 8) : Bool :=
  if q.toNat = 3 then func.toNat ≤ 4
  else if q.toNat = 2 || q.toNat = 4 || q.toNat = 5 then func.toNat ≤ 1
  else func == 0

/-- A range of scratchpad rows that stays below row 768 (R383); nrow is the row count minus one. -/
def rowsOk (row nrow : BitVec 10) : Bool := row.toNat + nrow.toNat + 1 ≤ 768

/-- The limits of a copy command's fields (R383). -/
def cpOk (o : CpOps) : Bool :=
  rowsOk o.row o.nrow && o.va.toNat % 64 == 0 && o.stride.toNat % 64 == 0

/-- The field limit of MMA that no table decides: X is 0 when S is 0 (R377). -/
def mmaOk (o : MmaOps) : Bool := o.s || o.x == 0

/-- The limits of MMST and MMLD (R380). -/
def mmstOk (o : MmstOps) : Bool :=
  o.row0.toNat + o.nr.toNat + 1 ≤ 16 && o.row.toNat + 2 * (o.nr.toNat + 1) ≤ 768

/-- A well-formed instruction: its codes are ones its definition lists. -/
def Instr.wf (i : Instr) : Bool :=
  match i with
  | .add _ w | .sub _ w | .mul _ w | .mulh _ w | .mulhn _ w | .madd _ w | .div _ w | .divn _ w | .rem _ w | .remn _ w | .min _ w | .max _ w | .minn _ w | .maxn _ w | .abs _ w | .shl _ w | .shr _ w | .sar _ w | .rol _ w | .ror _ w | .clz _ w | .ctz _ w | .popc _ w | .sext _ w | .zext _ w => w != 3
  | .fadd _ rm _ | .fsub _ rm _ | .fmul _ rm _ | .ffma _ rm _ | .fdiv _ rm _ | .fsqrt _ rm _ | .frnd _ rm _ => rmOk rm
  | .fcvt _ _ rm _ | .fcvti _ _ rm _ | .icvtf _ _ rm _ => rmOk rm
  | .iter _ n => n != 0
  | .ld _ _ _ func3 _ => func3 != 7
  | .ldacq _ scope => scopeOk scope
  | .strel _ scope => scopeOk scope
  | .amo _ aop width => amoOk aop width
  | .red _ op ty => redOk op ty
  | .fence kind scope => kind != 3 && scopeOk scope
  | .ackw scope => scopeOk scope
  | .bararr _ scope | .bararn _ scope => scopeOk scope
  | .ldsN o => o.size != 3
  | .vadd _ ty | .vsub _ ty | .vmul _ ty | .vmin _ ty | .vmax _ ty | .vcmpEq _ ty | .vcmpNe _ ty | .vcmpLt _ ty | .vcmpLe _ ty | .vperm _ ty | .vfma _ ty | .vsel _ ty | .vabs _ ty | .vneg _ ty | .vsum _ ty | .vmaxr _ ty | .vmask _ ty => elemTy ty
  | .vbcst _ _ ty _ => elemTy ty
  | .vaddSat _ ty | .vsubSat _ ty | .vshl _ ty | .vshr _ ty => intTy ty
  | .vshlS _ ty _ | .vshrS _ ty _ => intTy ty
  | .vcmpUn _ ty => floatTy ty
  | .vscl _ ty _ => floatTy ty
  | .vcvt _ ty _ k => cvtTy ty && partOk ty k
  | .vdec _ ty k | .venc _ ty k => codeTy ty && (ty == 0xC || k.toNat < 4)
  | .vpack _ ty | .vunpackLo _ ty | .vunpackHi _ ty => packTy ty
  | .movqPush _ _ _ func => func == 0
  | .movqPop _ q func => popFuncOk q func
  | .tlbiPage _ scope => tlbiScope scope
  | .tlbiJob _ _ scope => tlbiScope scope
  | .tlbiAll scope => tlbiScope scope
  | .mma _ o | .mmaz _ o => mmaOk o
  | .mmst _ o | .mmld _ o => mmstOk o
  | .mmwait _ _ row _ => row.toNat < 768
  | .cpget o | .cpput o | .cpww o => cpOk o && o.mask == 0
  | .cpmc o | .cpws o => cpOk o && o.core == 0 && o.mask != 0
  | .cpfill _ row nrow _ => rowsOk row nrow
  | .cptag _ row nrow act => rowsOk row nrow && act != 3
  | .cpwait _ row _ => row.toNat < 768
  | .nop | .trap .. | .bkpt | .stamp .. | .feat .. | .impl ..
  | .srr .. | .and .. | .or .. | .xor .. | .andn .. | .orn ..
  | .xnor .. | .brev .. | .bswap .. | .bext .. | .bins .. | .addsc ..
  | .cmpeq .. | .cmpne .. | .cmplt .. | .cmpltn .. | .cmple .. | .cmplen ..
  | .sel .. | .addi .. | .andi .. | .ori .. | .xori .. | .shli ..
  | .shri .. | .sari .. | .cmpeqi .. | .cmplti .. | .muli .. | .ldi ..
  | .ldih .. | .fmin .. | .fmax .. | .fabs .. | .fneg .. | .fcpys ..
  | .fcmpeq .. | .fcmplt .. | .fcmple .. | .fcmpun .. | .fclass .. | .br ..
  | .call .. | .brz .. | .brnz .. | .brltz .. | .brgez .. | .brbit ..
  | .jmp .. | .nest .. | .ldx .. | .st .. | .stx .. | .ldf ..
  | .stf .. | .tagr .. | .tagwE .. | .tagwF .. | .std .. | .home
  | .visit .. | .cas .. | .cas2 .. | .promote .. | .phase .. | .barjoin ..
  | .barleave .. | .lds .. | .sts .. | .ldbit .. | .stbit .. | .pset ..
  | .pget .. | .rowtagR .. | .rowtagF .. | .rowtagE .. | .rowtagC .. | .vand ..
  | .vor .. | .vxor .. | .vexp .. | .vrcp .. | .vrsq .. | .vmov ..
  | .quit | .spawn .. | .spawnw .. | .post .. | .launch .. | .graph ..
  | .cancel .. | .joinw .. | .send .. | .recv .. | .recvp .. | .vtkey ..
  | .levee .. | .irrev .. | .sendvt .. | .callt .. | .waitf .. | .pollf ..
  | .canf .. | .tokc .. | .tokenc .. | .tokdec .. | .maskq .. | .lease ..
  | .leaserel .. | .leaseq .. | .eret | .srw .. | .wsopen .. | .wsclose ..
  | .keykill .. | .haltgStop .. | .haltgStopl .. | .haltgResume .. | .keySweepDone .. | .tlbiComplete ..
  | .mmnop .. | .mmz .. | .mmwaitMatch .. | .mmsig .. | .mmend .. | .cpnop
  | .cpwaitMatch .. | .cpsig .. | .cpend | .copySourceRowFull .. | .copyWritebackAck .. | .lineRecall ..
  | .futArgTake .. | .futArgLen .. | .futArgDeadline .. | .futArgTool .. | .futArgCopy .. | .futResolve ..
  | .futFail .. | .capProbe .. | .capCsrWrite .. | .toolAccessFault .. | .toolException .. | .jobstart ..
  | .jobcancel .. | .futres .. | .mgmtReadCounters .. | .mgmtAttest .. | .mgmtLoadKey .. | .mgmtSetPowerCap ..
  | .mgmtFirmwareImage .. | .h2dBadType .. | .h2dEnqueueDrop | .d2hDequeue | .mboxIrqTimeout | .atsCompletion ..
  | .priResponseSuccess .. | .priResponseInvalid .. | .priResponseFailure .. | .priTimeout .. | .atsInvalidateRequest .. | .atsInvalidateCompletion ..
  | .poolCompletion .. | .poolTimeout .. | .cxlwinWrite .. | .uetReplyArrival .. | .uetUndeliverable .. | .faultRingRetry ..
  | .replayQueueFree | .freplayReplay .. | .freplayAbort .. | .heatDecay | .heatcfgWrite .. | .migrate ..
  | .compress .. | .decompress .. | .churnQOverflow .. | .freeze .. | .copy .. | .release ..
  | .done .. | .zPageDecompress .. | .freeFramePoll | .dispatchStep .. | .waitWordRead .. | .footprintFetchDone ..
  | .save .. | .saveComplete .. | .taskPacketArrival .. | .overflowReturn .. | .messageArrival .. | .messagePlacement ..
  | .msgack .. | .spawnRequestArrival .. | .spawnwResend .. | .primarySlotFree .. | .launchComplete .. | .phaseAdvance ..
  | .lmigGo .. | .lmigStreamDone | .lmigFwdClear .. | .qovfWrite .. | .partcfgWrite .. | .corecfgWrite ..
  | .mxmodeWrite .. | .fabricCfgWrite .. | .registerWrite .. | .routeHop .. | .norouteArrival .. | .homeAccess ..
  | .migrantArrival .. | .migrantEntry .. | .mack .. | .mnak .. | .migrantResend .. | .pwack ..
  | .pwackCombineTimeout .. | .weirMark .. | .weirTick | .weirFree | .weirAdmit .. | .peerOwnershipRequest ..
  | .peerRecallDone .. | .peerLoss .. | .gprep .. | .gpack .. | .gpnak .. | .gcommit ..
  | .gstart .. | .gabort .. | .gstop .. | .gangTaskFetchDone .. | .gangPrepareTimeout .. | .gangStartTimeout ..
  | .orphanTimeout .. | .lgreq .. | .lgack .. | .lgnak .. | .lshrink .. | .lrecall ..
  | .lswap .. | .llit .. | .lalive .. | .laliveSend | .sluiceBadType .. | .lgreqTimeout ..
  | .reversionResend .. | .leaseExpiry .. | .retuneTimeout .. | .drainDone .. | .drainTimeout .. | .laneFailure ..
  | .slotClear .. | .directionTrained .. | .directionDown .. | .leveeSweepStart .. | .sweep .. | .report ..
  | .levpub .. | .csweepStart .. | .csweep .. | .creport .. | .rollBack .. | .antiMessageArrival ..
  | .futureQueueEntry .. | .futureTimeout .. | .injection .. | .waitingToCalling | .syncRetry .. | .codeLineFill ..
  | .wsRefresh .. | .powerCapCheck .. | .thermalWarning .. | .fatalThermal .. | .counterFlush | .mctpCounterRead
  | .powerOn .. | .moduleReset | .powerLoss | .multiRotationResult .. | .hostReadCompletion .. | .lineFill ..
  | .creditReturn .. | .priEnable .. | .orderlyShutdown | .toolCoreAccess .. | .secondsSpent .. | .illegalInstruction ..
  | .streamDecodeCondition .. => true

end Sys2Proof
end

