-- ==== Sys2Proof/Decode.lean ====
section
/-! DEFINITION. Decoding and encoding of thread words, matrix and copy commands and tool-core custom-0 words
(spec 12_isa_encoding.md R292 to R303, 15 R376 to R385, 08 R211). Words are read as natural numbers with bit 0 the
least significant bit. -/

namespace Sys2Proof

/-- Why a word is no instruction (R303, R289). The zero word takes a trap of its own; every other reason takes the
illegal-instruction trap in a thread line. -/
inductive Reject
  | zeroWord
  | majorZero
  | unassigned
  | unusedFunc
  | reserved
  | badCode
  deriving DecidableEq, Repr

/-- The n bits of w from bit lo upward. -/
def fld (w lo n : Nat) : Nat := w / 2 ^ lo % 2 ^ n

/-- The same bits as a bit vector. -/
def bv (n w lo : Nat) : BitVec n := BitVec.ofNat n (w / 2 ^ lo)

/-- One bit of w. -/
def bt (w lo : Nat) : Bool := w / 2 ^ lo % 2 == 1

/-- A field that must be zero is zero. -/
def zf (w lo n : Nat) : Bool := fld w lo n == 0

/-- Accept the candidate when its reserved fields are zero and its codes are well formed. -/
def accept (c : Bool) (i : Instr) : Except Reject Instr :=
  if c then (if i.wf then .ok i else .error .badCode) else .error .reserved

/-- G3 operands (R292). -/
def o3 (w : Nat) : Ops3 := ⟨bv 5 w 21, bv 5 w 16, bv 5 w 11, bt w 10, bt w 9, bt w 8⟩
def o2 (w : Nat) : Ops2 := ⟨bv 5 w 21, bv 5 w 16, bt w 10, bt w 8⟩
def oda (w : Nat) : OpsDA := ⟨bv 5 w 21, bv 5 w 16, bt w 10⟩
def odab (w : Nat) : OpsDAB := ⟨bv 5 w 21, bv 5 w 16, bv 5 w 11, bt w 10, bt w 9⟩
def oab (w : Nat) : OpsAB := ⟨bv 5 w 16, bv 5 w 11, bt w 10, bt w 9⟩
def oi (w : Nat) : OpsI := ⟨bv 5 w 21, bv 5 w 16, bt w 15, bv 15 w 0⟩
def osh (w : Nat) : OpsSh := ⟨bv 5 w 21, bv 5 w 16, bt w 15, bv 6 w 0⟩
def olds (w : Nat) : OpsLds := ⟨bv 5 w 21, bv 5 w 16, bt w 15, bv 2 w 10, bv 10 w 0⟩

/-- b and sb are zero. -/
def noB (w : Nat) : Bool := zf w 11 5 && zf w 9 1
/-- T is zero. -/
def noT (w : Nat) : Bool := zf w 8 1
/-- d is zero. -/
def noD (w : Nat) : Bool := zf w 21 5
/-- a and sa are zero. -/
def noA (w : Nat) : Bool := zf w 16 5 && zf w 10 1

/-- Major 0x01 (R409, R412). -/
def decSys (w : Nat) : Except Reject Instr :=
  match fld w 0 8 with
  | 0 => accept (zf w 8 18) .nop
  | 1 => accept (zf w 8 8 && zf w 25 1) (.trap (bv 4 w 21) (bv 5 w 16))
  | 2 => accept (zf w 8 18) .bkpt
  | 3 => accept (zf w 8 13) (.stamp (bv 5 w 21))
  | 4 => accept (zf w 8 8) (.feat (bv 5 w 21) (bv 5 w 16))
  | 5 => accept (zf w 8 8) (.impl (bv 5 w 21) (bv 5 w 16))
  | 6 => accept (zf w 8 3) (.srr (bv 5 w 21) (bv 10 w 11))
  | _ => .error .unusedFunc

/-- Major 0x02 (R313). -/
def decInt (w : Nat) : Except Reject Instr :=
  let wd := bv 2 w 6
  let z := zf w 6 2
  match fld w 0 6 with
  | 0x00 => accept true (.add (o3 w) wd)
  | 0x01 => accept true (.sub (o3 w) wd)
  | 0x02 => accept true (.mul (o3 w) wd)
  | 0x03 => accept true (.mulh (o3 w) wd)
  | 0x04 => accept true (.mulhn (o3 w) wd)
  | 0x05 => accept true (.madd (o3 w) wd)
  | 0x06 => accept true (.div (o3 w) wd)
  | 0x07 => accept true (.divn (o3 w) wd)
  | 0x08 => accept true (.rem (o3 w) wd)
  | 0x09 => accept true (.remn (o3 w) wd)
  | 0x0A => accept true (.min (o3 w) wd)
  | 0x0B => accept true (.max (o3 w) wd)
  | 0x0C => accept true (.minn (o3 w) wd)
  | 0x0D => accept true (.maxn (o3 w) wd)
  | 0x0E => accept (noB w) (.abs (o2 w) wd)
  | 0x10 => accept z (.and (o3 w))
  | 0x11 => accept z (.or (o3 w))
  | 0x12 => accept z (.xor (o3 w))
  | 0x13 => accept z (.andn (o3 w))
  | 0x14 => accept z (.orn (o3 w))
  | 0x15 => accept z (.xnor (o3 w))
  | 0x18 => accept true (.shl (o3 w) wd)
  | 0x19 => accept true (.shr (o3 w) wd)
  | 0x1A => accept true (.sar (o3 w) wd)
  | 0x1B => accept true (.rol (o3 w) wd)
  | 0x1C => accept true (.ror (o3 w) wd)
  | 0x20 => accept (noB w) (.clz (o2 w) wd)
  | 0x21 => accept (noB w) (.ctz (o2 w) wd)
  | 0x22 => accept (noB w) (.popc (o2 w) wd)
  | 0x23 => accept (noB w && z) (.brev (o2 w))
  | 0x24 => accept (noB w && z) (.bswap (o2 w))
  | 0x25 => accept (noB w) (.sext (o2 w) wd)
  | 0x26 => accept (noB w) (.zext (o2 w) wd)
  | 0x28 => accept z (.bext (o3 w))
  | 0x29 => accept z (.bins (o3 w))
  | 0x2A => accept true (.addsc (o3 w) wd)
  | _ => .error .unusedFunc

/-- Major 0x03 (R318). -/
def decCmp (w : Nat) : Except Reject Instr :=
  let wd := bv 1 w 6
  let c := zf w 7 1
  match fld w 0 6 with
  | 0 => accept c (.cmpeq (o3 w) wd)
  | 1 => accept c (.cmpne (o3 w) wd)
  | 2 => accept c (.cmplt (o3 w) wd)
  | 3 => accept c (.cmpltn (o3 w) wd)
  | 4 => accept c (.cmple (o3 w) wd)
  | 5 => accept c (.cmplen (o3 w) wd)
  | 8 => accept (zf w 6 2) (.sel (o3 w))
  | _ => .error .unusedFunc

/-- Major 0x08, the GI shifts (R293). -/
def decShift (w : Nat) : Except Reject Instr :=
  match fld w 13 2 with
  | 0 => accept (zf w 6 7) (.shli (osh w))
  | 1 => accept (zf w 6 7) (.shri (osh w))
  | 2 => accept (zf w 6 7) (.sari (osh w))
  | _ => .error .unusedFunc

/-- Major 0x0E (R322). -/
def decFloat (w : Nat) : Except Reject Instr :=
  let rm := bv 3 w 5
  let f := bv 2 w 3
  match fld w 0 3 with
  | 0 => accept true (.fadd (o3 w) rm f)
  | 1 => accept true (.fsub (o3 w) rm f)
  | 2 => accept true (.fmul (o3 w) rm f)
  | 3 => accept true (.ffma (o3 w) rm f)
  | 4 => accept (zf w 5 3) (.fmin (o3 w) f)
  | 5 => accept (zf w 5 3) (.fmax (o3 w) f)
  | 6 => accept true (.fdiv (o3 w) rm f)
  | _ => accept (noB w) (.fsqrt (o2 w) rm f)

/-- Major 0x0F (R324). -/
def decFloat2 (w : Nat) : Except Reject Instr :=
  let f := bv 2 w 2
  let z := zf w 0 2
  let x := bv 2 w 14
  let rm := bv 3 w 11
  match fld w 4 4 with
  | 0x0 => accept (z && noB w) (.fabs (o2 w) f)
  | 0x1 => accept (z && noB w) (.fneg (o2 w) f)
  | 0x2 => accept z (.fcpys (o3 w) f)
  | 0x3 => accept z (.fcmpeq (o3 w) f)
  | 0x4 => accept z (.fcmplt (o3 w) f)
  | 0x5 => accept z (.fcmple (o3 w) f)
  | 0x6 => accept z (.fcmpun (o3 w) f)
  | 0x7 => accept (z && noB w) (.fclass (o2 w) f)
  | 0x8 => accept (z && zf w 9 1) (.fcvt (o2 w) x rm f)
  | 0x9 => accept (z && zf w 9 1) (.fcvti (o2 w) x rm f)
  | 0xA => accept (z && zf w 9 1) (.icvtf (o2 w) x rm f)
  | 0xB => accept (z && zf w 9 1 && zf w 14 2) (.frnd (o2 w) rm f)
  | _ => .error .unusedFunc

/-- Major 0x12 (R295). -/
def decBranch (w : Nat) : Except Reject Instr :=
  let a := bv 5 w 21
  let d := bv 12 w 0
  let z := zf w 12 6
  match fld w 18 3 with
  | 0 => accept z (.brz a d)
  | 1 => accept z (.brnz a d)
  | 2 => accept z (.brltz a d)
  | 3 => accept z (.brgez a d)
  | 4 => accept true (.brbit a (bv 6 w 12) d)
  | _ => .error .unusedFunc

/-- Major 0x14 (R333). -/
def decNest (w : Nat) : Except Reject Instr :=
  if fld w 0 8 == 0 then accept (noB w && noT w) (.nest (oda w))
  else if fld w 2 6 == 4 then
    if fld w 0 2 == 0 then .error .unusedFunc else accept (zf w 8 13) (.iter (bv 5 w 21) (bv 2 w 0))
  else .error .unusedFunc

/-- Majors 0x18 and 0x19 (R294, R340). -/
def decLoad (w : Nat) : Except Reject Instr :=
  if fld w 12 3 == 7 then accept (zf w 0 7) (.ldx (bv 5 w 21) (bv 5 w 16) (bt w 15) (bv 5 w 7))
  else accept true (.ld (bv 5 w 21) (bv 5 w 16) (bt w 15) (bv 3 w 12) (bv 12 w 0))
def decStore (w : Nat) : Except Reject Instr :=
  if fld w 12 3 == 7 then accept (zf w 0 7) (.stx (bv 5 w 21) (bv 5 w 16) (bt w 15) (bv 5 w 7))
  else if bt w 14 then .error .unusedFunc
  else accept true (.st (bv 5 w 21) (bv 5 w 16) (bt w 15) (bv 2 w 12) (bv 12 w 0))

/-- Major 0x1A (R342). -/
def decSync (w : Nat) : Except Reject Instr :=
  match fld w 0 8 with
  | 0 => accept (noB w) (.ldf (o2 w))
  | 1 => accept (noD w && noT w) (.stf (oab w))
  | 2 => accept (noB w) (.tagr (o2 w))
  | 3 => accept (noD w && noB w && noT w) (.tagwE (bv 5 w 16) (bt w 10))
  | 4 => accept (noD w && noB w && noT w) (.tagwF (bv 5 w 16) (bt w 10))
  | _ => .error .unusedFunc

/-- Major 0x1B (R343). -/
def decAcq (w : Nat) : Except Reject Instr :=
  match fld w 5 3 with
  | 0 => accept (noB w && fld w 3 2 == 3) (.ldacq (o2 w) (bv 3 w 0))
  | 1 => accept (noD w && noT w && fld w 3 2 == 3) (.strel (oab w) (bv 3 w 0))
  | 2 => accept (noD w && noT w && zf w 0 3) (.std (oab w) (bv 2 w 3))
  | _ => .error .unusedFunc

/-- Major 0x1C (R345). -/
def decMove (w : Nat) : Except Reject Instr :=
  match fld w 0 8 with
  | 0 => accept (zf w 8 18) .home
  | 1 => accept (noD w && noB w && noT w) (.visit (bv 5 w 16) (bt w 10))
  | _ => .error .unusedFunc

/-- Major 0x1D (R349). -/
def decAtomic (w : Nat) : Except Reject Instr :=
  match fld w 0 2 with
  | 0 => accept true (.amo (o3 w) (bv 4 w 4) (bv 2 w 2))
  | 1 => if fld w 2 6 == 3 then accept true (.cas (o3 w)) else .error .badCode
  | 2 => if fld w 2 6 == 3 then accept true (.cas2 (o3 w)) else .error .badCode
  | _ => .error .unusedFunc

/-- Major 0x1E (R350). -/
def decRed (w : Nat) : Except Reject Instr :=
  accept (noD w && noT w && zf w 0 2) (.red (oab w) (bv 4 w 4) (bv 2 w 2))

/-- Major 0x1F (R351). -/
def decFence (w : Nat) : Except Reject Instr :=
  let k0 := zf w 3 2
  let s0 := zf w 0 3
  let sc := bv 3 w 0
  match fld w 5 3 with
  | 0 => accept (zf w 8 18) (.fence (bv 2 w 3) sc)
  | 1 => accept (noD w && noB w && noT w && k0 && s0) (.promote (bv 5 w 16) (bt w 10))
  | 2 => accept (noB w && noT w && k0 && s0) (.phase (oda w))
  | 3 => accept (zf w 8 18 && k0) (.ackw sc)
  | 4 => accept (noT w && k0 && s0) (.barjoin (odab w))
  | 5 => accept (noT w && k0 && s0) (.barleave (odab w))
  | 6 => accept (noB w && noT w && k0) (.bararr (oda w) sc)
  | _ => accept (noB w && noT w && k0) (.bararn (oda w) sc)

/-- Major 0x20, func3 100 (R348). -/
def decTag (w : Nat) : Except Reject Instr :=
  let z := zf w 0 6
  let np := zf w 6 2
  let nb := zf w 15 6
  match fld w 8 4 with
  | 0 => accept (z && nb) (.pset (bv 5 w 21) (bv 2 w 6))
  | 1 => accept (z && nb) (.pget (bv 5 w 21) (bv 2 w 6))
  | 2 => accept (z && np) (.rowtagR (bv 5 w 21) (bv 5 w 16) (bt w 15))
  | 3 => accept (z && np && noD w) (.rowtagF (bv 5 w 16) (bt w 15))
  | 4 => accept (z && np && noD w) (.rowtagE (bv 5 w 16) (bt w 15))
  | 5 => accept (z && np && noD w) (.rowtagC (bv 5 w 16) (bt w 15))
  | _ => .error .unusedFunc

/-- Major 0x20 (R346, R347). -/
def decScratch (w : Nat) : Except Reject Instr :=
  match fld w 12 3 with
  | 0 => accept true (.lds (olds w))
  | 1 => accept true (.ldsN (olds w))
  | 2 => accept true (.sts (olds w))
  | 3 =>
    if bt w 11 then
      accept (zf w 15 6 && zf w 6 1 && zf w 10 1) (.stbit (bv 5 w 21) (bt w 9) (bv 2 w 7) (bv 6 w 0))
    else accept (zf w 15 6 && zf w 6 1) (.ldbit (bv 5 w 21) (bt w 10) (bt w 9) (bv 2 w 7) (bv 6 w 0))
  | 4 => decTag w
  | _ => .error .unusedFunc

/-- Vector operands (R296). -/
def v1 (w : Nat) : V1 := ⟨bv 2 w 24, bv 2 w 22, bt w 17, bt w 16⟩
def v2 (w : Nat) : V2 := ⟨bv 2 w 24, bv 2 w 22, bv 2 w 20, bt w 17, bt w 16, bt w 15⟩
def v3 (w : Nat) : V3 :=
  ⟨bv 2 w 24, bv 2 w 22, bv 2 w 20, bv 2 w 18, bt w 17, bt w 16, bt w 15, bt w 14⟩
def vs (w : Nat) : VS := ⟨bv 2 w 22, bt w 16, bv 5 w 0⟩
/-- Unused pointer positions and their step bits, and an unused g, are zero. -/
def noPd (w : Nat) : Bool := zf w 24 2 && zf w 17 1
def noPa (w : Nat) : Bool := zf w 22 2 && zf w 16 1
def noPb (w : Nat) : Bool := zf w 20 2 && zf w 15 1
def noPc (w : Nat) : Bool := zf w 18 2 && zf w 14 1
def noG (w : Nat) : Bool := zf w 0 5

/-- Major 0x24 (R364). -/
def decV24 (w : Nat) : Except Reject Instr :=
  let ty := bv 4 w 10
  match fld w 5 5 with
  | 0x00 => accept (noPc w && noG w) (.vadd (v2 w) ty)
  | 0x01 => accept (noPc w && noG w) (.vsub (v2 w) ty)
  | 0x02 => accept (noPc w && noG w) (.vmul (v2 w) ty)
  | 0x03 => accept (noG w) (.vfma (v3 w) ty)
  | 0x04 => accept (noPc w && noG w) (.vmin (v2 w) ty)
  | 0x05 => accept (noPc w && noG w) (.vmax (v2 w) ty)
  | 0x06 => accept (noPb w && noPc w && noG w) (.vabs (v1 w) ty)
  | 0x07 => accept (noPb w && noPc w && noG w) (.vneg (v1 w) ty)
  | 0x10 => accept (noPc w && noG w) (.vaddSat (v2 w) ty)
  | 0x11 => accept (noPc w && noG w) (.vsubSat (v2 w) ty)
  | _ => .error .unusedFunc

/-- Major 0x25 (R365). -/
def decV25 (w : Nat) : Except Reject Instr :=
  let ty := bv 4 w 10
  let t0 := zf w 10 4
  match fld w 5 5 with
  | 0x00 => accept (noPc w && noG w && t0) (.vand (v2 w))
  | 0x01 => accept (noPc w && noG w && t0) (.vor (v2 w))
  | 0x02 => accept (noPc w && noG w && t0) (.vxor (v2 w))
  | 0x04 => accept (noPc w && noG w) (.vshl (v2 w) ty)
  | 0x05 => accept (noPc w && noG w) (.vshr (v2 w) ty)
  | 0x06 => accept (noPb w && noPc w) (.vshlS (v1 w) ty (bv 5 w 0))
  | 0x07 => accept (noPb w && noPc w) (.vshrS (v1 w) ty (bv 5 w 0))
  | 0x08 => accept (noPc w && noG w) (.vcmpEq (v2 w) ty)
  | 0x09 => accept (noPc w && noG w) (.vcmpNe (v2 w) ty)
  | 0x0A => accept (noPc w && noG w) (.vcmpLt (v2 w) ty)
  | 0x0B => accept (noPc w && noG w) (.vcmpLe (v2 w) ty)
  | 0x0C => accept (noPc w && noG w) (.vcmpUn (v2 w) ty)
  | 0x10 => accept (noG w) (.vsel (v3 w) ty)
  | _ => .error .unusedFunc

/-- Major 0x26 (R366): func[4:3] selects, func[2:0] is the part field. -/
def decV26 (w : Nat) : Except Reject Instr :=
  let ty := bv 4 w 10
  let z := noPb w && noPc w
  match fld w 8 2 with
  | 0 => accept (z && noG w) (.vcvt (v1 w) ty (bt w 7) (bv 2 w 5))
  | 1 => accept (z && noG w) (.vdec (v1 w) ty (bv 3 w 5))
  | 2 => accept (z && noG w) (.venc (v1 w) ty (bv 3 w 5))
  | _ => accept (z && zf w 5 3) (.vscl (v1 w) ty (bv 5 w 0))

/-- Major 0x27 (R369). -/
def decV27 (w : Nat) : Except Reject Instr :=
  let ty := bv 4 w 10
  let one := noPb w && noPc w
  let f32 := fld w 10 4 == 10
  match fld w 5 5 with
  | 0x00 => accept (noPd w && one) (.vsum (vs w) ty)
  | 0x01 => accept (noPd w && one) (.vmaxr (vs w) ty)
  | 0x02 => if f32 then accept (one && noG w) (.vexp (v1 w)) else .error .badCode
  | 0x03 => if f32 then accept (one && noG w) (.vrcp (v1 w)) else .error .badCode
  | 0x04 => if f32 then accept (one && noG w) (.vrsq (v1 w)) else .error .badCode
  | 0x05 => accept (noPa w && one) (.vbcst (bv 2 w 24) (bt w 17) ty (bv 5 w 0))
  | 0x06 => accept (one && noG w && zf w 10 4) (.vmov (v1 w))
  | 0x07 => accept (noPc w && noG w) (.vperm (v2 w) ty)
  | 0x08 => accept (noPc w && noG w) (.vpack (v2 w) ty)
  | 0x09 => accept (one && noG w) (.vunpackLo (v1 w) ty)
  | 0x0A => accept (one && noG w) (.vunpackHi (v1 w) ty)
  | 0x0B => accept (noPd w && one) (.vmask (vs w) ty)
  | _ => .error .unusedFunc

/-- Major 0x28 (R297, R389). -/
def decMovq (w : Nat) : Except Reject Instr :=
  if bt w 17 then accept (zf w 0 8 && zf w 16 1) (.movqPop (bv 5 w 21) (bv 3 w 18) (bv 8 w 8))
  else accept (zf w 0 8) (.movqPush (bv 5 w 21) (bv 3 w 18) (bt w 16) (bv 8 w 8))

/-- Major 0x2C (R391). The sb bit of a register that starts a run is reserved (R388). -/
def decWork (w : Nat) : Except Reject Instr :=
  match fld w 0 8 with
  | 0 => accept (zf w 8 18) .quit
  | 1 => accept (noT w && zf w 9 1) (.spawn (bv 5 w 21) (bv 5 w 16) (bv 5 w 11) (bt w 10))
  | 2 => accept (noT w && zf w 9 1) (.spawnw (bv 5 w 21) (bv 5 w 16) (bv 5 w 11) (bt w 10))
  | 3 => accept (noT w) (.post (odab w))
  | 4 => accept (noB w && noT w) (.launch (oda w))
  | 5 => accept (noB w && noT w) (.graph (oda w))
  | 6 => accept (noT w) (.cancel (odab w))
  | 7 => accept (noT w) (.joinw (odab w))
  | _ => .error .unusedFunc

/-- Major 0x2D (R401). -/
def decMsg (w : Nat) : Except Reject Instr :=
  match fld w 0 8 with
  | 0 => accept (noD w && noT w && zf w 9 1) (.send (bv 5 w 16) (bv 5 w 11) (bt w 10))
  | 1 => accept (zf w 8 13) (.recv (bv 5 w 21))
  | 2 => accept (noA w && noT w) (.recvp (bv 5 w 21) (bv 5 w 11) (bt w 9))
  | _ => .error .unusedFunc

/-- Major 0x2E (R403). -/
def decVt (w : Nat) : Except Reject Instr :=
  match fld w 0 8 with
  | 0 => accept (zf w 8 13) (.vtkey (bv 5 w 21))
  | 1 => accept (zf w 8 13) (.levee (bv 5 w 21))
  | 2 => accept (zf w 8 8 && noD w) (.irrev (bv 5 w 16))
  | 3 => accept (noT w && zf w 9 1) (.sendvt (bv 5 w 21) (bv 5 w 16) (bv 5 w 11) (bt w 10))
  | _ => .error .unusedFunc

/-- Major 0x2F (R406). -/
def decAgent (w : Nat) : Except Reject Instr :=
  match fld w 0 8 with
  | 0 => accept (noB w && noT w) (.callt (oda w))
  | 1 => accept (noB w && noT w) (.waitf (oda w))
  | 2 => accept (noB w && noT w) (.pollf (oda w))
  | 3 => accept (noB w && noT w) (.canf (oda w))
  | 4 => accept (noT w) (.tokc (odab w))
  | 5 => accept (noT w) (.tokenc (odab w))
  | 6 => accept (noT w) (.tokdec (odab w))
  | 7 => accept (noT w) (.maskq (odab w))
  | _ => .error .unusedFunc

/-- Major 0x30 (R408). -/
def decLease (w : Nat) : Except Reject Instr :=
  match fld w 0 8 with
  | 0 => accept (noB w && noT w) (.lease (oda w))
  | 1 => accept (noB w && noT w) (.leaserel (oda w))
  | 2 => accept (noB w && noT w) (.leaseq (oda w))
  | _ => .error .unusedFunc

/-- Major 0x38 (R418). -/
def decPriv (w : Nat) : Except Reject Instr :=
  let s0 := zf w 0 3
  let sc := bv 3 w 0
  match fld w 3 5 with
  | 0 => accept (zf w 8 18 && s0) .eret
  | 1 => accept (zf w 8 3 && s0) (.srw (bv 5 w 21) (bv 10 w 11))
  | 2 => accept (noD w && noT w) (.tlbiPage (oab w) sc)
  | 3 => accept (noD w && noA w && noT w) (.tlbiJob (bv 5 w 11) (bt w 9) sc)
  | 4 => accept (zf w 8 18) (.tlbiAll sc)
  | 5 => accept (noB w && noT w && s0) (.wsopen (oda w))
  | 6 => accept (noB w && noT w && s0) (.wsclose (oda w))
  | 7 => accept (noB w && noT w && s0) (.keykill (oda w))
  | 8 =>
    match fld w 0 3 with
    | 0 => accept (zf w 8 13) (.haltgStop (bv 5 w 21))
    | 1 => accept (noB w && noT w) (.haltgStopl (oda w))
    | 2 => accept (zf w 8 13) (.haltgResume (bv 5 w 21))
    | _ => .error .unusedFunc
  | _ => .error .unusedFunc

/-- A thread instruction: its first word and the word that follows it, which only the long forms use
(R298, R300). -/
def decodeThread (w next : Nat) : Except Reject Instr :=
  match fld w 26 6 with
  | 0x00 => if w == 0 then .error .zeroWord else .error .majorZero
  | 0x01 => decSys w
  | 0x02 => decInt w
  | 0x03 => decCmp w
  | 0x04 => accept true (.addi (oi w))
  | 0x05 => accept true (.andi (oi w))
  | 0x06 => accept true (.ori (oi w))
  | 0x07 => accept true (.xori (oi w))
  | 0x08 => decShift w
  | 0x09 => accept true (.cmpeqi (oi w))
  | 0x0A => accept true (.cmplti (oi w))
  | 0x0B => accept true (.muli (oi w))
  | 0x0C => accept (zf w 0 21) (.ldi (bv 5 w 21) (bv 32 next 0))
  | 0x0D => accept (zf w 0 21) (.ldih (bv 5 w 21) (bv 32 next 0))
  | 0x0E => decFloat w
  | 0x0F => decFloat2 w
  | 0x10 => accept true (.br (bv 26 w 0))
  | 0x11 => accept true (.call (bv 5 w 21) (bv 21 w 0))
  | 0x12 => decBranch w
  | 0x13 => if fld w 0 8 == 0 then accept (noB w && noT w) (.jmp (oda w)) else .error .unusedFunc
  | 0x14 => decNest w
  | 0x18 => decLoad w
  | 0x19 => decStore w
  | 0x1A => decSync w
  | 0x1B => decAcq w
  | 0x1C => decMove w
  | 0x1D => decAtomic w
  | 0x1E => decRed w
  | 0x1F => decFence w
  | 0x20 => decScratch w
  | 0x24 => decV24 w
  | 0x25 => decV25 w
  | 0x26 => decV26 w
  | 0x27 => decV27 w
  | 0x28 => decMovq w
  | 0x2C => decWork w
  | 0x2D => decMsg w
  | 0x2E => decVt w
  | 0x2F => decAgent w
  | 0x30 => decLease w
  | 0x38 => decPriv w
  | _ => .error .unassigned

/-- A long form takes two words (R298). -/
def isLong (w : Nat) : Bool := fld w 26 6 == 0x0C || fld w 26 6 == 0x0D

/-- A tool-core custom-0 instruction (R211). Another funct3 or funct7 is no instruction. -/
def decodeTool (w : Nat) : Option Instr :=
  let rs2 := bv 5 w 20
  let rs1 := bv 5 w 15
  let rd := bv 5 w 7
  if fld w 0 7 != 0x0B then none
  else
    match fld w 12 3, fld w 25 7 with
    | 0, 0 => some (.futArgTake rs2 rs1 rd)
    | 0, 1 => some (.futArgLen rs2 rs1 rd)
    | 0, 2 => some (.futArgDeadline rs2 rs1 rd)
    | 0, 3 => some (.futArgTool rs2 rs1 rd)
    | 0, 4 => some (.futArgCopy rs2 rs1 rd)
    | 1, 0 => some (.futResolve rs2 rs1 rd)
    | 2, 0 => some (.futFail rs2 rs1 rd)
    | 3, 0 => some (.capProbe rs2 rs1 rd)
    | _, _ => none

/-- Second word of MMA and MMAZ (R377). -/
def mmaOps (w : Nat) : MmaOps :=
  ⟨bv 2 w 30, bv 3 w 27, bv 4 w 23, bv 7 w 16, bv 4 w 12, bv 7 w 5, bt w 4, bv 4 w 0⟩

/-- Second word of MMST and MMLD (R380). -/
def mmstOps (w : Nat) : MmstOps := ⟨bv 2 w 30, bv 4 w 26, bv 4 w 22, bv 4 w 18, bv 10 w 8⟩

/-- A matrix command: two words (R302, R377, R380, R381). -/
def decodeMatrix (w0 w1 : Nat) : Except Reject Instr :=
  let s := bv 26 w0 0
  match fld w0 26 6 with
  | 0x01 => accept (w1 == 0) (.mmnop s)
  | 0x02 => accept true (.mma s (mmaOps w1))
  | 0x03 => accept true (.mmaz s (mmaOps w1))
  | 0x04 => accept (zf w1 0 8) (.mmst s (mmstOps w1))
  | 0x05 => accept (zf w1 0 8) (.mmld s (mmstOps w1))
  | 0x06 => accept (zf w1 0 30) (.mmz s (bv 2 w1 30))
  | 0x07 => accept (zf w1 0 17) (.mmwait s (bv 4 w1 28) (bv 10 w1 18) (bt w1 17))
  | 0x08 => accept (zf w1 12 20) (.mmsig s (bv 12 w1 0))
  | 0x09 => accept (w1 == 0) (.mmend s)
  | _ => if w0 == 0 then .error .zeroWord else .error .unassigned

/-- The address form of a copy command (R383). -/
def cpOps (w0 w1 w2 w3 : Nat) : CpOps :=
  ⟨bv 4 w0 22, bv 10 w0 12, bv 10 w0 2,
    BitVec.ofNat 54 (w1 % 2 ^ 32 + 2 ^ 32 * fld w2 10 22), bv 16 w3 16, bv 16 w3 0⟩

/-- A copy command: four words (R301, R383, R385). -/
def decodeCopy (w0 w1 w2 w3 : Nat) : Except Reject Instr :=
  let o := cpOps w0 w1 w2 w3
  let a := zf w0 0 2 && zf w2 0 10
  let rest := w1 == 0 && w2 == 0 && w3 == 0
  match fld w0 26 6 with
  | 0x01 => accept (zf w0 0 26 && rest) .cpnop
  | 0x02 => accept a (.cpget o)
  | 0x03 => accept a (.cpput o)
  | 0x04 => accept a (.cpmc o)
  | 0x05 => accept a (.cpws o)
  | 0x06 => accept a (.cpww o)
  | 0x07 => accept (zf w0 0 2 && w3 == 0)
      (.cpfill (bv 4 w0 22) (bv 10 w0 12) (bv 10 w0 2) (BitVec.ofNat 64 (w1 % 2 ^ 32 + 2 ^ 32 * (w2 % 2 ^ 32))))
  | 0x08 => accept (zf w0 0 2 && w1 == 0 && w2 == 0 && zf w3 2 30)
      (.cptag (bv 4 w0 22) (bv 10 w0 12) (bv 10 w0 2) (bv 2 w3 0))
  | 0x09 => accept (zf w0 0 11 && rest) (.cpwait (bv 4 w0 22) (bv 10 w0 12) (bt w0 11))
  | 0x0A => accept (zf w0 12 14 && rest) (.cpsig (bv 12 w0 0))
  | 0x0B => accept (zf w0 0 26 && rest) .cpend
  | _ => if w0 == 0 then .error .zeroWord else .error .unassigned

/-- The DSUB code a stream's token carries for a command that is no instruction (R374). -/
def Reject.dsub (r : Reject) : Nat :=
  match r with
  | .zeroWord => 0x12
  | .majorZero | .unassigned | .unusedFunc => 0x10
  | .reserved | .badCode => 0x11

/-- A little-endian 32-bit word from four bytes (R7, R283). -/
def word32 (b0 b1 b2 b3 : Byte) : Nat := b0.toNat + 256 * (b1.toNat + 256 * (b2.toNat + 256 * b3.toNat))

/-- Decode a thread instruction from bytes: the instruction and the bytes after it, or the reason there is none.
A long form that has only one word left is refused (R285). -/
def decodeBytes (bs : List Byte) : Except Reject (Instr × List Byte) :=
  match bs with
  | b0 :: b1 :: b2 :: b3 :: rest =>
    let w := word32 b0 b1 b2 b3
    if isLong w then
      match rest with
      | c0 :: c1 :: c2 :: c3 :: rest' => (decodeThread w (word32 c0 c1 c2 c3)).map (·, rest')
      | _ => .error .reserved
    else (decodeThread w 0).map (·, rest)
  | _ => .error .reserved

/-- The instruction the decoder reads from the bits of a table row: a thread instruction, else a tool-core one.
The bits above nbits are zero, so the second word of a long form is bits 63 to 32. -/
def decodeTableWord (nbits w : Nat) : Option Instr :=
  let v := w % 2 ^ nbits
  match decodeThread (v % 2 ^ 32) (v / 2 ^ 32 % 2 ^ 32) with
  | .ok i => some i
  | .error _ => decodeTool (v % 2 ^ 32)

/-! The encoder, from the same encoding tables. -/

/-- A truth value as a bit. -/
def b2n (b : Bool) : Nat := if b then 1 else 0

/-- A G3 word (R292). -/
def g3 (op d a b sa sb t func : Nat) : Nat :=
  op * 2 ^ 26 + d * 2 ^ 21 + a * 2 ^ 16 + b * 2 ^ 11 + sa * 2 ^ 10 + sb * 2 ^ 9 + t * 2 ^ 8 + func

def Ops3.enc (o : Ops3) (op func : Nat) : Nat :=
  g3 op o.d.toNat o.a.toNat o.b.toNat (b2n o.sa) (b2n o.sb) (b2n o.t) func
def Ops2.enc (o : Ops2) (op func : Nat) : Nat :=
  g3 op o.d.toNat o.a.toNat 0 (b2n o.sa) 0 (b2n o.t) func
def OpsDA.enc (o : OpsDA) (op func : Nat) : Nat :=
  g3 op o.d.toNat o.a.toNat 0 (b2n o.sa) 0 0 func
def OpsDAB.enc (o : OpsDAB) (op func : Nat) : Nat :=
  g3 op o.d.toNat o.a.toNat o.b.toNat (b2n o.sa) (b2n o.sb) 0 func
def OpsAB.enc (o : OpsAB) (op func : Nat) : Nat :=
  g3 op 0 o.a.toNat o.b.toNat (b2n o.sa) (b2n o.sb) 0 func
def OpsI.enc (o : OpsI) (op : Nat) : Nat :=
  op * 2 ^ 26 + o.d.toNat * 2 ^ 21 + o.a.toNat * 2 ^ 16 + b2n o.sa * 2 ^ 15 + o.imm.toNat
def OpsSh.enc (o : OpsSh) (kind : Nat) : Nat :=
  0x08 * 2 ^ 26 + o.d.toNat * 2 ^ 21 + o.a.toNat * 2 ^ 16 + b2n o.sa * 2 ^ 15 + kind * 2 ^ 13 + o.c.toNat
/-- A word of major 0x20: d, base, sb, func3 and the low twelve bits (R346). -/
def encM (op d base sb func3 low : Nat) : Nat :=
  op * 2 ^ 26 + d * 2 ^ 21 + base * 2 ^ 16 + sb * 2 ^ 15 + func3 * 2 ^ 12 + low
def OpsLds.enc (o : OpsLds) (func3 : Nat) : Nat :=
  encM 0x20 o.d.toNat o.base.toNat (b2n o.sb) func3 (o.size.toNat * 2 ^ 10 + o.disp.toNat)
/-- A V word (R296). -/
def encV (op pd pa pb pc sd sa sb sc ty func g : Nat) : Nat :=
  op * 2 ^ 26 + pd * 2 ^ 24 + pa * 2 ^ 22 + pb * 2 ^ 20 + pc * 2 ^ 18 + sd * 2 ^ 17 + sa * 2 ^ 16 + sb * 2 ^ 15
    + sc * 2 ^ 14 + ty * 2 ^ 10 + func * 2 ^ 5 + g
def V1.enc (v : V1) (op ty func g : Nat) : Nat :=
  encV op v.pd.toNat v.pa.toNat 0 0 (b2n v.sd) (b2n v.sa) 0 0 ty func g
def V2.enc (v : V2) (op ty func : Nat) : Nat :=
  encV op v.pd.toNat v.pa.toNat v.pb.toNat 0 (b2n v.sd) (b2n v.sa) (b2n v.sb) 0 ty func 0
def V3.enc (v : V3) (op ty func : Nat) : Nat :=
  encV op v.pd.toNat v.pa.toNat v.pb.toNat v.pc.toNat (b2n v.sd) (b2n v.sa) (b2n v.sb) (b2n v.sc) ty func 0
def VS.enc (v : VS) (ty func : Nat) : Nat :=
  encV 0x27 0 v.pa.toNat 0 0 0 (b2n v.sa) 0 0 ty func v.g.toNat
/-- A conditional branch word (R295). -/
def encB2 (a cond bit disp : Nat) : Nat := 0x12 * 2 ^ 26 + a * 2 ^ 21 + cond * 2 ^ 18 + bit * 2 ^ 12 + disp
/-- A tool-core word (R211). -/
def encTool (funct7 rs2 rs1 funct3 rd : Nat) : Nat :=
  funct7 * 2 ^ 25 + rs2 * 2 ^ 20 + rs1 * 2 ^ 15 + funct3 * 2 ^ 12 + rd * 2 ^ 7 + 0x0B
def MmaOps.enc (o : MmaOps) : Nat :=
  o.tile.toNat * 2 ^ 30 + o.k.toNat * 2 ^ 27 + o.acore.toNat * 2 ^ 23 + o.arow.toNat * 2 ^ 16
    + o.bcore.toNat * 2 ^ 12 + o.brow.toNat * 2 ^ 5 + b2n o.s * 2 ^ 4 + o.x.toNat
def MmstOps.enc (o : MmstOps) : Nat :=
  o.tile.toNat * 2 ^ 30 + o.row0.toNat * 2 ^ 26 + o.nr.toNat * 2 ^ 22 + o.core.toNat * 2 ^ 18 + o.row.toNat * 2 ^ 8
def encMM (op : Nat) (s : BitVec 26) (w1 : Nat) : List Nat := [op * 2 ^ 26 + s.toNat, w1]
def encCpRow (op core row nrow : Nat) : Nat := op * 2 ^ 26 + core * 2 ^ 22 + row * 2 ^ 12 + nrow * 2 ^ 2
def CpOps.enc (o : CpOps) (op : Nat) : List Nat :=
  [encCpRow op o.core.toNat o.row.toNat o.nrow.toNat, o.va.toNat % 2 ^ 32, o.va.toNat / 2 ^ 32 * 2 ^ 10,
    o.stride.toNat * 2 ^ 16 + o.mask.toNat]

/-- The words of an instruction or stream command as numbers below 2^32; an event has none. -/
def encodeNats (i : Instr) : List Nat :=
  match i with
  | .nop => [0x01 * 2 ^ 26]
  | .trap n a => [g3 0x01 n.toNat a.toNat 0 0 0 0 1]
  | .bkpt => [0x01 * 2 ^ 26 + 2]
  | .stamp d => [g3 0x01 d.toNat 0 0 0 0 0 3]
  | .feat d s => [g3 0x01 d.toNat s.toNat 0 0 0 0 4]
  | .impl d s => [g3 0x01 d.toNat s.toNat 0 0 0 0 5]
  | .srr d n => [0x01 * 2 ^ 26 + d.toNat * 2 ^ 21 + n.toNat * 2 ^ 11 + 6]
  | .add o w => [o.enc 0x02 (w.toNat * 2 ^ 6 + 0x00)]
  | .sub o w => [o.enc 0x02 (w.toNat * 2 ^ 6 + 0x01)]
  | .mul o w => [o.enc 0x02 (w.toNat * 2 ^ 6 + 0x02)]
  | .mulh o w => [o.enc 0x02 (w.toNat * 2 ^ 6 + 0x03)]
  | .mulhn o w => [o.enc 0x02 (w.toNat * 2 ^ 6 + 0x04)]
  | .madd o w => [o.enc 0x02 (w.toNat * 2 ^ 6 + 0x05)]
  | .div o w => [o.enc 0x02 (w.toNat * 2 ^ 6 + 0x06)]
  | .divn o w => [o.enc 0x02 (w.toNat * 2 ^ 6 + 0x07)]
  | .rem o w => [o.enc 0x02 (w.toNat * 2 ^ 6 + 0x08)]
  | .remn o w => [o.enc 0x02 (w.toNat * 2 ^ 6 + 0x09)]
  | .min o w => [o.enc 0x02 (w.toNat * 2 ^ 6 + 0x0A)]
  | .max o w => [o.enc 0x02 (w.toNat * 2 ^ 6 + 0x0B)]
  | .minn o w => [o.enc 0x02 (w.toNat * 2 ^ 6 + 0x0C)]
  | .maxn o w => [o.enc 0x02 (w.toNat * 2 ^ 6 + 0x0D)]
  | .abs o w => [o.enc 0x02 (w.toNat * 2 ^ 6 + 0x0E)]
  | .and o => [o.enc 0x02 0x10]
  | .or o => [o.enc 0x02 0x11]
  | .xor o => [o.enc 0x02 0x12]
  | .andn o => [o.enc 0x02 0x13]
  | .orn o => [o.enc 0x02 0x14]
  | .xnor o => [o.enc 0x02 0x15]
  | .shl o w => [o.enc 0x02 (w.toNat * 2 ^ 6 + 0x18)]
  | .shr o w => [o.enc 0x02 (w.toNat * 2 ^ 6 + 0x19)]
  | .sar o w => [o.enc 0x02 (w.toNat * 2 ^ 6 + 0x1A)]
  | .rol o w => [o.enc 0x02 (w.toNat * 2 ^ 6 + 0x1B)]
  | .ror o w => [o.enc 0x02 (w.toNat * 2 ^ 6 + 0x1C)]
  | .clz o w => [o.enc 0x02 (w.toNat * 2 ^ 6 + 0x20)]
  | .ctz o w => [o.enc 0x02 (w.toNat * 2 ^ 6 + 0x21)]
  | .popc o w => [o.enc 0x02 (w.toNat * 2 ^ 6 + 0x22)]
  | .brev o => [o.enc 0x02 0x23]
  | .bswap o => [o.enc 0x02 0x24]
  | .sext o w => [o.enc 0x02 (w.toNat * 2 ^ 6 + 0x25)]
  | .zext o w => [o.enc 0x02 (w.toNat * 2 ^ 6 + 0x26)]
  | .bext o => [o.enc 0x02 0x28]
  | .bins o => [o.enc 0x02 0x29]
  | .addsc o w => [o.enc 0x02 (w.toNat * 2 ^ 6 + 0x2A)]
  | .cmpeq o w => [o.enc 0x03 (w.toNat * 2 ^ 6 + 0)]
  | .cmpne o w => [o.enc 0x03 (w.toNat * 2 ^ 6 + 1)]
  | .cmplt o w => [o.enc 0x03 (w.toNat * 2 ^ 6 + 2)]
  | .cmpltn o w => [o.enc 0x03 (w.toNat * 2 ^ 6 + 3)]
  | .cmple o w => [o.enc 0x03 (w.toNat * 2 ^ 6 + 4)]
  | .cmplen o w => [o.enc 0x03 (w.toNat * 2 ^ 6 + 5)]
  | .sel o => [o.enc 0x03 8]
  | .addi o => [o.enc 0x04]
  | .andi o => [o.enc 0x05]
  | .ori o => [o.enc 0x06]
  | .xori o => [o.enc 0x07]
  | .shli o => [o.enc 0]
  | .shri o => [o.enc 1]
  | .sari o => [o.enc 2]
  | .cmpeqi o => [o.enc 0x09]
  | .cmplti o => [o.enc 0x0A]
  | .muli o => [o.enc 0x0B]
  | .ldi d imm => [0x0C * 2 ^ 26 + d.toNat * 2 ^ 21, imm.toNat]
  | .ldih d imm => [0x0D * 2 ^ 26 + d.toNat * 2 ^ 21, imm.toNat]
  | .fadd o rm f => [o.enc 0x0E (rm.toNat * 2 ^ 5 + f.toNat * 2 ^ 3 + 0)]
  | .fsub o rm f => [o.enc 0x0E (rm.toNat * 2 ^ 5 + f.toNat * 2 ^ 3 + 1)]
  | .fmul o rm f => [o.enc 0x0E (rm.toNat * 2 ^ 5 + f.toNat * 2 ^ 3 + 2)]
  | .ffma o rm f => [o.enc 0x0E (rm.toNat * 2 ^ 5 + f.toNat * 2 ^ 3 + 3)]
  | .fmin o f => [o.enc 0x0E (f.toNat * 2 ^ 3 + 4)]
  | .fmax o f => [o.enc 0x0E (f.toNat * 2 ^ 3 + 5)]
  | .fdiv o rm f => [o.enc 0x0E (rm.toNat * 2 ^ 5 + f.toNat * 2 ^ 3 + 6)]
  | .fsqrt o rm f => [o.enc 0x0E (rm.toNat * 2 ^ 5 + f.toNat * 2 ^ 3 + 7)]
  | .fabs o f => [o.enc 0x0F (0 * 2 ^ 4 + f.toNat * 2 ^ 2)]
  | .fneg o f => [o.enc 0x0F (1 * 2 ^ 4 + f.toNat * 2 ^ 2)]
  | .fcpys o f => [o.enc 0x0F (2 * 2 ^ 4 + f.toNat * 2 ^ 2)]
  | .fcmpeq o f => [o.enc 0x0F (3 * 2 ^ 4 + f.toNat * 2 ^ 2)]
  | .fcmplt o f => [o.enc 0x0F (4 * 2 ^ 4 + f.toNat * 2 ^ 2)]
  | .fcmple o f => [o.enc 0x0F (5 * 2 ^ 4 + f.toNat * 2 ^ 2)]
  | .fcmpun o f => [o.enc 0x0F (6 * 2 ^ 4 + f.toNat * 2 ^ 2)]
  | .fclass o f => [o.enc 0x0F (7 * 2 ^ 4 + f.toNat * 2 ^ 2)]
  | .fcvt o x rm f => [o.enc 0x0F (x.toNat * 2 ^ 14 + rm.toNat * 2 ^ 11 + 8 * 2 ^ 4 + f.toNat * 2 ^ 2)]
  | .fcvti o x rm f => [o.enc 0x0F (x.toNat * 2 ^ 14 + rm.toNat * 2 ^ 11 + 9 * 2 ^ 4 + f.toNat * 2 ^ 2)]
  | .icvtf o x rm f => [o.enc 0x0F (x.toNat * 2 ^ 14 + rm.toNat * 2 ^ 11 + 10 * 2 ^ 4 + f.toNat * 2 ^ 2)]
  | .frnd o rm f => [o.enc 0x0F (rm.toNat * 2 ^ 11 + 11 * 2 ^ 4 + f.toNat * 2 ^ 2)]
  | .br disp => [0x10 * 2 ^ 26 + disp.toNat]
  | .call d disp => [0x11 * 2 ^ 26 + d.toNat * 2 ^ 21 + disp.toNat]
  | .brz a disp => [encB2 a.toNat 0 0 disp.toNat]
  | .brnz a disp => [encB2 a.toNat 1 0 disp.toNat]
  | .brltz a disp => [encB2 a.toNat 2 0 disp.toNat]
  | .brgez a disp => [encB2 a.toNat 3 0 disp.toNat]
  | .brbit a bit disp => [encB2 a.toNat 4 bit.toNat disp.toNat]
  | .jmp o => [o.enc 0x13 0]
  | .nest o => [o.enc 0x14 0]
  | .iter d n => [g3 0x14 d.toNat 0 0 0 0 0 (0x10 + n.toNat)]
  | .ld d base sb f3 disp => [encM 0x18 d.toNat base.toNat (b2n sb) f3.toNat disp.toNat]
  | .ldx d base sb b => [encM 0x18 d.toNat base.toNat (b2n sb) 7 (b.toNat * 2 ^ 7)]
  | .st d base sb sz disp => [encM 0x19 d.toNat base.toNat (b2n sb) sz.toNat disp.toNat]
  | .stx d base sb b => [encM 0x19 d.toNat base.toNat (b2n sb) 7 (b.toNat * 2 ^ 7)]
  | .ldf o => [o.enc 0x1A 0]
  | .stf o => [o.enc 0x1A 1]
  | .tagr o => [o.enc 0x1A 2]
  | .tagwE a sa => [g3 0x1A 0 a.toNat 0 (b2n sa) 0 0 3]
  | .tagwF a sa => [g3 0x1A 0 a.toNat 0 (b2n sa) 0 0 4]
  | .ldacq o sc => [o.enc 0x1B (0x18 + sc.toNat)]
  | .strel o sc => [o.enc 0x1B (0x38 + sc.toNat)]
  | .std o sz => [o.enc 0x1B (0x40 + sz.toNat * 2 ^ 3)]
  | .home => [0x1C * 2 ^ 26]
  | .visit a sa => [g3 0x1C 0 a.toNat 0 (b2n sa) 0 0 1]
  | .amo o aop w => [o.enc 0x1D (aop.toNat * 2 ^ 4 + w.toNat * 2 ^ 2)]
  | .cas o => [o.enc 0x1D 0x0D]
  | .cas2 o => [o.enc 0x1D 0x0E]
  | .red o op ty => [o.enc 0x1E (op.toNat * 2 ^ 4 + ty.toNat * 2 ^ 2)]
  | .fence k sc => [0x1F * 2 ^ 26 + k.toNat * 2 ^ 3 + sc.toNat]
  | .promote a sa => [g3 0x1F 0 a.toNat 0 (b2n sa) 0 0 0x20]
  | .phase o => [o.enc 0x1F 0x40]
  | .ackw sc => [0x1F * 2 ^ 26 + 0x60 + sc.toNat]
  | .barjoin o => [o.enc 0x1F 0x80]
  | .barleave o => [o.enc 0x1F 0xA0]
  | .bararr o sc => [o.enc 0x1F (0xC0 + sc.toNat)]
  | .bararn o sc => [o.enc 0x1F (0xE0 + sc.toNat)]
  | .lds o => [o.enc 0]
  | .ldsN o => [o.enc 1]
  | .sts o => [o.enc 2]
  | .ldbit d sx st p len => [encM 0x20 d.toNat 0 0 3 (b2n sx * 2 ^ 10 + b2n st * 2 ^ 9 + p.toNat * 2 ^ 7 + len.toNat)]
  | .stbit d st p len => [encM 0x20 d.toNat 0 0 3 (2 ^ 11 + b2n st * 2 ^ 9 + p.toNat * 2 ^ 7 + len.toNat)]
  | .pset d p => [encM 0x20 d.toNat 0 0 4 (p.toNat * 2 ^ 6)]
  | .pget d p => [encM 0x20 d.toNat 0 0 4 (2 ^ 8 + p.toNat * 2 ^ 6)]
  | .rowtagR d base sb => [encM 0x20 d.toNat base.toNat (b2n sb) 4 (2 * 2 ^ 8)]
  | .rowtagF base sb => [encM 0x20 0 base.toNat (b2n sb) 4 (3 * 2 ^ 8)]
  | .rowtagE base sb => [encM 0x20 0 base.toNat (b2n sb) 4 (4 * 2 ^ 8)]
  | .rowtagC base sb => [encM 0x20 0 base.toNat (b2n sb) 4 (5 * 2 ^ 8)]
  | .vadd v ty => [v.enc 0x24 ty.toNat 0x00]
  | .vsub v ty => [v.enc 0x24 ty.toNat 0x01]
  | .vmul v ty => [v.enc 0x24 ty.toNat 0x02]
  | .vfma v ty => [v.enc 0x24 ty.toNat 0x03]
  | .vmin v ty => [v.enc 0x24 ty.toNat 0x04]
  | .vmax v ty => [v.enc 0x24 ty.toNat 0x05]
  | .vabs v ty => [v.enc 0x24 ty.toNat 6 0]
  | .vneg v ty => [v.enc 0x24 ty.toNat 7 0]
  | .vaddSat v ty => [v.enc 0x24 ty.toNat 0x10]
  | .vsubSat v ty => [v.enc 0x24 ty.toNat 0x11]
  | .vand v => [v.enc 0x25 0 0]
  | .vor v => [v.enc 0x25 0 1]
  | .vxor v => [v.enc 0x25 0 2]
  | .vshl v ty => [v.enc 0x25 ty.toNat 0x04]
  | .vshr v ty => [v.enc 0x25 ty.toNat 0x05]
  | .vshlS v ty g => [v.enc 0x25 ty.toNat 6 g.toNat]
  | .vshrS v ty g => [v.enc 0x25 ty.toNat 7 g.toNat]
  | .vcmpEq v ty => [v.enc 0x25 ty.toNat 0x08]
  | .vcmpNe v ty => [v.enc 0x25 ty.toNat 0x09]
  | .vcmpLt v ty => [v.enc 0x25 ty.toNat 0x0A]
  | .vcmpLe v ty => [v.enc 0x25 ty.toNat 0x0B]
  | .vcmpUn v ty => [v.enc 0x25 ty.toNat 0x0C]
  | .vsel v ty => [v.enc 0x25 ty.toNat 0x10]
  | .vcvt v ty nw k => [v.enc 0x26 ty.toNat (b2n nw * 4 + k.toNat) 0]
  | .vdec v ty k => [v.enc 0x26 ty.toNat (8 + k.toNat) 0]
  | .venc v ty k => [v.enc 0x26 ty.toNat (16 + k.toNat) 0]
  | .vscl v ty g => [v.enc 0x26 ty.toNat 24 g.toNat]
  | .vsum v ty => [v.enc ty.toNat 0x00]
  | .vmaxr v ty => [v.enc ty.toNat 0x01]
  | .vexp v => [v.enc 0x27 10 2 0]
  | .vrcp v => [v.enc 0x27 10 3 0]
  | .vrsq v => [v.enc 0x27 10 4 0]
  | .vbcst pd sd ty g => [encV 0x27 pd.toNat 0 0 0 (b2n sd) 0 0 0 ty.toNat 5 g.toNat]
  | .vmov v => [v.enc 0x27 0 6 0]
  | .vperm v ty => [v.enc 0x27 ty.toNat 7]
  | .vpack v ty => [v.enc 0x27 ty.toNat 8]
  | .vunpackLo v ty => [v.enc 0x27 ty.toNat 9 0]
  | .vunpackHi v ty => [v.enc 0x27 ty.toNat 10 0]
  | .vmask v ty => [v.enc ty.toNat 0x0B]
  | .movqPush g q s f => [0x28 * 2 ^ 26 + g.toNat * 2 ^ 21 + q.toNat * 2 ^ 18 + b2n s * 2 ^ 16 + f.toNat * 2 ^ 8]
  | .movqPop g q f => [0x28 * 2 ^ 26 + g.toNat * 2 ^ 21 + q.toNat * 2 ^ 18 + 2 ^ 17 + f.toNat * 2 ^ 8]
  | .quit => [0x2C * 2 ^ 26]
  | .spawn d a b sa => [g3 0x2C d.toNat a.toNat b.toNat (b2n sa) 0 0 1]
  | .spawnw d a b sa => [g3 0x2C d.toNat a.toNat b.toNat (b2n sa) 0 0 2]
  | .post o => [o.enc 0x2C 3]
  | .launch o => [o.enc 0x2C 4]
  | .graph o => [o.enc 0x2C 5]
  | .cancel o => [o.enc 0x2C 6]
  | .joinw o => [o.enc 0x2C 7]
  | .send a b sa => [g3 0x2D 0 a.toNat b.toNat (b2n sa) 0 0 0]
  | .recv d => [g3 0x2D d.toNat 0 0 0 0 0 1]
  | .recvp d b sb => [g3 0x2D d.toNat 0 b.toNat 0 (b2n sb) 0 2]
  | .vtkey d => [g3 0x2E d.toNat 0 0 0 0 0 0]
  | .levee d => [g3 0x2E d.toNat 0 0 0 0 0 1]
  | .irrev a => [g3 0x2E 0 a.toNat 0 0 0 0 2]
  | .sendvt d a b sa => [g3 0x2E d.toNat a.toNat b.toNat (b2n sa) 0 0 3]
  | .callt o => [o.enc 0x2F 0]
  | .waitf o => [o.enc 0x2F 1]
  | .pollf o => [o.enc 0x2F 2]
  | .canf o => [o.enc 0x2F 3]
  | .tokc o => [o.enc 0x2F 4]
  | .tokenc o => [o.enc 0x2F 5]
  | .tokdec o => [o.enc 0x2F 6]
  | .maskq o => [o.enc 0x2F 7]
  | .lease o => [o.enc 0x30 0]
  | .leaserel o => [o.enc 0x30 1]
  | .leaseq o => [o.enc 0x30 2]
  | .eret => [0x38 * 2 ^ 26]
  | .srw d n => [0x38 * 2 ^ 26 + d.toNat * 2 ^ 21 + n.toNat * 2 ^ 11 + 8]
  | .tlbiPage o sc => [o.enc 0x38 (0x10 + sc.toNat)]
  | .tlbiJob b sb sc => [g3 0x38 0 0 b.toNat 0 (b2n sb) 0 (0x18 + sc.toNat)]
  | .tlbiAll sc => [0x38 * 2 ^ 26 + 0x20 + sc.toNat]
  | .wsopen o => [o.enc 0x38 0x28]
  | .wsclose o => [o.enc 0x38 0x30]
  | .keykill o => [o.enc 0x38 0x38]
  | .haltgStop d => [g3 0x38 d.toNat 0 0 0 0 0 0x40]
  | .haltgStopl o => [o.enc 0x38 0x41]
  | .haltgResume d => [g3 0x38 d.toNat 0 0 0 0 0 0x42]
  | .mmnop s => encMM 0x01 s 0
  | .mma s o => encMM 0x02 s o.enc
  | .mmaz s o => encMM 0x03 s o.enc
  | .mmst s o => encMM 0x04 s o.enc
  | .mmld s o => encMM 0x05 s o.enc
  | .mmz s t => encMM 0x06 s (t.toNat * 2 ^ 30)
  | .mmwait s c r f => encMM 0x07 s (c.toNat * 2 ^ 28 + r.toNat * 2 ^ 18 + b2n f * 2 ^ 17)
  | .mmsig s v => encMM 0x08 s v.toNat
  | .mmend s => encMM 0x09 s 0
  | .cpnop => [0x01 * 2 ^ 26, 0, 0, 0]
  | .cpget o => o.enc 0x02
  | .cpput o => o.enc 0x03
  | .cpmc o => o.enc 0x04
  | .cpws o => o.enc 0x05
  | .cpww o => o.enc 0x06
  | .cpfill c r n p => [encCpRow 0x07 c.toNat r.toNat n.toNat, p.toNat % 2 ^ 32, p.toNat / 2 ^ 32, 0]
  | .cptag c r n a => [encCpRow 0x08 c.toNat r.toNat n.toNat, 0, 0, a.toNat]
  | .cpwait c r f => [0x09 * 2 ^ 26 + c.toNat * 2 ^ 22 + r.toNat * 2 ^ 12 + b2n f * 2 ^ 11, 0, 0, 0]
  | .cpsig v => [0x0A * 2 ^ 26 + v.toNat, 0, 0, 0]
  | .cpend => [0x0B * 2 ^ 26, 0, 0, 0]
  | .futArgTake r2 r1 rd => [encTool 0 r2.toNat r1.toNat 0 rd.toNat]
  | .futArgLen r2 r1 rd => [encTool 1 r2.toNat r1.toNat 0 rd.toNat]
  | .futArgDeadline r2 r1 rd => [encTool 2 r2.toNat r1.toNat 0 rd.toNat]
  | .futArgTool r2 r1 rd => [encTool 3 r2.toNat r1.toNat 0 rd.toNat]
  | .futArgCopy r2 r1 rd => [encTool 4 r2.toNat r1.toNat 0 rd.toNat]
  | .futResolve r2 r1 rd => [encTool 0 r2.toNat r1.toNat 1 rd.toNat]
  | .futFail r2 r1 rd => [encTool 0 r2.toNat r1.toNat 2 rd.toNat]
  | .capProbe r2 r1 rd => [encTool 0 r2.toNat r1.toNat 3 rd.toNat]
  | .keySweepDone .. | .tlbiComplete .. | .mmwaitMatch .. | .cpwaitMatch .. | .copySourceRowFull .. | .copyWritebackAck ..
  | .lineRecall .. | .capCsrWrite .. | .toolAccessFault .. | .toolException .. | .jobstart .. | .jobcancel ..
  | .futres .. | .mgmtReadCounters .. | .mgmtAttest .. | .mgmtLoadKey .. | .mgmtSetPowerCap .. | .mgmtFirmwareImage ..
  | .h2dBadType .. | .h2dEnqueueDrop | .d2hDequeue | .mboxIrqTimeout | .atsCompletion .. | .priResponseSuccess ..
  | .priResponseInvalid .. | .priResponseFailure .. | .priTimeout .. | .atsInvalidateRequest .. | .atsInvalidateCompletion .. | .poolCompletion ..
  | .poolTimeout .. | .cxlwinWrite .. | .uetReplyArrival .. | .uetUndeliverable .. | .faultRingRetry .. | .replayQueueFree
  | .freplayReplay .. | .freplayAbort .. | .heatDecay | .heatcfgWrite .. | .migrate .. | .compress ..
  | .decompress .. | .churnQOverflow .. | .freeze .. | .copy .. | .release .. | .done ..
  | .zPageDecompress .. | .freeFramePoll | .dispatchStep .. | .waitWordRead .. | .footprintFetchDone .. | .save ..
  | .saveComplete .. | .taskPacketArrival .. | .overflowReturn .. | .messageArrival .. | .messagePlacement .. | .msgack ..
  | .spawnRequestArrival .. | .spawnwResend .. | .primarySlotFree .. | .launchComplete .. | .phaseAdvance .. | .lmigGo ..
  | .lmigStreamDone | .lmigFwdClear .. | .qovfWrite .. | .partcfgWrite .. | .corecfgWrite .. | .mxmodeWrite ..
  | .fabricCfgWrite .. | .registerWrite .. | .routeHop .. | .norouteArrival .. | .homeAccess .. | .migrantArrival ..
  | .migrantEntry .. | .mack .. | .mnak .. | .migrantResend .. | .pwack .. | .pwackCombineTimeout ..
  | .weirMark .. | .weirTick | .weirFree | .weirAdmit .. | .peerOwnershipRequest .. | .peerRecallDone ..
  | .peerLoss .. | .gprep .. | .gpack .. | .gpnak .. | .gcommit .. | .gstart ..
  | .gabort .. | .gstop .. | .gangTaskFetchDone .. | .gangPrepareTimeout .. | .gangStartTimeout .. | .orphanTimeout ..
  | .lgreq .. | .lgack .. | .lgnak .. | .lshrink .. | .lrecall .. | .lswap ..
  | .llit .. | .lalive .. | .laliveSend | .sluiceBadType .. | .lgreqTimeout .. | .reversionResend ..
  | .leaseExpiry .. | .retuneTimeout .. | .drainDone .. | .drainTimeout .. | .laneFailure .. | .slotClear ..
  | .directionTrained .. | .directionDown .. | .leveeSweepStart .. | .sweep .. | .report .. | .levpub ..
  | .csweepStart .. | .csweep .. | .creport .. | .rollBack .. | .antiMessageArrival .. | .futureQueueEntry ..
  | .futureTimeout .. | .injection .. | .waitingToCalling | .syncRetry .. | .codeLineFill .. | .wsRefresh ..
  | .powerCapCheck .. | .thermalWarning .. | .fatalThermal .. | .counterFlush | .mctpCounterRead | .powerOn ..
  | .moduleReset | .powerLoss | .multiRotationResult .. | .hostReadCompletion .. | .lineFill .. | .creditReturn ..
  | .priEnable .. | .orderlyShutdown | .toolCoreAccess .. | .secondsSpent .. | .illegalInstruction .. | .streamDecodeCondition .. => []

/-- The words of an instruction or stream command (R292 to R302). -/
def encode (i : Instr) : List (BitVec 32) := (encodeNats i).map (BitVec.ofNat 32)

end Sys2Proof
end

