-- ==== Sys2Proof/Machine/Scratch.lean ====
section
/-! DEFINITION. Scratchpad scalar and bit access, pointers and row tags: major 0x20 (spec 14 R346 to R348, 09 R231 to
R234). -/

namespace Sys2Proof.Machine

open Sys2Proof

/-- The number of bits of a scratchpad (R234). -/
def scrBits : Nat := 393216

/-- The fields of a pointer register (R234). -/
def ptrAddr (p : Word) : Nat := p.toNat % 2 ^ 19
def ptrStride (p : Word) : BitVec 16 := p.extractLsb' 24 16

/-- A pointer stepped by its stride (R234). -/
def ptrStep (p : Word) : Word :=
  let a : Nat := (((ptrAddr p : Int) + 8 * (ptrStride p).toInt) % (scrBits : Int)).toNat
  (ptrStride p).zeroExtend 64 <<< 24 ||| w64 a

/-- A pointer register of a slot. -/
def Slot.ptr (sl : Slot) (n : Nat) : Word := mget sl.p n 0

/-- Writes a pointer register. -/
def Slot.setPtr (sl : Slot) (n : Nat) (v : Word) : Slot := { sl with p := mput sl.p n v }

/-- Whether a pointer is lost (R230). -/
def Slot.lost (sl : Slot) (n : Nat) : Bool := sl.plost.getLsbD n

/-- The size in bytes of a size code (R346). -/
def sizeOf2 (z : BitVec 2) : Nat := 2 ^ z.toNat

/-- A scratchpad offset (R336). -/
def scrOff (base : Word) (disp : BitVec 10) : Word := base + disp.signExtend 64

/-- The checks of a scratchpad offset: aligned, below 0xC000 (R337). -/
def scrCheck (s : State) (off : Option Word) (n : Nat) : Option Trap :=
  off.bind (fun o => if o.toNat % n != 0 || 0xC000 ≤ o.toNat then some s.badOperand else none)

/-- The waits that come before a scratchpad access: an acquire that is not complete (R343). -/
def scrIssue (s : State) (m : Demand) (checks : Seen → Option Trap) (k : Vals → Slot → Res) : Res :=
  onHome s (issue s m checks (fun v sl => if s.acqWait then .next s else k v sl))

/-- Writes a loaded value and retires; the slot's other fields are those of the state after the access. -/
def retireLoad (s : State) (sl : Slot) (d : Nat) (v : Word) : Res := .next (s.retire (s.writeG sl d v))

/-- LDS, both extensions (R346). -/
def scrLoad (o : OpsLds) (ext : Nat → Word) (s : State) : Res :=
  scrIssue s ⟨some (o.base.toNat, o.sb), none, none, [], [o.d.toNat]⟩
    (fun x => scrCheck s (x.a.map (fun b => scrOff b o.disp)) (sizeOf2 o.size))
    (fun v sl =>
      let off := (scrOff v.a o.disp).toNat
      scrAccess s [off / 64] [] 1 (fun s =>
        retireLoad s sl o.d.toNat (ext (bytesNat (s.scrBytes s.here off (sizeOf2 o.size))))))

/-- LDS, sign-extending (R346). -/
def execLds (o : OpsLds) (s : State) : Res := scrLoad o (extendLoad (o.size.zeroExtend 3)) s

/-- LDS, zero-extending (R346). -/
def execLdsN (o : OpsLds) (s : State) : Res := scrLoad o w64 s

/-- STS (R346): performed at issue + 3 cycles. -/
def execSts (o : OpsLds) (s : State) : Res :=
  scrIssue s ⟨some (o.base.toNat, o.sb), none, some o.d.toNat, [], []⟩
    (fun x => scrCheck s (x.a.map (fun b => scrOff b o.disp)) (sizeOf2 o.size))
    (fun v sl =>
      let off := (scrOff v.a o.disp).toNat
      scrAccess s [] [off / 64] 1 (fun s =>
        .next ((s.scrWrite s.here s.sched.cur.slot off (natBytes (sizeOf2 o.size) v.d.toNat) none).retire sl)))

/-- The rows a bit field touches (R347). -/
def fieldRows (addr len : Nat) : List Nat :=
  let r0 := addr / 512
  let r1 := (addr + len - 1) % scrBits / 512
  if r0 = r1 then [r0] else [r0, r1]

/-- A bit field of a scratchpad, as a number (R347). -/
def fieldGet (m : List Host.Cell) (k addr : Nat) : Nat → Nat
  | 0 => 0
  | len + 1 =>
    let b := (addr + len) % scrBits
    ((byteAt m (scrPa k (b / 8))).toNat / 2 ^ (b % 8) % 2) * 2 ^ len + fieldGet m k addr len

/-- The bytes of a scratchpad that a field covers, rewritten with the field. -/
def fieldPut (cur : Nat → Byte) (addr v : Nat) : Nat → List (Nat × Byte) → List (Nat × Byte)
  | 0, acc => acc
  | len + 1, acc =>
    let acc := fieldPut cur addr v len acc
    let b := (addr + len) % scrBits
    let old := mget acc (b / 8) (cur (b / 8))
    let bit := v / 2 ^ len % 2
    let new := old.toNat - old.toNat / 2 ^ (b % 8) % 2 * 2 ^ (b % 8) + bit * 2 ^ (b % 8)
    mput acc (b / 8) (BitVec.ofNat 8 new)

/-- Steps the pointer of a bit access after the access (R347). -/
def stepIf (sl : Slot) (p : Nat) (step : Bool) : Slot := if step then sl.setPtr p (ptrStep (sl.ptr p)) else sl

/-- LDBIT (R347). -/
def execLdbit (d : Reg) (sx step : Bool) (p : Ptr) (len : BitVec 6) (s : State) : Res :=
  scrIssue s ⟨none, none, none, [], [d.toNat]⟩ (fun _ => if s.me.lost p.toNat then some s.badOperand else none)
    (fun _ sl =>
      let n := len.toNat + 1
      let addr := ptrAddr (sl.ptr p.toNat)
      let rows := fieldRows addr n
      scrAccess s rows [] rows.length (fun s =>
        let f := fieldGet s.mem.cells s.here addr n
        let v : Word := if sx && f / 2 ^ (n - 1) % 2 == 1 then BitVec.ofInt 64 ((f : Int) - 2 ^ n) else w64 f
        retireLoad s (stepIf sl p.toNat step) d.toNat v))

/-- STBIT (R347). -/
def execStbit (d : Reg) (step : Bool) (p : Ptr) (len : BitVec 6) (s : State) : Res :=
  scrIssue s ⟨none, none, some d.toNat, [], []⟩ (fun _ => if s.me.lost p.toNat then some s.badOperand else none)
    (fun v sl =>
      let n := len.toNat + 1
      let addr := ptrAddr (sl.ptr p.toNat)
      let rows := fieldRows addr n
      scrAccess s [] rows rows.length (fun s =>
        let bs := fieldPut (s.scrSettled s.here) addr v.d.toNat n []
        let s := bs.foldl (fun s b => s.scrWrite s.here s.sched.cur.slot b.1 [b.2] none) s
        .next (s.retire (stepIf sl p.toNat step))))

/-- An instruction of major 0x20 without a row: it occupies the vector unit all the same (R346). -/
def vuIssue (s : State) (m : Demand) (checks : Seen → Option Trap) (k : State → Vals → Slot → Res) : Res :=
  scrIssue s m checks (fun v sl => if s.vuBusy s.here then .next s else k (s.occupy s.here 1) v sl)

/-- PSET, under the checks of R234 (R348). -/
def execPset (d : Reg) (p : Ptr) (s : State) : Res :=
  vuIssue s ⟨none, none, some d.toNat, [], []⟩
    (fun x => x.d.bind (fun v =>
      if bits v.toNat 63 40 != 0 || bits v.toNat 23 19 != 0 || scrBits ≤ ptrAddr v then some s.badOperand else none))
    (fun s v sl =>
      .next (s.retire { sl.setPtr p.toNat v.d with plost := sl.plost &&& ~~~(1#4 <<< p.toNat) }))

/-- PGET (R348). -/
def execPget (d : Reg) (p : Ptr) (s : State) : Res :=
  vuIssue s ⟨none, none, none, [], [d.toNat]⟩ (fun _ => if s.me.lost p.toNat then some s.badOperand else none)
    (fun s _ sl => retireLoad s sl d.toNat (sl.ptr p.toNat))

/-- A row tag instruction: the row is g[base] (R348). -/
def rowForm (base : Reg) (sb : Bool) (dests : List Nat) (write : Bool) (k : State → Nat → Slot → Res) (s : State) : Res :=
  scrIssue s ⟨some (base.toNat, sb), none, none, [], dests⟩
    (fun x => x.a.bind (fun r => if 768 ≤ r.toNat then some s.badOperand else none))
    (fun v sl =>
      if s.vuBusy s.here then .next s
      else match s.touchRows s.sched.cur [(v.a.toNat, write)] with
        | .ok s => k (s.occupy s.here 1) v.a.toNat sl
        | .wait s => .next s
        | .unlogged s => .next s)

/-- ROWTAG.R (R348). -/
def execRowtagR (d base : Reg) (sb : Bool) (s : State) : Res :=
  rowForm base sb [d.toNat] false (fun s r sl =>
    let t := (s.coreAt s.here).row r
    retireLoad s sl d.toNat (w64 (b2n t.full + 2 * b2n t.pin + 4 * b2n t.poison))) s

/-- ROWTAG.F: parked readers wake (R348, R231). -/
def execRowtagF (base : Reg) (sb : Bool) (s : State) : Res :=
  rowForm base sb [] true (fun s r sl => .next ((s.setFull (scrPa s.here (64 * r)) true).retire sl)) s

/-- ROWTAG.E (R348). -/
def execRowtagE (base : Reg) (sb : Bool) (s : State) : Res :=
  rowForm base sb [] true (fun s r sl => .next ((s.setFull (scrPa s.here (64 * r)) false).retire sl)) s

/-- ROWTAG.C: the poison tag becomes clear (R348). -/
def execRowtagC (base : Reg) (sb : Bool) (s : State) : Res :=
  rowForm base sb [] true (fun s r sl =>
    let c := s.coreAt s.here
    .next ((s.setCore s.here (c.setRow r { c.row r with poison := false })).retire sl)) s

end Sys2Proof.Machine
end

