-- ==== Sys2Proof/Machine/VecOps.lean ====
section
/-! DEFINITION. Vector values: elements, tables, reductions and approximations (spec 10 R254 to R257, 15 R361 to
R372), and the shared form of a vector instruction. -/

namespace Sys2Proof.Machine

open Sys2Proof

/-! ## Elements (R361) -/

/-- The width in bytes of an element type (R299, R361). -/
def elemW (ty : BitVec 4) : Nat :=
  if ty = 0 || ty = 4 then 1 else if ty = 2 || ty = 6 || ty = 10 then 4 else 2

/-- Whether a type is a float type. -/
def isFloatTy (ty : BitVec 4) : Bool := 8 ≤ ty.toNat

/-- Whether a type is signed. -/
def isSignedTy (ty : BitVec 4) : Bool := ty.toNat < 4

/-- The format of a float type. -/
def vfmt (ty : BitVec 4) : Fmt := if ty = 8 then fmtF16 else if ty = 9 then fmtBf16 else fmtF32

/-- The elements of w bytes of a list of bytes. -/
def elems (w : Nat) : Nat → List Byte → List Nat
  | 0, _ => []
  | n + 1, l => bytesNat (l.take w) :: elems w n (l.drop w)

/-- The elements of a row. -/
def rowElems (w : Nat) (l : List Byte) : List Nat := elems w (64 / w) l

/-- A row of elements. -/
def rowOfElems (w : Nat) (l : List Nat) : List Byte := l.flatMap (natBytes w)

/-- An element as a signed number of 8w bits. -/
def selem (w x : Nat) : Int := if x % 2 ^ (8 * w) < 2 ^ (8 * w - 1) then x % 2 ^ (8 * w) else (x % 2 ^ (8 * w) : Int) - 2 ^ (8 * w)

/-- An element's integer value by its type. -/
def ielem (ty : BitVec 4) (x : Nat) : Int := if isSignedTy ty then selem (elemW ty) x else (x : Int)

/-- An integer's low 8w bits. -/
def wrapE (w : Nat) (i : Int) : Nat := (i % (2 ^ (8 * w) : Nat)).toNat

/-- The bounds of an integer type (R362). -/
def elemMin (ty : BitVec 4) : Int := if isSignedTy ty then -2 ^ (8 * elemW ty - 1) else 0
def elemMax (ty : BitVec 4) : Int := if isSignedTy ty then 2 ^ (8 * elemW ty - 1) - 1 else 2 ^ (8 * elemW ty) - 1

/-- A value clamped to a type (R362). -/
def clampE (ty : BitVec 4) (i : Int) : Nat := wrapE (elemW ty) (max (elemMin ty) (min (elemMax ty) i))

/-- All ones or zero in an element's width (R365). -/
def maskE (ty : BitVec 4) (b : Bool) : Nat := if b then 2 ^ (8 * elemW ty) - 1 else 0

/-- An operation on float values or on integers. -/
def arithE (ty : BitVec 4) (f : FVal → FVal → FVal) (g : Int → Int → Int) (a b : Nat) : Nat :=
  if isFloatTy ty then (vfmt ty).enc 0 (f ((vfmt ty).val a) ((vfmt ty).val b))
  else wrapE (elemW ty) (g (ielem ty a) (ielem ty b))

/-- A comparison by type; any comparison with a NaN is false (R365). -/
def cmpE (ty : BitVec 4) (p : Ordering → Bool) (a b : Nat) : Bool :=
  if isFloatTy ty then
    let x := (vfmt ty).val a
    let y := (vfmt ty).val b
    !x.isNan && !y.isNan && p (x.cmp y)
  else p (compare (ielem ty a) (ielem ty b))

/-- The lesser or the greater element (R364, R323). -/
def minmaxE (ty : BitVec 4) (mx : Bool) (a b : Nat) : Nat :=
  if isFloatTy ty then (vfmt ty).minmax mx a b
  else if (ielem ty a < ielem ty b) != mx then a else b

/-- The sign bit of an element. -/
def signE (ty : BitVec 4) : Nat := 2 ^ (8 * elemW ty - 1)

/-- A shift of an element (R365). -/
def shlE (ty : BitVec 4) (a c : Nat) : Nat := if 8 * elemW ty ≤ c then 0 else a * 2 ^ c % 2 ^ (8 * elemW ty)
def shrE (ty : BitVec 4) (a c : Nat) : Nat :=
  if isSignedTy ty then
    (if 8 * elemW ty ≤ c then maskE ty (decide (selem (elemW ty) a < 0))
     else wrapE (elemW ty) (Int.fdiv (selem (elemW ty) a) (2 ^ c)))
  else if 8 * elemW ty ≤ c then 0 else a / 2 ^ c

/-- An element converted exactly to f32, or rounded to nearest even (R366, R370). -/
def toF32 (ty : BitVec 4) (x : Nat) : Nat :=
  if isFloatTy ty then fmtF32.enc 0 ((vfmt ty).val x) else fmtF32.enc 0 (FVal.ofInt (ielem ty x))

/-- An f32 converted to a narrower type: rounded to nearest even, saturated for integers (R366). -/
def fromF32 (ty : BitVec 4) (x : Nat) : Nat :=
  let v := fmtF32.val x
  if isFloatTy ty then (vfmt ty).enc 0 v
  else match v with
    | .nan => 0
    | .inf n => wrapE (elemW ty) (if n then elemMin ty else elemMax ty)
    | .num n m e => clampE ty (if 40 ≤ e then (if m = 0 then 0 else if n then elemMin ty else elemMax ty) else roundInt 0 n m e)

/-- f32 addition under RNE. -/
def addF32 (a b : Nat) : Nat := fmtF32.enc 0 ((fmtF32.val a).add 0 (fmtF32.val b))

/-- One level of a summing tree (R370). -/
def treeLevel : List Nat → List Nat
  | a :: b :: l => addF32 a b :: treeLevel l
  | l => l

/-- The tree sum, by levels. -/
def treeSum : Nat → List Nat → Nat
  | 0, l => l.headD 0
  | n + 1, l => treeSum n (treeLevel l)

/-- VSUM (R370). -/
def vsumE (ty : BitVec 4) (l : List Nat) : Word :=
  if isFloatTy ty then
    let r := treeSum (Nat.log2 l.length) (l.map (toF32 ty))
    w64 (if (fmtF32.val r).isNan then fmtF32.nan else r)
  else BitVec.ofInt 64 (l.foldl (fun t x => t + ielem ty x) 0)

/-- VMAXR (R370). -/
def vmaxE (ty : BitVec 4) (l : List Nat) : Word :=
  let r := match l with
    | [] => 0
    | x :: l => l.foldl (minmaxE ty true) x
  if isFloatTy ty then w64 r else BitVec.ofInt 64 (ielem ty r)

/-! ## Approximations (R371) -/

/-- ±(m + s)·2^e rounded to 12 significant bits with RNE, as an f32; out of range it gives infinity or zero. -/
def round12 (neg : Bool) (m : Nat) (e : Int) (sticky : Bool) : Nat :=
  let top := Nat.log2 m
  let (sig, g) : Nat × Int :=
    if top ≤ 11 then (m, e)
    else
      let sh := top - 11
      let lo := m % 2 ^ sh
      let half := if lo < 2 ^ (sh - 1) then Ordering.lt else if lo = 2 ^ (sh - 1) && !sticky then .eq else .gt
      (m / 2 ^ sh + (if roundsUp 0 neg (m / 2 ^ sh % 2 == 1) half (lo != 0 || sticky) then 1 else 0), e + sh)
  let mag : Int := (Nat.log2 sig : Int) + g
  if 128 ≤ mag then fmtF32.inf neg
  else if mag < -126 then (if neg then 2 ^ 31 else 0)
  else fmtF32.round 0 neg sig g false

/-- ln 2 in 128 fraction bits (notes/assumptions/12). -/
def ln2 : Nat := 0xB17217F7D1CF79ABC9E3B39803F2F6AF

/-- The sum of the exponential series: term t = x^k/k! in 128 fraction bits. -/
def expSeries (x : Nat) : Nat → Nat → Nat → Nat
  | 0, _, _ => 0
  | n + 1, k, t => t + expSeries x n (k + 1) (t * x / 2 ^ 128 / k)

/-- VEXP: 2^x (R371). -/
def vexpE (a : Nat) : Nat :=
  match fmtF32.val a with
  | .nan => fmtF32.nan
  | .inf n => if n then 0 else fmtF32.inf false
  | .num n m e =>
    if m = 0 then 0x3F800000
    else if 9 ≤ e || 9 ≤ (Nat.log2 m : Int) + e then (if n then 0 else fmtF32.inf false)
    else
      let k := (-e).toNat
      let num : Int := (if n then -1 else 1) * (m * 2 ^ e.toNat : Nat)
      let i := Int.fdiv num (2 ^ k)
      let f := (num - i * 2 ^ k).toNat * 2 ^ 128 / 2 ^ k
      if f = 0 && (num - i * 2 ^ k) = 0 then round12 false 1 i false
      else round12 false (expSeries (f * ln2 / 2 ^ 128) 40 1 (2 ^ 128)) (i - 128) true

/-- VRCP: 1/x (R371). -/
def vrcpE (a : Nat) : Nat :=
  match fmtF32.val a with
  | .nan => fmtF32.nan
  | .inf n => if n then 2 ^ 31 else 0
  | .num n m e =>
    if m = 0 then fmtF32.inf n else round12 n (2 ^ 64 / m) (-e - 64) (2 ^ 64 % m != 0)

/-- VRSQ: 1/√x (R371). -/
def vrsqE (a : Nat) : Nat :=
  match fmtF32.val a with
  | .nan => fmtF32.nan
  | .inf n => if n then fmtF32.nan else 0
  | .num n m e =>
    if m = 0 then fmtF32.inf n
    else if n then fmtF32.nan
    else
      let (m, e) := if e % 2 = 0 then (m, e) else (2 * m, e - 1)
      let q := 2 ^ 120 / m
      let r := isqrt q 61 0
      round12 false r (-e / 2 - 60) (r * r * m != 2 ^ 120)

/-! ## Table images (R255 to R257) -/

/-- An entry of a table image: its W19 pattern. -/
def tblEntry (t : List Byte) (c : Nat) : Nat := bytesNat ((t.drop (4 * c)).take 4) % 2 ^ 19

/-- The header word of an image. -/
def tblHdr (t : List Byte) : Nat := bytesNat ((t.drop 1280).take 8)

def tblWid (t : List Byte) : Nat := bits (tblHdr t) 15 12
def tblNsort (t : List Byte) : Nat := bits (tblHdr t) 8 0
def tblSort (t : List Byte) : List Nat := ((t.drop 1024).take (tblNsort t)).map (·.toNat)

/-- Whether values never decrease along a list. -/
def risingVals : List FVal → Bool
  | x :: y :: l => x.cmp y != .gt && risingVals (y :: l)
  | _ => true

/-- Whether an image obeys R255. -/
def tblValid (t : List Byte) : Bool :=
  let h := tblHdr t
  let n := 2 ^ tblWid t
  let codes := (List.range 256).filter (fun c => decide (c < n) && !(fmtW19.val (tblEntry t c)).isNan)
  t.length == 1344 && (tblWid t == 4 || tblWid t == 6 || tblWid t == 8) && bits h 63 48 == 0 && bits h 31 25 == 0 &&
  bits h 11 9 == 0 && bytesNat (t.drop 1288) == 0 &&
  (List.range n).all (fun c => bytesNat ((t.drop (4 * c)).take 4) / 2 ^ 19 == 0) &&
  decide (bits h 47 40 < n) && decide (bits h 39 32 < n) && decide (bits h 23 16 < n) &&
  1 ≤ tblNsort t && tblNsort t ≤ 256 && (tblSort t).length == codes.length && codes.all (fun c => (tblSort t).contains c) &&
  risingVals ((tblSort t).map (fun c => fmtW19.val (tblEntry t c)))

/-- A finite value as an integer multiple of 2^−200. -/
def scaled : FVal → Int
  | .num n m e => (if n then -1 else 1) * (m * 2 ^ (e + 200).toNat : Nat)
  | _ => 0

/-- Whether a value is finite. -/
def FVal.finite : FVal → Bool
  | .num _ _ _ => true
  | _ => false

/-- Encoding a value through a table (R257): the nearest listed finite code, then the smallest magnitude, then the
lowest code. -/
def tblEncode (t : List Byte) (x : FVal) : Nat :=
  let h := tblHdr t
  match x with
  | .nan => if bit h 24 then bits h 23 16 else bits h 39 32
  | .inf n => if n then bits h 47 40 else bits h 39 32
  | .num n m _ =>
    let cs := (tblSort t).filter (fun c => (fmtW19.val (tblEntry t c)).finite)
    let better (c d : Nat) : Bool :=
      let vc := scaled (fmtW19.val (tblEntry t c))
      let vd := scaled (fmtW19.val (tblEntry t d))
      let dc := (vc - scaled x).natAbs
      let dd := (vd - scaled x).natAbs
      dc < dd || (dc == dd && (vc.natAbs < vd.natAbs || (vc.natAbs == vd.natAbs && c < d)))
    match cs with
    | [] => if n then bits h 47 40 else if m = 0 || !n then bits h 39 32 else bits h 47 40
    | c :: l => l.foldl (fun best c => if better c best then c else best) c

/-- The f32 pattern of a code (R367). -/
def tblDecode (t : List Byte) (c : Nat) : Nat :=
  let w := tblEntry t c
  if (fmtW19.val w).isNan then fmtF32.nan else w * 2 ^ 13

/-- The table image of the issuing task, from its table-cache entry. -/
def State.taskTable (s : State) (t : Task) : Option (List Byte) :=
  if t.tfmt = 0 then none
  else (mget? (s.coreAt (coreOf t.dcore)).tables t.tfi).map (·.data)

/-! ## The shared form of a vector instruction -/

/-- A pointer position: its register, and whether it steps. -/
abbrev Pos := Ptr × Bool

/-- The row a pointer names. -/
def ptrRow (p : Word) : Nat := ptrAddr p / 512

/-- The extra cycles of source rows that share a bank (R233). -/
def bankCost (rows : List Nat) : Nat :=
  let rows := rows.eraseDups
  let n (b : Nat) : Nat := (rows.filter (fun r => r % 3 == b)).length
  max (max (n 0) (n 1)) (n 2) - 1

/-- Where a vector instruction writes: a whole row, a part of a row, or a register. -/
inductive VDst
  | row (p : Pos)
  | part (p : Pos) (off : Nat)
  | reg (g : Reg)
  deriving DecidableEq, Repr

/-- The pointer position of a destination. -/
def VDst.pos : VDst → List Pos
  | .row p => [p]
  | .part p _ => [p]
  | .reg _ => []

/-- Steps the pointers of the positions whose step bit is set, in the order d, a, b, c (R296). -/
def stepAll (sl : Slot) (ps : List Pos) : Slot := ps.foldl (fun sl p => stepIf sl p.1.toNat p.2) sl

/-- A vector instruction (R361): checks of its pointers, its scalar source, the busy unit, its rows, the computation on
the source rows and the scalar, the write and the pointer steps. -/
def vecForm (dst : VDst) (srcs : List Pos) (g : Option Reg) (base : Nat) (extra : State → Option Trap)
    (f : State → List (List Byte) → Word → List Byte) (s : State) : Res :=
  let ps := dst.pos ++ srcs
  let dests := match dst with
    | .reg r => [r.toNat]
    | _ => []
  scrIssue s ⟨g.map (fun r => (r.toNat, false)), none, none, [], dests⟩
    (fun _ => if ps.any (fun p => s.me.lost p.1.toNat || (s.me.ptr p.1.toNat).toNat % 512 != 0) then some s.badOperand
      else extra s)
    (fun v sl =>
      let rows := srcs.map (fun p => ptrRow (sl.ptr p.1.toNat))
      let wr := dst.pos.map (fun p => ptrRow (sl.ptr p.1.toNat))
      scrAccess s rows wr (base + bankCost rows) (fun s =>
        let r := f s (rows.map (fun r => s.scrBytes s.here (64 * r) 64)) v.a
        let n := s.sched.cur.slot
        match dst with
        | .row p => .next ((s.scrWrite s.here n (64 * ptrRow (sl.ptr p.1.toNat)) r (some (ptrRow (sl.ptr p.1.toNat)))).retire
            (stepAll sl ps))
        | .part p off => .next ((s.scrWrite s.here n (64 * ptrRow (sl.ptr p.1.toNat) + off) r none).retire (stepAll sl ps))
        | .reg d => .next (s.retire (s.writeG (stepAll sl ps) d.toNat (w64 (bytesNat r))))))

/-- An element-wise instruction with one, two or three sources. -/
def map1 (v : V1) (w base : Nat) (f : Nat → Nat) (s : State) : Res :=
  vecForm (.row (v.pd, v.sd)) [(v.pa, v.sa)] none base (fun _ => none)
    (fun _ rs _ => rowOfElems w ((rowElems w (rs.getD 0 [])).map f)) s

def map2 (v : V2) (w base : Nat) (f : Nat → Nat → Nat) (s : State) : Res :=
  vecForm (.row (v.pd, v.sd)) [(v.pa, v.sa), (v.pb, v.sb)] none base (fun _ => none)
    (fun _ rs _ => rowOfElems w (List.zipWith f (rowElems w (rs.getD 0 [])) (rowElems w (rs.getD 1 [])))) s

/-- Three lists element by element. -/
def zip3With (f : Nat → Nat → Nat → Nat) : List Nat → List Nat → List Nat → List Nat
  | a :: l, b :: m, c :: n => f a b c :: zip3With f l m n
  | _, _, _ => []

def map3 (v : V3) (w base : Nat) (f : Nat → Nat → Nat → Nat) (s : State) : Res :=
  vecForm (.row (v.pd, v.sd)) [(v.pa, v.sa), (v.pb, v.sb), (v.pc, v.sc)] none base (fun _ => none)
    (fun _ rs _ => rowOfElems w (zip3With f (rowElems w (rs.getD 0 [])) (rowElems w (rs.getD 1 [])) (rowElems w (rs.getD 2 [])))) s

/-- An element-wise instruction with a scalar register. -/
def mapS (v : V1) (g : Reg) (w base : Nat) (f : Nat → Word → Nat) (s : State) : Res :=
  vecForm (.row (v.pd, v.sd)) [(v.pa, v.sa)] (some g) base (fun _ => none)
    (fun _ rs x => rowOfElems w ((rowElems w (rs.getD 0 [])).map (fun e => f e x))) s

/-- A reduction to a scalar register (R363). -/
def reduce (v : VS) (w base : Nat) (f : List Nat → Word) (s : State) : Res :=
  vecForm (.reg v.g) [(v.pa, v.sa)] none base (fun _ => none)
    (fun _ rs _ => natBytes 8 (f (rowElems w (rs.getD 0 []))).toNat) s

end Sys2Proof.Machine
end

