-- ==== Sys2Proof/Machine/Fetch.lean ====
section
/-! DEFINITION. Code lines and their fetch: link words, code caches, the checks of a line (spec 12 R283 to R291). -/

namespace Sys2Proof.Machine

open Sys2Proof

/-- A link word (R283). -/
structure Link where
  eng : Nat
  q : Bool
  cnt : Nat
  ent : Bool
  next : Int
  deriving DecidableEq, Repr

/-- The fields of a link word (R283). -/
def linkOf (w : BitVec 32) : Link :=
  ⟨bits w.toNat 31 30, bit w.toNat 29, bits w.toNat 28 25, bit w.toNat 24, (w.truncate 24).toInt⟩

/-- The chain's next line, when NEXT is not zero (R283, R284). -/
def nextLine (line : Word) (k : Link) : Option Word :=
  if k.next = 0 then none else some (line + BitVec.ofInt 64 (64 * k.next))

/-- The code cache through which a core fetches (R290): a number for each cluster, slice and the hub. -/
def codeLoc (k : Nat) : Nat :=
  if coreDie k = 8 then 4999 else if coreGroup k < 128 then 3000 + clusterOf k
  else 4100 + coreDie k * 32 + (coreGroup k - 128)

/-- The sixteen words of a line of this module's memory, read under a key. -/
def lineWords (s : State) (key pa : Nat) : List (BitVec 32) :=
  (List.range 16).map (fun i => BitVec.ofNat 32 (bytesNat (s.mem.read key (pa / 64 * 64 + 4 * i) 4)))

/-- The outcome of a line fetch. -/
inductive FetchRes
  | line (ws : List (BitVec 32))
  | fault (cause level : Nat)
  | zpage (pte : Nat)
  | bad                    -- subcode 6 of R287
  | miss
  deriving DecidableEq, Repr

/-- Asks for a code line; CODE_LINE_FILL brings it (R290). -/
def State.askCode (s : State) (loc job vpage : Nat) (x : Xlat) : State :=
  let line := x.dev * 2 ^ 46 + x.pa / 64
  if s.mem.codeFills.any (fun c => c.loc == loc && c.line == line && c.job == job) then s
  else
    let s := s.setMem { s.mem with codeFills := s.mem.codeFills ++ [⟨loc, line, job, vpage, []⟩] }
    if x.dev = s.fabric.self && region x.pa < 4 then s.send (2 ^ 21 + loc) line (.codeLineFill loc line)
    else s.ask 2 x.dev (x.pa / 64 * 64) unitRouter 0 0 0 (.lineRequest (x.pa / 64) loc false)

/-- Fetches the code line at a virtual address for a core (R287, R290, R291). A held line that differs from the one in
memory may be returned until it is dropped (notes/assumptions/9). -/
def fetchLine (s : State) (k job : Nat) (user : Bool) (va : Word) : FetchRes × State :=
  match translate s k job user va .fetch with
  | (.fault c lv, s) => (.fault c lv, s)
  | (.zpage pte, s) => (.zpage pte, s)
  | (.ok x, s) =>
    if 2 < region x.pa || x.ty = 1 || x.ty = 2 then (.bad, s)
    else if x.dev = s.fabric.self && !paOk s x.pa then (.fault causePhysaddr 0, s)
    else if !s.keyLive (s.accKey job va) then (.fault causeKeydead 0, s)
    else
      let line := x.dev * 2 ^ 46 + x.pa / 64
      match s.mem.code.find? (fun c => c.loc == codeLoc k && c.line == line && c.job == job) with
      | none => match lineDead s (codeLoc k) x.dev (x.pa / 64) with
        | some c => (.fault c 0, s.clearDead (codeLoc k) x.dev (x.pa / 64))
        | none => (.miss, s.askCode (codeLoc k) job (vpnAt va.toNat 0) x)
      | some c =>
        let fresh := if x.dev = s.fabric.self then lineWords s (s.accKey job va) x.pa else c.words
        (.line (if c.words = fresh then fresh else if s.choice Config.useCodeLine then c.words else fresh), s)

/-- The checks of R287 on a line for an engine (0 thread, 1 copy, 2 matrix) before a word is chosen: the engine, CNT. -/
def lineFault (eng : Nat) (k : Link) : Option Nat :=
  if k.eng = 3 then some 0 else if k.eng != eng then some 1 else if k.cnt = 0 then some 2 else none

/-- The checks of a stream line (R285, R288, R289): the decode indication of R374 when one fails. -/
def streamLineFault (eng : Nat) (first : Bool) (k : Link) : Option Nat :=
  match lineFault eng k with
  | some n => some n
  | none =>
    if first && !k.ent then some 4
    else if (if eng = 1 then k.cnt % 4 != 0 else k.cnt % 2 != 0) then some 0x13 else none

/-- The outcome of reading a matrix chain into the stream buffer (R382). -/
inductive ChainRes
  | held (cmds : List (BitVec 32 × BitVec 32)) (ends : Nat)
  | fault (cause level : Nat) (va : Word)
  | zpage (pte : Nat) (va : Word)
  | long
  | miss
  deriving DecidableEq, Repr

/-- The word pairs of a matrix line. -/
def wordPairs : List (BitVec 32) → List (BitVec 32 × BitVec 32)
  | a :: b :: l => (a, b) :: wordPairs l
  | _ => []

/-- Reads the chain of a matrix stream from a line on (R382): at most the given number of lines. -/
def readChain (s : State) (k job : Nat) (user : Bool) : Nat → Word → Bool → List (BitVec 32 × BitVec 32) → ChainRes × State
  | 0, _, _, _ => (.long, s)
  | n + 1, va, first, acc =>
    match fetchLine s k job user va with
    | (.fault c lv, s) => (.fault c lv va, s)
    | (.zpage pte, s) => (.zpage pte va, s)
    | (.miss, s) => (.miss, s)
    | (.bad, s) => (.held acc 6, s)
    | (.line ws, s) =>
      let l := linkOf (ws.headD 0)
      match streamLineFault 2 first l with
      | some d => (.held acc d, s)
      | none =>
        let acc := acc ++ wordPairs ((ws.drop 1).take l.cnt)
        match nextLine va l with
        | none => (.held acc 5, s)
        | some nx => readChain s k job user n nx false acc

end Sys2Proof.Machine
end

