-- ==== Sys2Proof/Machine/Matrix.lean ====
section
/-! DEFINITION. Matrix arrays, matrix streams and their commands (spec 10 R238 to R249, 15 R374 to R382). The command
that runs is that of the first stream of the core named by `Sched.cur`; one call of a meaning is one STAMP cycle. -/

namespace Sys2Proof.Machine

open Sys2Proof

/-! ## Windows (R238 to R240) -/

/-- The parity of a core in its pair. -/
def parity (k : Nat) : Nat := coreNum k % 2

/-- The window length in cycles (R238). -/
def ArrayPair.len (p : ArrayPair) : Nat := 16 * 2 ^ p.w.toNat

/-- Whether the array is in PAIR mode: MODE 0, and 3 which acts as 0 (R238). -/
def ArrayPair.pair (p : ArrayPair) : Bool := p.mode == 0 || p.mode == 3

/-- Whether a core of this parity owns windows (R239). -/
def ArrayPair.owns (p : ArrayPair) (e : Nat) : Bool := p.pair || p.mode.toNat == e + 1

/-- Whether a core of this parity owns a tile (R248). -/
def ArrayPair.ownsTile (p : ArrayPair) (e tile : Nat) : Bool := if p.pair then tile / 2 == e else p.owns e

/-- The array cycle of a core at a STAMP, when the cycle lies in one of its windows (R239). -/
def ArrayPair.cycle (p : ArrayPair) (e now : Nat) : Option Nat :=
  if p.pair then (if now / p.len % 2 = e then some (now / p.len / 2 * p.len + now % p.len) else none)
  else if p.owns e then some now else none

/-- The smallest array cycle whose STAMP is t or later (R240). -/
def ArrayPair.firstCycle (p : ArrayPair) (e t : Nat) : Nat :=
  if p.pair then
    (if t / p.len % 2 = e then t / p.len / 2 * p.len + t % p.len else (t / p.len + 1) / 2 * p.len)
  else t

/-! ## Tokens (R374) -/

/-- A completion token. -/
def tokenWord (tag idx sig cause dsub : Nat) (ovf isSig dec psn err : Bool) : Word :=
  w64 (tag % 64 * 2 ^ 58 + idx % 4096 * 2 ^ 36 + sig % 4096 * 2 ^ 24 + cause % 256 * 2 ^ 16 + dsub % 256 * 2 ^ 8 +
    b2n ovf * 16 + b2n isSig * 8 + b2n dec * 4 + b2n psn * 2 + b2n err)

/-- Removes the running stream of a core. -/
def State.dropMx (s : State) (k : Nat) : State :=
  let c := s.coreAt k
  let slot := (c.mx.head?).elim 16 MxStream.slot
  (s.setCore k { c with mx := c.mx.drop 1 }).settlePins ⟨k, slot⟩

/-- Ends the running stream of a core with its final token in q0. -/
def State.endMx (s : State) (k : Nat) (m : MxStream) (cause dsub sub : Nat) (dec err : Bool) : State :=
  let id : SlotId := ⟨k, m.slot⟩
  let sl := s.slotAt id
  let tok := tokenWord m.tag m.idx 0 cause dsub m.ovf false dec m.psn err
  (s.dropMx k).setSlot id { sl with toks0 := sl.toks0 ++ [(tok, sub)], streams0 := sl.streams0 - 1 }

/-- A schedule miss (R242). -/
def State.missMx (s : State) (k : Nat) (m : MxStream) (cause : Nat) : State :=
  (s.endMx k m cause 0 0 false true).countLife (lifeMiss + coreDie k) 48 1

/-- Replaces the running stream of a core. -/
def State.setMx (s : State) (k : Nat) (m : MxStream) : State :=
  let c := s.coreAt k
  s.setCore k { c with mx := m :: c.mx.drop 1 }

/-! ## What a command reads and writes (R376 to R381) -/

/-- A command: its duration, its row accesses by offset (offset, core of the cluster, row), the rows checked at its
first array cycle, its tile, the table entries it names, whether it names another core than its own, and whether an
operand is out of range. -/
structure MxCmd where
  dur : Nat
  rows : List (Nat × Nat × Nat)
  check : List (Nat × Nat)
  tile : Option Nat
  tables : List Nat
  other : Bool
  bad : Bool
  deriving DecidableEq, Repr

/-- The table-cache entry that ETA or ETB names (R373). -/
def entryOf (m : MxStream) (et : Nat) : Nat := if et = 0 then m.tfi else et - 4

/-- The code width of a table-cache entry; 8 when it is not valid. -/
def entryWid (s : State) (k e : Nat) : Nat := (mget? (s.coreAt k).tables e).elim 8 (fun t => tblWid t.data)

/-- A run of row accesses from an offset on. -/
def rowRun (off core row n : Nat) : List (Nat × Nat × Nat) := (List.range n).map (fun i => (off + i, core, row + i))

/-- The row accesses of MMA and MMAZ (R378). -/
def mmaRows (own tscl wa wb : Nat) (o : MmaOps) : List (Nat × Nat × Nat) :=
  let both := wa = 4 && wb = 4
  let per := if both then 16 else 32
  let na := if wa = 4 then 4 else 8
  let nb := if wb = 4 then 8 else 16
  (List.range (o.k.toNat + 1)).flatMap (fun m =>
    rowRun (per * m) o.acore.toNat (8 * o.arow.toNat + na * m) na ++
    rowRun (per * m + (if both then 4 else 8)) o.bcore.toNat (8 * o.brow.toNat + nb * m) nb ++
    (if o.s && m % 2 == 0 then
      rowRun (per * m + (if both then 12 else 24)) own (tscl / 64 + 3 * (o.x.toNat + m / 2)) 3 else []))

/-- MMA and MMAZ as commands (R377). -/
def mmaCmd (s : State) (k : Nat) (m : MxStream) (o : MmaOps) : MxCmd :=
  let ea := entryOf m m.eta
  let eb := entryOf m m.etb
  let wa := entryWid s k ea
  let wb := entryWid s k eb
  let rows := mmaRows (coreNum k) m.tscl wa wb o
  let kk := 32 * (o.k.toNat + 1)
  { dur := if wa = 4 && wb = 4 then kk / 2 else kk, rows := rows, check := rows.map (·.2), tile := some o.tile.toNat,
    tables := [ea, eb], other := o.acore.toNat != coreNum k || o.bcore.toNat != coreNum k,
    bad := (!o.s && o.x != 0) || rows.any (fun r => 768 ≤ r.2.2) }

/-- MMST and MMLD as commands (R380). -/
def mmstCmd (k : Nat) (load : Bool) (o : MmstOps) : MxCmd :=
  let n := o.nr.toNat + 1
  let rows := rowRun 0 o.core.toNat o.row.toNat (2 * n)
  { dur := 2 * n, rows := rows, check := if load then rows.map (·.2) else [], tile := some o.tile.toNat, tables := [],
    other := o.core.toNat != coreNum k, bad := 16 < o.row0.toNat + n || 768 < o.row.toNat + 2 * n }

/-- A command of one array cycle without rows. -/
def plainCmd (tile : Option Nat) : MxCmd := ⟨1, [], [], tile, [], false, false⟩

/-- A decoded command as its row accesses see it. -/
def mxCmdOf (s : State) (k : Nat) (m : MxStream) (i : Instr) : MxCmd :=
  match i with
  | .mma _ o => mmaCmd s k m o
  | .mmaz _ o => mmaCmd s k m o
  | .mmst _ o => mmstCmd k false o
  | .mmld _ o => mmstCmd k true o
  | .mmz _ t => plainCmd (some t.toNat)
  | _ => plainCmd none

/-- The stamp of a command word (R302). -/
def stampOf (w : BitVec 32) : Nat := w.toNat % 2 ^ 26

/-- The first schedule miss of a command about to begin, with the cause of R243. -/
def beginMiss (s : State) (k : Nat) (d : MxCmd) : Option Nat :=
  let p := s.arrayAt k
  if d.tile.any (fun t => !p.ownsTile (parity k) t) then some 5
  else if d.tables.any (fun e => (mget? (s.coreAt k).tables e).isNone) then some 6
  else if d.check.any (fun r => !((s.coreAt (clusterCore (clusterOf k) r.1)).row r.2).full) then some 1
  else none

/-- A debug stop holds a stream, and a power limit one that has not begun (R160, R18). -/
def mxHeld (s : State) (k : Nat) (m : MxStream) : Bool := (s.slotAt ⟨k, m.slot⟩).halted || (s.mgmt.powerLow && m.idx == 0)

/-- The row that the running stream of a core asks of a bank port on this cycle (R245, R378). -/
def mxRequest (s : State) (k : Nat) : Option (Nat × Nat) :=
  match (s.coreAt k).mx, (s.arrayAt k).cycle (parity k) s.now with
  | m :: _, some a =>
    match m.cmds[m.idx]? with
    | none => none
    | some (w0, w1) =>
      match decodeMatrix w0.toNat w1.toNat with
      | .error _ => none
      | .ok i =>
        let d := mxCmdOf s k m i
        let off := match m.off with
          | some c => some c
          | none =>
            if m.stop || mxHeld s k m || d.bad || m.base + stampOf w0 < m.free || a < m.base + stampOf w0 || (d.other && m.ord) ||
              (beginMiss s k d).isSome then none else some 0
        off.bind (fun c => (d.rows.find? (fun r => r.1 == c)).map (·.2))
  | _, _ => none

/-- Whether a core loses the bank port of a row on this cycle: the lowest core of the cluster that asks for the bank
asks for another row (R245). -/
def portLost (s : State) (k : Nat) (r : Nat × Nat) : Bool :=
  let below := (List.range (coreNum k)).filterMap (fun j => mxRequest s (clusterCore (clusterOf k) j))
  match below.find? (fun q => q.1 == r.1 && q.2 % 3 == r.2 % 3) with
  | some q => q.2 != r.2
  | none => false

/-! ## The array cycle of a command -/

/-- Runs one array cycle of the command at hand: waits for its stamp, checks it, takes its row, and finishes it on its
last cycle (R240 to R243). -/
def mxRun (stampv : BitVec 26) (desc : State → Nat → MxStream → MxCmd)
    (each : State → Nat → MxStream → Nat → State) (fin : State → Nat → MxStream → State × MxStream) (s : State) : Res :=
  let k := s.sched.cur.core
  match (s.coreAt k).mx with
  | [] => .next s
  | m :: _ =>
    if !(s.arrayAt k).owns (parity k) then .next (s.missMx k m 4)
    else match (s.arrayAt k).cycle (parity k) s.now with
    | none => .next s
    | some a =>
      let d := desc s k m
      let go (c : Nat) : Res :=
        let req := (d.rows.find? (fun r => r.1 == c)).map (·.2)
        if req.any (portLost s k) then .next (s.missMx k m 3)
        else
          let m := match req with
            | none => m
            | some r =>
              let kc := clusterCore (clusterOf k) r.1
              { m with got := mput m.got c (s.scrBytes kc (64 * r.2) 64, ((s.coreAt kc).row r.2).poison) }
          let s := each s k m c
          if c + 1 = d.dur then
            let (s, m) := fin s k m
            if m.stop then .next (s.dropMx k)
            else .next (s.setMx k { m with idx := m.idx + 1, free := a + 1, off := none, got := [], pause := none })
          else .next (s.setMx k { m with off := some (c + 1) })
      match m.off with
      | some c => go c
      | none =>
        if d.bad then .next (s.endMx k m 0 0x11 0 true true)
        else if m.base + stampv.toNat < m.free then .next (s.missMx k m 2)
        else if a < m.base + stampv.toNat then .next s
        else if d.other && m.ord then .next (s.endMx k m 7 0 3 false true)
        else match beginMiss s k d with
          | some cause => .next (s.missMx k m cause)
          | none => go 0

/-- Nothing happens on an offset. -/
def noRow : State → Nat → MxStream → Nat → State := fun s _ _ _ => s

/-- The end of a command changes nothing. -/
def noFin : State → Nat → MxStream → State × MxStream := fun s _ m => (s, m)

/-! ## Sums (R244, R246) -/

/-- Code number i of a list of bytes, by width (R244). -/
def codeAt (w : Nat) (l : List Byte) (i : Nat) : Nat :=
  if w = 4 then (l.getD (i / 2) 0).toNat / (if i % 2 = 0 then 1 else 16) % 16
  else (l.getD i 0).toNat % 2 ^ w

/-- The sum of 16 exact products, as f32 bits (R246). -/
def groupSum (ps : List FVal) : Nat :=
  let pos := ps.any (fun p => p == .inf false)
  let neg := ps.any (fun p => p == .inf true)
  if ps.any FVal.isNan || (pos && neg) then fmtF32.nan
  else if pos then fmtF32.inf false
  else if neg then fmtF32.inf true
  else
    let nz := ps.filterMap (fun p => match p with
      | .num n m e => if m = 0 then none else some (n, m, e)
      | _ => none)
    match nz with
    | [] => if ps.all FVal.sign then 2 ^ 31 else 0
    | (_, m0, e0) :: _ =>
      let e := nz.foldl (fun (t : Int) x => max t ((Nat.log2 x.2.1 : Int) + x.2.2)) ((Nat.log2 m0 : Int) + e0)
      let t : Int := nz.foldl (fun (t : Int) x =>
        let sh := x.2.2 + 40 - e
        let mag : Nat := if 0 ≤ sh then x.2.1 * 2 ^ sh.toNat else x.2.1 / 2 ^ (-sh).toNat
        if x.1 then t - mag else t + mag) 0
      if t = 0 then 0 else fmtF32.round 0 (decide (t < 0)) t.natAbs (e - 40) false

/-- Rounded f32 product. -/
def mulF32 (a b : Nat) : Nat := fmtF32.enc 0 ((fmtF32.val a).mul (fmtF32.val b))

/-- The sum of a command for one element (R246): a and b give the decoded operands along k, sa and sb the scales of a
block. -/
def commandSum (kk : Nat) (a b : Nat → FVal) (sa sb : Nat → Nat) (acc : Nat) : Nat :=
  (List.range ((kk + 63) / 64)).foldl (fun acc blk =>
    let v := (List.range (min 4 ((kk - 64 * blk) / 16))).foldl (fun v g =>
      addF32 v (groupSum ((List.range 16).map (fun j => (a (64 * blk + 16 * g + j)).mul (b (64 * blk + 16 * g + j)))))) 0
    addF32 acc (mulF32 (mulF32 v (sa blk)) (sb blk))) acc

/-- The rows read on a run of offsets, joined. -/
def gotRun (m : MxStream) (off n : Nat) : List Byte := (List.range n).flatMap (fun i => (mget m.got (off + i) ([], false)).1)

/-- Whether the row read on an offset was poisoned. -/
def gotPsn (m : MxStream) (off : Nat) : Bool := (mget m.got off ([], false)).2

/-- f32 1.0. -/
def oneF32 : Nat := 0x3F800000

/-- The key of an accumulator element and of an accumulator row. -/
def tileKey (t i n : Nat) : Nat := 512 * t + 32 * i + n
def tileBit (t i : Nat) : BitVec 64 := 1#64 <<< (16 * t + i)

/-- An accumulator element. -/
def ArrayPair.elem (p : ArrayPair) (t i n : Nat) : Nat := (mget p.tiles (tileKey t i n) 0).toNat

/-- Writes the whole of a tile. -/
def ArrayPair.putTile (p : ArrayPair) (t : Nat) (f : Nat → Nat → Nat) : ArrayPair :=
  { p with tiles := (List.range 512).foldl (fun m j => mput m (512 * t + j) (BitVec.ofNat 32 (f (j / 32) (j % 32)))) p.tiles }

/-- A tile of +0 with every poison bit clear. -/
def ArrayPair.zeroTile (p : ArrayPair) (t : Nat) : ArrayPair :=
  { p with tiles := p.tiles.filter (fun x => x.1 / 512 != t), poison := p.poison &&& ~~~((0xFFFF : BitVec 64) <<< (16 * t)) }

/-- The end of MMA and MMAZ: the tile and its poison (R246, R249). -/
def mmaFin (o : MmaOps) (zero : Bool) (s : State) (k : Nat) (m : MxStream) : State × MxStream :=
  let ta := ((mget? (s.coreAt k).tables (entryOf m m.eta)).map (·.data)).getD []
  let tb := ((mget? (s.coreAt k).tables (entryOf m m.etb)).map (·.data)).getD []
  let wa := tblWid ta
  let wb := tblWid tb
  let both := wa = 4 && wb = 4
  let per := if both then 16 else 32
  let na := if wa = 4 then 4 else 8
  let nb := if wb = 4 then 8 else 16
  let bOff := if both then 4 else 8
  let sOff := if both then 12 else 24
  let blocks := o.k.toNat + 1
  let rowsA := (List.range blocks).map (fun b => gotRun m (per * b) na)
  let rowsB := (List.range blocks).map (fun b => gotRun m (per * b + bOff) nb)
  let scales := (List.range ((blocks + 1) / 2)).map (fun b => gotRun m (2 * per * b + sOff) 3)
  let va (i kk : Nat) : FVal := fmtW19.val (tblEntry ta (codeAt wa (rowsA.getD (kk / 32) []) (32 * i + kk % 32)))
  let vb (n kk : Nat) : FVal := fmtW19.val (tblEntry tb (codeAt wb (rowsB.getD (kk / 32) []) (32 * n + kk % 32)))
  let sc (b e : Nat) : Nat := if o.s then bytesNat (((scales.getD b []).drop (4 * e)).take 4) else oneF32
  let t := o.tile.toNat
  let p := s.arrayAt k
  let p1 := p.putTile t (fun i n =>
    commandSum (32 * blocks) (va i) (vb n) (fun b => sc b i) (fun b => sc b (16 + n)) (if zero then 0 else p.elem t i n))
  let all := (List.range blocks).any (fun b =>
    (List.range nb).any (fun i => gotPsn m (per * b + bOff + i)) ||
    (o.s && b % 2 == 0 && (List.range 3).any (fun i => gotPsn m (per * b + sOff + i))))
  let perRow := 16 / na
  let rowBad (i : Nat) : Bool := all || (List.range blocks).any (fun b => gotPsn m (per * b + i / perRow))
  let base := if zero then p1.poison &&& ~~~((0xFFFF : BitVec 64) <<< (16 * t)) else p1.poison
  let psn := (List.range 16).foldl (fun x i => if rowBad i then x ||| tileBit t i else x) base
  let any := (List.range 16).any rowBad
  (s.setArray k { p1 with poison := psn }, { m with psn := m.psn || any })

/-! ## The commands -/

/-- MMNOP (R381). -/
def execMmnop (stampv : BitVec 26) (s : State) : Res := mxRun stampv (fun _ _ _ => plainCmd none) noRow noFin s

/-- MMA (R377). -/
def execMma (stampv : BitVec 26) (o : MmaOps) (s : State) : Res :=
  mxRun stampv (fun s k m => mmaCmd s k m o) noRow (mmaFin o false) s

/-- MMAZ: from +0 (R377). -/
def execMmaz (stampv : BitVec 26) (o : MmaOps) (s : State) : Res :=
  mxRun stampv (fun s k m => mmaCmd s k m o) noRow (mmaFin o true) s

/-- Half h of an accumulator row as a scratchpad row (R247). -/
def accRow (p : ArrayPair) (t i h : Nat) : List Byte :=
  (List.range 16).flatMap (fun n => natBytes 4 (p.elem t i (16 * h + n)))

/-- Writes a row of a scratchpad as an engine does: at once, full, with a poison tag (R231, R386). -/
def State.putRow (s : State) (kc row : Nat) (l : List Byte) (psn : Bool) : State :=
  let s := s.scrPut kc (64 * row) l
  let c := s.coreAt kc
  let s := s.setCore kc (c.setRow row { c.row row with poison := psn })
  s.setFull (scrPa kc (64 * row)) true

/-- The row of MMST on an offset (R378, R380). -/
def mmstRow (o : MmstOps) (s : State) (k : Nat) (_ : MxStream) (c : Nat) : State :=
  let p := s.arrayAt k
  let i := o.row0.toNat + c / 2
  s.putRow (clusterCore (clusterOf k) o.core.toNat) (o.row.toNat + c) (accRow p o.tile.toNat i (c % 2))
    (p.poison &&& tileBit o.tile.toNat i != 0)

/-- Whether an accumulator row that MMST wrote is poisoned. -/
def mmstFin (o : MmstOps) (s : State) (k : Nat) (m : MxStream) : State × MxStream :=
  let p := s.arrayAt k
  (s, { m with psn := m.psn || (List.range (o.nr.toNat + 1)).any (fun j =>
    p.poison &&& tileBit o.tile.toNat (o.row0.toNat + j) != 0) })

/-- MMST (R380). -/
def execMmst (stampv : BitVec 26) (o : MmstOps) (s : State) : Res :=
  mxRun stampv (fun _ k _ => mmstCmd k false o) (mmstRow o) (mmstFin o) s

/-- The end of MMLD: the tile rows and their poison (R380). -/
def mmldFin (o : MmstOps) (s : State) (k : Nat) (m : MxStream) : State × MxStream :=
  let t := o.tile.toNat
  let n := o.nr.toNat + 1
  let p := (List.range n).foldl (fun (p : ArrayPair) j =>
    let i := o.row0.toNat + j
    let l := gotRun m (2 * j) 2
    let tiles := (List.range 32).foldl (fun tm c =>
      mput tm (tileKey t i c) (BitVec.ofNat 32 (bytesNat ((l.drop (4 * c)).take 4)))) p.tiles
    let bad := gotPsn m (2 * j) || gotPsn m (2 * j + 1)
    { p with tiles := tiles, poison := if bad then p.poison ||| tileBit t i else p.poison &&& ~~~(tileBit t i) })
    (s.arrayAt k)
  (s.setArray k p, { m with psn := m.psn || (List.range (2 * n)).any (gotPsn m) })

/-- MMLD (R380). -/
def execMmld (stampv : BitVec 26) (o : MmstOps) (s : State) : Res :=
  mxRun stampv (fun _ k _ => mmstCmd k true o) noRow (mmldFin o) s

/-- MMZ: the tile becomes +0 (R381). -/
def execMmz (stampv : BitVec 26) (tile : BitVec 2) (s : State) : Res :=
  mxRun stampv (fun _ _ _ => plainCmd (some tile.toNat)) noRow
    (fun s k m => (s.setArray k ((s.arrayAt k).zeroTile tile.toNat), m)) s

/-- Whether the row that an MMWAIT names has the tag it waits for. -/
def waitMet (s : State) (cl core row : Nat) (full : Bool) : Bool :=
  ((s.coreAt (clusterCore cl core)).row row).full == full

/-- MMWAIT: completes at its stamp when the tag matches; otherwise the stream pauses (R381). -/
def execMmwait (stampv : BitVec 26) (core : BitVec 4) (row : BitVec 10) (full : Bool) (s : State) : Res :=
  let k := s.sched.cur.core
  match (s.coreAt k).mx with
  | [] => .next s
  | m :: _ =>
    if !(s.arrayAt k).owns (parity k) then .next (s.missMx k m 4)
    else match (s.arrayAt k).cycle (parity k) s.now with
    | none => .next s
    | some a =>
      if 768 ≤ row.toNat then .next (s.endMx k m 0 0x11 0 true true)
      else if m.pause.isSome then .next s
      else if m.base + stampv.toNat < m.free then .next (s.missMx k m 2)
      else if a < m.base + stampv.toNat then .next s
      else if m.ord && core.toNat != coreNum k then .next (s.endMx k m 7 0 3 false true)
      else if waitMet s (clusterOf k) core.toNat row.toNat full then
        .next (s.setMx k { m with idx := m.idx + 1, free := a + 1 })
      else .next (s.setMx k { m with pause := some a })

/-- The tag that a paused MMWAIT waits for matches: it completes on the core's array cycle, and B rises by the array
cycles of the pause (R381). -/
def execMmwaitMatch (core : Nat) (s : State) : Res :=
  match (s.coreAt core).mx with
  | [] => .next s
  | m :: _ =>
    match m.pause, (s.arrayAt core).cycle (parity core) s.now with
    | some a0, some a => .next (s.setMx core { m with idx := m.idx + 1, free := a + 1, base := m.base + (a - a0), pause := none })
    | _, _ => .next s

/-- MMSIG: a signal token to q0, or OVF when no place is free beside the place of the final token (R381, R375). -/
def execMmsig (stampv : BitVec 26) (val : BitVec 12) (s : State) : Res :=
  mxRun stampv (fun _ _ _ => plainCmd none) noRow
    (fun s k m =>
      let id : SlotId := ⟨k, m.slot⟩
      let sl := s.slotAt id
      if m.stop then (s, m)
      else if sl.toks0.length + sl.streams0 < 4 then
        (s.setSlot id { sl with toks0 := sl.toks0 ++ [(tokenWord m.tag m.idx val.toNat 0 0 false true false false false, 0)] }, m)
      else (s, { m with ovf := true })) s

/-- MMEND: the final token (R381). -/
def execMmend (stampv : BitVec 26) (s : State) : Res :=
  let k := s.sched.cur.core
  match (s.coreAt k).mx with
  | [] => .next s
  | m :: _ =>
    if !(s.arrayAt k).owns (parity k) then .next (s.missMx k m 4)
    else match (s.arrayAt k).cycle (parity k) s.now with
    | none => .next s
    | some a =>
      if m.base + stampv.toNat < m.free then .next (s.missMx k m 2)
      else if a < m.base + stampv.toNat then .next s
      else .next (s.endMx k m 0 0 0 false false)

/-- The start of a matrix stream: the tiles of the core are cleared when the last stream on them was of another launch
(R248), and B is fixed (R240). -/
def State.startMx (s : State) (k slot : Nat) (t : Task) (w : Word) (cmds : List (BitVec 32 × BitVec 32)) (ends : Nat) : State :=
  let p := s.arrayAt k
  let p := (List.range 4).foldl (fun (p : ArrayPair) tile =>
    if p.ownsTile (parity k) tile && p.owns (parity k) then
      let p := if mget? p.owner tile = some t.launch then p else p.zeroTile tile
      { p with owner := mput p.owner tile t.launch }
    else p) p
  let s := s.setArray k p
  let m : MxStream :=
    { slot := slot, job := t.job, launch := t.launch, ord := t.ord, cmds := cmds, ends := ends, idx := 0,
      base := p.firstCycle (parity k) (s.now + 32), free := 0, off := none, got := [], eta := bits w.toNat 2 0,
      etb := bits w.toNat 5 3, tfi := t.tfi, tscl := t.tscl.toNat, tag := bits w.toNat 63 58, psn := false, ovf := false,
      pause := none, stop := false }
  let c := s.coreAt k
  s.setCore k { c with mx := c.mx ++ [m] }

/-- The rows of a chain's commands, with whether they are written: what an ordered task enters at the push (R168). -/
def chainRows (s : State) (k : Nat) (m : MxStream) : List (Nat × Bool) :=
  m.cmds.flatMap (fun w =>
    match decodeMatrix w.1.toNat w.2.toNat with
    | .ok (.mmst _ o) => (mmstCmd k false o).rows.filterMap (fun r => if r.2.1 = coreNum k then some (r.2.2, true) else none)
    | .ok (.mmwait _ c row _) => if c.toNat = coreNum k then [(row.toNat, false)] else []
    | .ok i => (mxCmdOf s k m i).rows.filterMap (fun r => if r.2.1 = coreNum k then some (r.2.2, false) else none)
    | .error _ => [])

end Sys2Proof.Machine
end

