-- ==== Sys2Proof/Machine/CopyEngine.lean ====
section
/-! DEFINITION. Copy streams and their commands (spec 10 R250 to R253, 15 R383 to R386). The command that runs is that of
the stream named by `Sched.cur`: the cluster, and the stream's number in it. One call of a meaning moves at most one
line. -/

namespace Sys2Proof.Machine

open Sys2Proof

/-! ## Streams -/

/-- A copy stream of a cluster. -/
def State.cp? (s : State) (cl sid : Nat) : Option CpStream := mget? (s.cluster cl).copies sid

/-- Replaces a copy stream. -/
def State.setCp (s : State) (cl sid : Nat) (c : CpStream) : State :=
  s.setCluster cl { s.cluster cl with copies := mput (s.cluster cl).copies sid c }

/-- Removes a copy stream. -/
def State.dropCp (s : State) (cl sid : Nat) : State :=
  match s.cp? cl sid with
  | none => s
  | some c =>
    let s := s.setMem { s.mem with replay := s.mem.replay.filter (fun r => r.what != .copy cl sid) }
    (s.setCluster cl { s.cluster cl with copies := mdel (s.cluster cl).copies sid }).settlePins ⟨c.core, c.slot⟩

/-- The stream ends: its token follows when every write-back is acknowledged (R251). -/
def State.endCp (s : State) (cl sid : Nat) (c : CpStream) (cause dsub sub : Nat) (dec err : Bool) : State :=
  s.setCp cl sid { c with fin := some (cause, dsub, sub, dec, err), begun := false, waitFor := none }

/-- Produces the final token of a stream that has ended and has no write-back outstanding (R251, R374). -/
def State.finishCp (s : State) (cl sid : Nat) (c : CpStream) : State :=
  match c.fin with
  | none => s
  | some (cause, dsub, sub, dec, err) =>
    if c.outstanding != 0 then s
    else
      let s := s.dropCp cl sid
      if c.stop then s
      else
        let id : SlotId := ⟨c.core, c.slot⟩
        let sl := s.slotAt id
        s.setSlot id { sl with
          toks1 := sl.toks1 ++ [(tokenWord c.tag c.idx 0 cause dsub false false dec c.psn err, sub)],
          streams1 := sl.streams1 - 1 }

/-- The command at hand is complete. -/
def CpStream.stepped (c : CpStream) : CpStream :=
  { c with idx := c.idx + 1, cmd := c.cmd + 1, begun := false, seg := 0, owned := 0, row := 0, waitFor := none }

/-- A fault stops the stream at its command (R111, R114). -/
def State.cpFault (s : State) (cl sid : Nat) (c : CpStream) (cause level access : Nat) (va : Word) : State :=
  let r : FaultRec :=
    { engine := 1, cause := cause, job := c.job, place := gcid s c.core, va := va, access := access, size := 6,
      spec := c.ord, slot := c.slot, cmd := c.idx, level := level, token := 0 }
  let s := s.setMem { s.mem with dead := s.mem.dead.filter (fun x => x.1 != cl && x.1 != 5000 + cl) }
  match s.raiseFault r c.launch c.handler (.copy cl sid) with
  | none => s
  | some s' => s'.setCp cl sid { c with fault := some s.mem.nextToken }

/-- Enters rows of the stream's own core into its ordered task's sets (R168); the engine waits for a rollback or for the
log. -/
def cpEnter (s : State) (c : CpStream) (rows : List (Nat × Bool)) (k : State → Res) : Res :=
  if !c.ord then k s
  else match s.touchAll c.core c.spec (s.partOf c.launch) rows with
    | .ok s => k s
    | .unlogged s => k s
    | .wait s => .next s

/-- A run of rows with one access. -/
def rowSpan (row n : Nat) (w : Bool) : List (Nat × Bool) := (List.range n).map (fun i => (row + i, w))

/-- Runs a command's step on the stream at hand. -/
def withCp (s : State) (k : Nat → Nat → CpStream → Res) : Res :=
  match s.cp? s.sched.cur.core s.sched.cur.slot with
  | none => .next s
  | some c => k s.sched.cur.core s.sched.cur.slot c

/-- Begins a command once: operand limits (R383), then what an ordered task may not do, with its subcode of R165, then its
row sets. -/
def cpBegin (s : State) (cl sid : Nat) (c : CpStream) (bad : Bool) (order : Option Nat) (rows : List (Nat × Bool))
    (k : State → CpStream → Res) : Res :=
  if c.begun then k s c
  else if bad then .next (s.endCp cl sid c 0 0x11 0 true true)
  else match (if c.ord then order else none) with
    | some sub => .next (s.endCp cl sid c 7 0 sub false true)
    | none => cpEnter s c rows (fun s =>
      let c := { c with begun := true, seg := 0, owned := 0, row := 0 }
      k (s.setCp cl sid c) c)

/-- The address of row i of a command (R383). -/
def cpVa (o : CpOps) (i : Nat) : Word := o.va.signExtend 64 + BitVec.ofInt 64 ((i : Int) * o.stride.toInt)

/-- Where the global line of row i lies, when it can be translated now. -/
def cpWhere (s : State) (c : CpStream) (o : CpOps) (need : Need) (i : Nat) : Option Xlat :=
  match translate s c.core c.job c.user (cpVa o i) need with
  | (.ok x, _) => some x
  | _ => none

/-- Whether a line is a row of the stream's own core. -/
def cpMine (s : State) (c : CpStream) (x : Xlat) : Bool :=
  x.dev == s.fabric.self && region x.pa == 3 && bits x.pa 31 16 == c.core

/-- The rows of the own core that a command reaches through its global lines (R168). -/
def cpVaRows (s : State) (c : CpStream) (o : CpOps) (need : Need) : List (Nat × Bool) :=
  if !c.ord then []
  else (List.range (o.nrow.toNat + 1)).filterMap (fun i =>
    ((cpWhere s c o need i).filter (cpMine s c)).map (fun x => (rowOf x.pa, need.writes)))

/-- The subcode of R165 that a line gives a command of an ordered task: 3 in another core's scratchpad, 0 for a write
elsewhere. -/
def cpLineOrder (s : State) (c : CpStream) (need : Need) (x : Xlat) : Option Nat :=
  if cpMine s c x then none else if region x.pa = 3 then some 3 else if need.writes then some 0 else none

/-- The subcode of R165 that a command of an ordered task gives: its cores first, then its global lines. -/
def cpOrder (s : State) (c : CpStream) (o : CpOps) (other : Bool) (need : Need) : Option Nat :=
  if !c.ord then none
  else if other then some 3
  else (List.range (o.nrow.toNat + 1)).findSome? (fun i => (cpWhere s c o need i).bind (cpLineOrder s c need))

/-- The limits of the address form (R383). -/
def cpBad (o : CpOps) (masked : Bool) : Bool :=
  768 < o.row.toNat + o.nrow.toNat + 1 || o.va.toNat % 64 != 0 || o.stride.toNat % 64 != 0 ||
  (if masked then o.mask == 0 || o.core != 0 else o.mask != 0)

/-- The poison of a line's words. -/
def linePoison (m : Mem) (pa : Nat) : Bool := (List.range 8).any (fun i => numHas m.poison (pa / 8 + i))

/-- Whether a cached line holds a poisoned word of its home. -/
def cachedPoison (s : State) (l : CLine) : Bool := (List.range 8).any (fun i => poisonIn s l (8 * i) 8)

/-! ## Reading global lines (R251, R384) -/

/-- What reading a global line gives. -/
inductive LineRes
  | got (l : List Byte) (psn : Bool) (s : State)
  | wait (s : State)
  | fault (cause level : Nat)
  | type
  | order (sub : Nat)

/-- Reads a line that is held under a number of its own, or asks for it (R251). -/
def cpFill (s : State) (loc : Nat) (c : CpStream) (va : Word) (x : Xlat) : LineRes :=
  match findLine s.mem loc x.dev (x.pa / 64) with
  | some l =>
    .got (l.read (s.accKey c.job va)) (cachedPoison s l || l.psn != 0) (s.setMem (dropLine s.mem loc x.dev (x.pa / 64)))
  | none => match lineDead s loc x.dev (x.pa / 64) with
    | some cause => .fault cause 0
    | none => .wait (if x.dev = s.fabric.self && region x.pa = 8
        then s.askHostLine loc c.job c.launch c.ord c.handler va x.pa else s.askLine loc x.dev (x.pa / 64))

/-- Reads one global line for a copy stream (R251, R384). -/
def cpReadLine (s : State) (cl : Nat) (c : CpStream) (va : Word) (wsOnly : Bool) : LineRes :=
  match translate s c.core c.job c.user va .read with
  | (.fault cause lv, _) => .fault cause lv
  | (.zpage pte, s) => .wait (s.askPage pte c.job va c.launch (.copy cl s.sched.cur.slot))
  | (.ok x, s) =>
    if x.ty = 2 then .fault causePerm 0
    else if wsOnly && x.ty != 3 then .type
    else if c.ord && (cpLineOrder s c .read x).isSome then .order 3
    else if x.dev = s.fabric.self && !paOk s x.pa then .fault causePhysaddr 0
    else if encrypted (region x.pa) && !s.keyLive (s.accKey c.job va) then .fault causeKeydead 0
    else if x.ty = 1 then
      match findLine s.mem cl x.dev (x.pa / 64) with
      | some l =>
        if usable s (s.partOf c.launch) l then .got (l.read (s.accKey c.job va)) (cachedPoison s l || l.psn != 0) s
        else .wait ((s.setMem (dropLine s.mem cl x.dev (x.pa / 64))).askLine cl x.dev (x.pa / 64))
      | none => match lineDead s cl x.dev (x.pa / 64) with
        | some cause => .fault cause 0
        | none => .wait (s.askLine cl x.dev (x.pa / 64))
    else if x.dev = s.fabric.self && region x.pa < 4 then
      match lineBusy s x.pa false with
        | some s => .wait s
        | none =>
          if region x.pa = 3 then
            let kc := bits x.pa 31 16
            .got (s.scrBytes kc (x.pa % 65536) 64) ((s.coreAt kc).row (rowOf x.pa)).poison s
          else
            let s := s.heat x.pa
            .got (s.mem.read (s.accKey c.job va) x.pa 64) (linePoison s.mem x.pa) s
    else cpFill s (5000 + cl) c va x

/-- The own row that a read of a global line enters into the read set (R168). -/
def cpSource (s : State) (c : CpStream) (o : CpOps) : List (Nat × Bool) :=
  if !c.ord then [] else (((cpWhere s c o .read c.row).filter (cpMine s c)).map (fun x => (rowOf x.pa, false))).toList

/-- A command that reads global lines into rows of some cores of the cluster: one line a turn. -/
def cpRead (o : CpOps) (cores : List Nat) (masked wsOnly : Bool) (s : State) : Res :=
  withCp s (fun cl sid c =>
    cpBegin s cl sid c (cpBad o masked) (cpOrder s c o (cores.any (fun k => clusterCore cl k != c.core)) .read)
      (cpVaRows s c o .read ++ rowSpan o.row.toNat (o.nrow.toNat + 1) true)
      (fun s c => cpEnter s c (cpSource s c o) (fun s =>
        let va := cpVa o c.row
        match cpReadLine s cl c va wsOnly with
        | .wait s => .next s
        | .fault cause lv => .next (s.cpFault cl sid c cause lv accCopyRead va)
        | .type => .next (s.endCp cl sid c 3 0 0 false true)
        | .order sub => .next (s.endCp cl sid c 7 0 sub false true)
        | .got l psn s =>
          let s := cores.foldl (fun s k => s.putRow (clusterCore cl k) (o.row.toNat + c.row) l psn) s
          let c := { c with psn := c.psn || psn }
          if c.row = o.nrow.toNat then .next (s.setCp cl sid c.stepped)
          else .next (s.setCp cl sid { c with row := c.row + 1 }))))

/-! ## Writing global lines (R251, R252, R384) -/

/-- The number under which the write-backs of a copy stream are acknowledged, and the stream that one names. -/
def cpWriter (cl sid : Nat) : Nat := 2 ^ 20 + sid * 1024 + cl
def writerCp (loc : Nat) : Option (Nat × Nat) :=
  if loc < 2 ^ 20 then none else some (loc % 1024, (loc - 2 ^ 20) / 1024)

/-- Writes an owned line that holds its data back to its home, which counts the access: an acknowledgement will come
(R251, R115). Another module's home gets the line with its ownership. -/
def State.returnLine (s : State) (cl : Nat) (o : OwnLine) : State :=
  match o.data with
  | none =>
    -- a line of another module that has been recalled and not written goes back as it was
    if o.recalled && o.dev != s.fabric.self then
      (s.setFabric { s.fabric with remoteOwn := s.fabric.remoteOwn.erase (o.dev, o.line) }).respond 2
        (o.dev * 65536 + unitRouter) 0 unitRouter (.recalled o.line (some ([], false, 64)))
    else s
  | some (l, psn) =>
    let pa := o.line * 64
    if o.dev = s.fabric.self && region pa = 3 then
      let kc := bits pa 31 16
      let s := s.scrPut kc (pa % 65536) l
      let c := s.coreAt kc
      s.setCore kc (c.setRow (rowOf pa) { c.row (rowOf pa) with poison := psn })
    else
      let s := if o.dev = s.fabric.self && region pa < 4 then
          let s := s.heat pa
          let m := s.mem.write o.key pa l
          let ps := (List.range 8).foldl (fun p i => if psn then numIns p (pa / 8 + i) else numDel p (pa / 8 + i)) m.poison
          (s.setMem { m with poison := ps }).send pa (2 ^ 22 + cl) (.copyWritebackAck cl o.sid)
        else if o.dev = s.fabric.self && isPool pa then
          let s := s.heat pa
          let ps := (List.range 8).foldl (fun p i => if psn then numIns p (pa / 8 + i) else numDel p (pa / 8 + i)) s.mem.poison
          (s.setMem { s.mem with poison := ps, keys := mput s.mem.keys o.line o.key }).poolSend pa l true
            (.lineWrite (cpWriter cl o.sid) o.line)
        else if o.dev = s.fabric.self then
          let c := s.cp? cl o.sid
          s.send (2 ^ 21 + cl) (homeOf pa) (.homeAccess {
            srcs := [], org := gcid s (homeOf pa) * 16, va := o.va, pa := pa, pc := 0, job := c.elim 0 CpStream.job, launch := c.elim 0 CpStream.launch,
            part := 0, user := true, ord := false, handler := c.elim true CpStream.handler, release := false,
            dst := cpWriter cl o.sid, how := .line (some l) })
        else
          (s.setFabric { s.fabric with remoteOwn := s.fabric.remoteOwn.erase (o.dev, o.line) }).ask 2 o.dev pa unitRouter 0 0 0
            (.lineWrite o.line (cpWriter cl o.sid) l (BitVec.allOnes 64) psn (wireKey s o.key))
      match s.cp? cl o.sid with
      | none => s
      | some c => s.setCp cl o.sid { c with outstanding := c.outstanding + 1 }

/-- The outcome of taking ownership of a destination line. -/
inductive OwnRes
  | own (o : OwnLine) (s : State)
  | wait (s : State)
  | fault (cause level : Nat)
  | type
  | order (sub : Nat)

/-- The clusters whose copy engines own a line, but for one stream's own. -/
def otherOwners (s : State) (cl sid dev line : Nat) : List Nat :=
  s.work.clusters.filterMap (fun y =>
    if y.2.copyLines.any (fun o => o.dev == dev && o.line == line && !(y.1 == cl && o.sid == sid)) then some y.1 else none)

/-- Asks another module's home for a line, for an agent of this module (R72, R74). -/
def State.askOwn (s : State) (dev line agent : Nat) : State :=
  if s.fabric.ownAsked.any (fun x => x.1 == dev && x.2.1 == line) then s
  else (s.setFabric { s.fabric with ownAsked := s.fabric.ownAsked ++ [(dev, line, agent)] }).ask 2 dev (line * 64) unitRouter 0 0 0
    (.lineOwn line agent)

/-- Whether the line has yet to be owned (R251): an owner elsewhere gives it back first, and another module's home grants
it; lines of PHASED memory, of scratchpads and of host space have no owner. -/
def cpAwaits (s : State) (cl sid : Nat) (c : CpStream) (x : Xlat) : Option State :=
  let line := x.pa / 64
  if region x.pa = 3 then none
  else match otherOwners s cl sid x.dev line with
    | o :: _ => some (if x.dev = s.fabric.self then s.post (.lineRecall o line) else s)
    | [] =>
      if x.dev = s.fabric.self then
        (if peerBlocks s line true then some (s.recallPeers line) else if movingAt s x.pa then some s else none)
      else if x.ty = 1 || s.fabric.remoteOwn.contains (x.dev, line) then none
      else some (s.askOwn x.dev line (gcid s c.core))

/-- The faults of a write to a line of this module, found before it is owned (R107, R108, R112, R94). -/
def cpWriteFault (s : State) (x : Xlat) : Option Nat :=
  if x.dev != s.fabric.self then none
  else if !paOk s x.pa then some causePhysaddr
  else if region x.pa = 2 && !s.mem.wsOpen.getLsbD (bits x.pa 38 36) then some causeWsclosed
  else if writeBarred s x.pa then some causePerm
  else none

/-- Takes exclusive ownership of the destination line of a row (R251, R384). -/
def cpOwn (s : State) (cl sid : Nat) (c : CpStream) (va : Word) (row : Nat) (wsOnly : Bool) : OwnRes :=
  match translate s c.core c.job c.user va .write with
  | (.fault cause lv, _) => .fault cause lv
  | (.zpage pte, s) => .wait (s.askPage pte c.job va c.launch (.copy cl sid))
  | (.ok x, s) =>
    let key := s.accKey c.job va
    if x.ty = 2 then .fault causePerm 0
    else if wsOnly && x.ty != 3 then .type
    else match (if c.ord then cpLineOrder s c .write x else none) with
    | some sub => .order sub
    | none => match cpWriteFault s x with
      | some cause => .fault cause 0
      | none =>
        if encrypted (region x.pa) && !s.keyLive key then .fault causeKeydead 0
        else match lineDead s (5000 + cl) x.dev (x.pa / 64) with
        | some cause => .fault cause 0
        | none => match cpAwaits s cl sid c x with
          | some s => .wait s
          | none =>
            let s := if x.ty = 1 then s.flushOwn c.core x.dev (x.pa / 64) else s
            let s := if x.dev = s.fabric.self then s.heat x.pa else s
            .own ⟨sid, row, x.dev, x.pa / 64, key, va, none, false⟩ s

/-- The lines that a stream owns. -/
def ownLines (c : Cluster) (sid : Nat) : List OwnLine := c.copyLines.filter (fun o => o.sid == sid)

/-- Merges a row into its owned line; a recalled line returns home at once (R252). -/
def State.mergeOwn (s : State) (cl sid row : Nat) (l : List Byte) (psn : Bool) : State :=
  let c := s.cluster cl
  match c.copyLines.find? (fun o => o.sid == sid && o.row == row) with
  | none => s
  | some o =>
    let rest := c.copyLines.filter (fun x => !(x.sid == sid && x.row == row))
    let o := { o with data := some (l, psn) }
    if o.recalled then (s.setCluster cl { c with copyLines := rest }).returnLine cl o
    else s.setCluster cl { c with copyLines := rest ++ [o] }

/-- Every line that a stream owns is written back (R251). -/
def State.returnAll (s : State) (cl sid : Nat) : State :=
  let c := s.cluster cl
  let mine := ownLines c sid
  let s := s.setCluster cl { c with copyLines := c.copyLines.filter (fun o => o.sid != sid) }
  mine.foldl (fun s o => s.returnLine cl o) s

/-- The row whose line is owned next: lines are taken in ascending order of their addresses (R251). -/
def cpNextOwn (o : CpOps) (c : CpStream) (segEnd : Nat) : Nat :=
  if o.stride.toInt < 0 then segEnd - 1 - (c.owned - c.seg) else c.owned

/-- The own row that the destination line of a row is: it enters the write set before the line is written (R168). -/
def cpTarget (s : State) (c : CpStream) (o : CpOps) (row : Nat) : List (Nat × Bool) :=
  if !c.ord then [] else (((cpWhere s c o .write row).filter (cpMine s c)).map (fun x => (rowOf x.pa, true))).toList

/-- A command that writes rows of a core to global lines: ownership 512 lines at a time, then the rows, each once it is
full, then the write-backs (R251, R386). -/
def cpWrite (o : CpOps) (wsOnly : Bool) (s : State) : Res :=
  withCp s (fun cl sid c =>
    let n := o.nrow.toNat + 1
    let kc := clusterCore cl o.core.toNat
    cpBegin s cl sid c (cpBad o false) (cpOrder s c o (kc != c.core) .write)
      (rowSpan o.row.toNat n false ++ cpVaRows s c o .write)
      (fun s c =>
        let c := { c with ww := c.ww || wsOnly }
        let segEnd := min n (c.seg + 512)
        if c.owned < segEnd then cpEnter s c (cpTarget s c o (cpNextOwn o c segEnd)) (fun s =>
          let row := cpNextOwn o c segEnd
          let va := cpVa o row
          match cpOwn s cl sid c va row wsOnly with
          | .wait s => .next s
          | .fault cause lv => .next (s.cpFault cl sid c cause lv accCopyWrite va)
          | .type => .next ((s.returnAll cl sid).endCp cl sid c 3 0 0 false true)
          | .order sub => .next ((s.returnAll cl sid).endCp cl sid c 7 0 sub false true)
          | .own l s =>
            let x := s.cluster cl
            .next ((s.setCluster cl { x with copyLines := x.copyLines ++ [l] }).setCp cl sid { c with owned := c.owned + 1 }))
        else
          let r := o.row.toNat + c.row
          let t := (s.coreAt kc).row r
          if !t.full then .next (s.setCp cl sid { c with waitFor := some (false, kc, r, true) })
          else
            let c := { c with row := c.row + 1, psn := c.psn || t.poison }
            let s := (s.setCp cl sid c).mergeOwn cl sid (c.row - 1) (s.scrBytes kc (64 * r) 64) t.poison
            if c.row < segEnd then .next s
            else
              let s := s.returnAll cl sid
              let c := (s.cp? cl sid).getD c
              if segEnd = n then .next (s.setCp cl sid c.stepped)
              else .next (s.setCp cl sid { c with seg := segEnd })))

/-! ## The commands -/

/-- CPNOP (R385). -/
def execCpnop (s : State) : Res := withCp s (fun cl sid c => .next (s.setCp cl sid c.stepped))

/-- CPGET (R384). -/
def execCpget (o : CpOps) (s : State) : Res := cpRead o [o.core.toNat] false false s

/-- CPPUT (R384). -/
def execCpput (o : CpOps) (s : State) : Res := cpWrite o false s

/-- The cores that MASK selects (R383). -/
def maskCores (m : BitVec 16) : List Nat := (List.range 16).filter (fun i => m.getLsbD i)

/-- CPMC (R384). -/
def execCpmc (o : CpOps) (s : State) : Res := cpRead o (maskCores o.mask) true false s

/-- CPWS: WS pages only (R384). -/
def execCpws (o : CpOps) (s : State) : Res := cpRead o (maskCores o.mask) true true s

/-- CPWW: WS pages only (R384). -/
def execCpww (o : CpOps) (s : State) : Res := cpWrite o true s

/-- A command that acts on rows of one core, a row a turn (R385). -/
def cpRowsCmd (core : BitVec 4) (row nrow : BitVec 10) (bad : Bool) (f : State → Nat → Nat → State) (s : State) : Res :=
  withCp s (fun cl sid c =>
    let kc := clusterCore cl core.toNat
    cpBegin s cl sid c (bad || 768 < row.toNat + nrow.toNat + 1) (if kc != c.core then some 3 else none) (rowSpan row.toNat (nrow.toNat + 1) true)
      (fun s c =>
        let s := f s kc (row.toNat + c.row)
        if c.row = nrow.toNat then .next (s.setCp cl sid c.stepped)
        else .next (s.setCp cl sid { c with row := c.row + 1 })))

/-- CPFILL (R385). -/
def execCpfill (core : BitVec 4) (row nrow : BitVec 10) (pat : Word) (s : State) : Res :=
  cpRowsCmd core row nrow false
    (fun s kc r => s.putRow kc r ((List.range 8).flatMap (fun _ => natBytes 8 pat.toNat)) false) s

/-- CPTAG: empty, full, clear poison (R385). -/
def execCptag (core : BitVec 4) (row nrow : BitVec 10) (act : BitVec 2) (s : State) : Res :=
  cpRowsCmd core row nrow (act == 3)
    (fun s kc r =>
      if act = 0 then s.setFull (scrPa kc (64 * r)) false
      else if act = 1 then s.setFull (scrPa kc (64 * r)) true
      else
        let c := s.coreAt kc
        s.setCore kc (c.setRow r { c.row r with poison := false })) s

/-- CPWAIT (R385). -/
def execCpwait (core : BitVec 4) (row : BitVec 10) (full : Bool) (s : State) : Res :=
  withCp s (fun cl sid c =>
    let kc := clusterCore cl core.toNat
    cpBegin s cl sid c (768 ≤ row.toNat) (if kc != c.core then some 3 else none) []
      (fun s c =>
        if ((s.coreAt kc).row row.toNat).full == full then .next (s.setCp cl sid c.stepped)
        else .next (s.setCp cl sid { c with waitFor := some (true, kc, row.toNat, full) })))

/-- The tag that a CPWAIT waits for has been seen (R385). -/
def execCpwaitMatch (cluster sid : Nat) (s : State) : Res :=
  match s.cp? cluster sid with
  | some c =>
    match c.waitFor with
    | some (true, _) => .next (s.setCp cluster sid c.stepped)
    | _ => .next s
  | none => .next s

/-- CPSIG: a signal token to q1, waiting for a free place (R385, R375). -/
def execCpsig (val : BitVec 12) (s : State) : Res :=
  withCp s (fun cl sid c =>
    let id : SlotId := ⟨c.core, c.slot⟩
    let sl := s.slotAt id
    if c.stop then .next (s.setCp cl sid c.stepped)
    else if sl.toks1.length + sl.streams1 < 8 then
      let tok := tokenWord c.tag c.idx val.toNat 0 0 false true false false false
      .next ((s.setSlot id { sl with toks1 := sl.toks1 ++ [(tok, 0)] }).setCp cl sid c.stepped)
    else .next s)

/-- CPEND: the final token follows the acknowledged write-backs (R385, R251). -/
def execCpend (s : State) : Res :=
  withCp s (fun cl sid c =>
    let s := s.endCp cl sid c 0 0 0 false false
    .next (s.finishCp cl sid ((s.cp? cl sid).getD c)))

/-- The source row that a copy command waits for is full (R386): the command goes on. -/
def execCopySourceRowFull (cluster sid : Nat) (s : State) : Res :=
  match s.cp? cluster sid with
  | some c =>
    match c.waitFor with
    | some (false, _) => .next (s.setCp cluster sid { c with waitFor := none })
    | _ => .next s
  | none => .next s

/-- A write-back is acknowledged (R251). -/
def execCopyWritebackAck (cluster sid : Nat) (s : State) : Res :=
  let s := s.arrive (.copyWritebackAck cluster sid)
  match s.cp? cluster sid with
  | none => .next s
  | some c =>
    let c := { c with outstanding := c.outstanding - 1 }
    .next ((s.setCp cluster sid c).finishCp cluster sid c)

/-- A line that a copy engine owns goes back to its home once the command's data are in it (R252). -/
def State.recallOwn (s : State) (cl dev line : Nat) : State :=
  let c := s.cluster cl
  let hit (o : OwnLine) : Bool := o.dev == dev && o.line == line
  let mine := c.copyLines.filter hit
  if mine.all (fun o => o.data.isSome) then
    mine.foldl (fun s o => s.returnLine cl o) (s.setCluster cl { c with copyLines := c.copyLines.filter (fun o => !hit o) })
  else s.setCluster cl { c with copyLines := c.copyLines.map (fun (o : OwnLine) => if hit o then { o with recalled := true } else o) }

/-- A line of this module that a copy engine owns is recalled (R252). -/
def execLineRecall (cluster line : Nat) (s : State) : Res := .next (s.recallOwn cluster s.fabric.self line)

/-- A stream ends at a decode condition (R289): its token carries DEC and the indication. For a copy stream `sid` is its
number in the cluster of `core`. -/
def execStreamDecodeCondition (copy : Bool) (core sid dsub : Nat) (s : State) : Res :=
  if copy then
    match s.cp? (clusterOf core) sid with
    | none => .next s
    | some c =>
      let s := s.endCp (clusterOf core) sid c 0 dsub 0 true true
      .next (s.finishCp (clusterOf core) sid ((s.cp? (clusterOf core) sid).getD c))
  else
    match (s.coreAt core).mx with
    | [] => .next s
    | m :: _ => .next (s.endMx core m 0 dsub 0 true true)

end Sys2Proof.Machine
end

