-- ==== Sys2Proof/Machine/Queue.lean ====
section
/-! DEFINITION. MOVQ and the queue ports: major 0x28 (spec 15 R373 to R375, R382, 16 R389, R390). -/

namespace Sys2Proof.Machine

open Sys2Proof

/-- The first line's address of a start word (R373). -/
def startLine (w : Word) : Word := (w.extractLsb' 6 48 ++ (0 : BitVec 6)).signExtend 64

/-- Whether a start word has a reserved field set, or names no table (R373). -/
def badStart (q : Nat) (w : Word) : Bool :=
  bits w.toNat 57 54 != 0 ||
  (if q = 0 then (1 ≤ bits w.toNat 2 0 && bits w.toNat 2 0 ≤ 3) || (1 ≤ bits w.toNat 5 3 && bits w.toNat 5 3 ≤ 3)
   else bits w.toNat 5 0 != 0)

/-- The unit-absent trap of q4 on a part without the token engine (R22, R389). -/
def State.q4Trap (s : State) (q : Nat) : Option Trap :=
  if q = 4 && s.part == .ny7710 then some (s.trapHere trapAbsent 0) else none

/-- The illegal-instruction trap of a func value that a port does not accept (R389). -/
def State.funcTrap (s : State) (bad : Bool) : Option Trap := if bad then some (s.trapHere trapIllegal 0) else none

/-- The start of a matrix stream through q0 (R375, R382). -/
def startMatrix (s : State) (v : Word) (sl : Slot) : Res :=
  let c := s.coreAt s.here
  if sl.streams0 != 0 || !c.mx.isEmpty || 4 ≤ sl.toks0.length + sl.streams0 then .next s
  else match readChain s s.here sl.task.job (!sl.sup) 32 (startLine v) true [] with
    | (.long, s) => .next (s.raise s.sched.cur s.badOperand)
    | (.fault cause lv va, s) => .next (s.parkFault cause accFetch 6 lv va)
    | (.zpage pte va, s) => .next (s.askPage pte sl.task.job va sl.task.launch (.thread s.sched.cur))
    | (.miss, s) => .next s
    | (.held cmds ends, s) =>
      let probe := (((s.startMx s.here s.sched.cur.slot sl.task v cmds ends).coreAt s.here).mx.getLast?)
      match s.touchRows s.sched.cur ((probe.map (chainRows s s.here)).getD []) with
      | .wait s => .next s
      | .ok s => .next ((s.startMx s.here s.sched.cur.slot sl.task v cmds ends).retire { sl with streams0 := sl.streams0 + 1 })
      | .unlogged s =>
        .next ((s.startMx s.here s.sched.cur.slot sl.task v cmds ends).retire { sl with streams0 := sl.streams0 + 1 })

/-- The number of a new copy stream of a cluster: above those that run, so that the numbers follow the order of their
start; none while 32 streams run (R250). -/
def nextStream (m : Map CpStream) : Option Nat :=
  if 32 ≤ m.length then none else some (m.foldl (fun n x => max n (x.1 + 1)) 0)

/-- The start of a copy stream through q1 (R375). -/
def startCopy (s : State) (v : Word) (sl : Slot) : Res :=
  let cl := clusterOf s.here
  match nextStream (s.cluster cl).copies with
  | none => .next s
  | some sid =>
    if 4 ≤ sl.streams1 || 8 ≤ sl.toks1.length + sl.streams1 then .next s
    else
      let c : CpStream :=
        { core := s.here, slot := s.sched.cur.slot, job := sl.task.job, launch := sl.task.launch, ord := sl.task.ord,
          spec := sl.task.spec, handler := sl.task.handler, line := startLine v, cmd := 0, first := true,
          idx := 0, begun := false, seg := 0, owned := 0, row := 0, tag := bits v.toNat 63 58, psn := false, fault := none,
          outstanding := 0, waitFor := none, user := !sl.sup, ww := false, stop := false, fin := none }
      .next ((s.setCp cl sid c).retire { sl with streams1 := sl.streams1 + 1 })

/-- MOVQ, push (R389): q0 and q1 with func 0. -/
def execMovqPush (g : Reg) (q : BitVec 3) (sync : Bool) (func : BitVec 8) (s : State) : Res :=
  let r := issueAfter s [s.funcTrap (q.toNat ≤ 1 && func != 0), s.q4Trap q.toNat]
    ⟨some (g.toNat, sync), none, none, [], []⟩
    (fun x => if 2 ≤ q.toNat then some s.badOperand
      else x.a.bind (fun v => if badStart q.toNat v then some s.badOperand else none))
    (fun v sl => if s.acqWait then .next s else if q = 0 then startMatrix s v.a sl else startCopy s v.a sl)
  if q.toNat ≤ 1 then onHome s r else r

/-- The trap that a popped token raises (R375). -/
def tokenTrap (q : Nat) (tok : Word) (sub : Nat) (npc : Word) : Option Trap :=
  let n := tok.toNat
  let dsub := bits n 15 8
  let cause := bits n 23 16
  if !bit n 0 then none
  else if bit n 2 then (if dsub < 0x10 then some ⟨trapFetch, dsub, tok, npc⟩ else some ⟨trapIllegal, 0, tok, npc⟩)
  else if cause = 7 then some ⟨trapOrdered, sub, tok, npc⟩
  else if q = 0 then some ⟨trapMiss, cause, tok, npc⟩
  else if cause = 1 then some ⟨trapMemory, 0, tok, npc⟩
  else some ⟨trapOperand, 0, tok, npc⟩

/-- A token pop of q0 or q1 (R375, R389): the oldest token; the trap of a token with ERR comes after the pop. -/
def popToken (s : State) (q : Nat) (d : Nat) (sl : Slot) : Res :=
  match (if q = 0 then sl.toks0 else sl.toks1) with
  | [] => .next s
  | (tok, sub) :: rest =>
    let sl := if q = 0 then { sl with toks0 := rest } else { sl with toks1 := rest }
    let s := s.retire (s.writeG sl d tok)
    match tokenTrap q tok sub s.sched.ir.npc with
    | none => .next s
    | some t => .next (s.raise s.sched.cur t)

/-- The number of messages waiting at a core: all levels, or one (R389). -/
def mailCount (c : Core) (func : Nat) : Nat :=
  if func = 0 then (c.mail.map (fun x => x.2.length)).foldl (· + ·) 0 else (mget c.mail (func - 1) []).length

/-- The counter that q2, q4 or q5 shows. -/
def Slot.portCount (sl : Slot) (q : Nat) : Nat := if q = 2 then sl.unackMsg else if q = 4 then sl.q4 else sl.q5

/-- MOVQ, pop (R389). -/
def execMovqPop (g : Reg) (q : BitVec 3) (func : BitVec 8) (s : State) : Res :=
  let n := q.toNat
  let f := func.toNat
  let badFunc := if n ≤ 1 then f != 0 else if n = 3 then decide (4 < f) else if n ≤ 5 then decide (1 < f) else false
  let r := issueAfter s [s.funcTrap badFunc, s.q4Trap n] { noDemand with dests := [g.toNat] }
    (fun _ =>
      if 6 ≤ n then some s.badOperand
      else if n = 0 && s.me.toks0.isEmpty && s.me.streams0 == 0 then some s.badOperand
      else if n = 1 && s.me.toks1.isEmpty && s.me.streams1 == 0 then some s.badOperand else none)
    (fun _ sl =>
      if s.acqWait then .next s
      else if n ≤ 1 then popToken s n g.toNat sl
      else if n = 3 then
        (if modOf sl.task.dcore != s.fabric.self then .next (foreignRequest s sl g.toNat)
         else .next (s.retire (s.writeG sl g.toNat (w64 (mailCount (s.coreAt (coreOf sl.task.dcore)) f)))))
      else if f = 1 && sl.portCount n != 0 then .next s
      else .next (s.retire (s.writeG sl g.toNat (w64 (sl.portCount n)))))
  if n ≤ 1 then onHome s r else r

end Sys2Proof.Machine
end

