-- ==== Sys2Proof/Machine/Sluice.lean ====
section
/-! DEFINITION. The sluice: lane budgets, leases, control messages, lane states (spec 02 R26 to R50, 16 R408). -/

namespace Sys2Proof.Machine

open Sys2Proof

/-! ## Slots, fibres and wavelengths (R26, R27) -/

/-- The opposite of a direction (R26). -/
def opposite (d : Nat) : Nat := if d % 2 = 0 then d + 1 else d - 1

/-- The fibre of a lane, and the wavelength of a lane of a direction (R27). -/
def fibreOf (l : Nat) : Nat := l / 2
def waveOf (d l : Nat) : Nat := (d + fibreOf l) % 8 + 8 * (l % 2)

/-- The slot of a lane of a direction: its transmit slot here, and the receive slot on which it arrives (R27). -/
def laneSlot (d l : Nat) : Nat := 16 * fibreOf l + waveOf d l

/-- The direction that a transmit slot feeds, and the direction that feeds a receive slot (R27). -/
def fedDir (slot : Nat) : Nat := (slot % 16 + 32 - slot / 16) % 8
def feedingDir (slot : Nat) : Nat := opposite (fedDir slot)

/-- The lane of a slot in its direction (R27). -/
def slotLane (slot : Nat) : Nat := 2 * (slot / 16) + slot % 16 / 8

/-! ## Directions and budgets (R28 to R31) -/

/-- A direction of the module. -/
def State.dir (s : State) (d : Nat) : Dir := mget s.fabric.dirs d Dir.reset

/-- Replaces a direction. -/
def State.setDir (s : State) (d : Nat) (x : Dir) : State := s.setFabric { s.fabric with dirs := mput s.fabric.dirs d x }

/-- Whether the fabric is the electrical one of two modules (R1, R23). -/
def electrical (p : Part) : Bool := p != .ny7740

/-- A lane's state. -/
def lane (m : Map Nat) (l : Nat) : Nat := mget m l 0

/-- Sets a lane's state. -/
def setLane (m : Map Nat) (l st : Nat) : Map Nat := if st = 0 then mdel m l else mput m l st

/-- Sets the state of some lanes. -/
def setLanes (m : Map Nat) (ls : List Nat) (st : Nat) : Map Nat := ls.foldl (fun m l => setLane m l st) m

/-- The lanes of a map in given states. -/
def lanesIn (m : Map Nat) (p : Nat → Bool) : List Nat := (m.filter (fun x => p x.2)).map (·.1)

/-- Slots that count against a budget: GRANTED, RETUNING, LIT, DRAINING (R29). -/
def counted (m : Map Nat) : Nat := (lanesIn m (fun st => 1 ≤ st && st ≤ 4)).length

/-- Counted slots that are not draining. -/
def staying (m : Map Nat) : Nat := (lanesIn m (fun st => 1 ≤ st && st ≤ 3)).length

/-- The lane count of a direction (R30). -/
def Dir.count (x : Dir) : Nat := counted x.tx

/-- Whether a lane of a direction is LIT. -/
def Dir.lit (x : Dir) : Bool := !(lanesIn x.tx (· == 3)).isEmpty

/-- The service lane: lane 0, or the lowest-numbered lit lane while lane 0 is not lit (R28). -/
def Dir.service (x : Dir) : Nat := if lane x.tx 0 = 3 then 0 else (lanesIn x.tx (· == 3)).headD 0

/-- The lanes that requests not yet answered ask for. -/
def Dir.asked (x : Dir) : Nat := (x.pend.map (fun p => p.msg.count)).getD 0

/-- Transmit slots counted or reserved. -/
def txUsed (s : State) : Nat := (s.fabric.dirs.map (fun x => x.2.count + x.2.asked)).foldl (· + ·) 0

/-- Receive slots counted, or kept for the replacement of a FAILED one (R47). -/
def rxUsed (s : State) : Nat := (s.fabric.dirs.map (fun x => counted x.2.rx + x.2.owed.length)).foldl (· + ·) 0

/-- The mask of a list of lanes. -/
def maskOf (l : List Nat) : BitVec 64 := l.foldl (fun m i => m ||| (1#64 <<< i)) 0

/-- The lanes of a mask. -/
def maskLanes (m : BitVec 64) : List Nat := (List.range 64).filter (fun i => m.getLsbD i)

/-- The lowest-numbered DARK lanes (R41). -/
def darkLanes (m : Map Nat) (n : Nat) : List Nat := ((List.range 64).filter (fun l => lane m l == 0)).take n

/-- The lanes of a direction that are not FAILED. -/
def soundLanes (m : Map Nat) : Nat := ((List.range 64).filter (fun l => lane m l != 5)).length

/-- The lanes that a request on its way proposes. -/
def Dir.proposed (x : Dir) : List Nat := (x.pend.filter (·.sent)).elim [] (fun p => maskLanes p.msg.mask)

/-- The lowest-numbered DARK lane that no request on its way proposes: it replaces a FAILED one (R47). -/
def Dir.spare (x : Dir) : Option Nat := (darkLanes x.tx 64).find? (fun l => !x.proposed.contains l)

/-! ## Messages and results -/

/-- Control message types (R41). -/
def lgreqType : Nat := 1
def lgackType : Nat := 2
def lgnakType : Nat := 3
def lshrinkType : Nat := 4
def lrecallType : Nat := 5
def lswapType : Nat := 6
def llitType : Nat := 8
def laliveType : Nat := 9

/-- The four words of a control message (R40). -/
def packSluice (type : Nat) (m : SluiceMsg) : Word × Word × Word × Word :=
  (w64 (type % 16 * 2 ^ 60 + m.seq.toNat * 2 ^ 52 + m.dir.toNat * 2 ^ 49 + m.count % 128 * 2 ^ 42 + m.modid % 2 ^ 14 * 2 ^ 28),
   m.mask, w64 (m.term % 2 ^ 16 * 2 ^ 48 + m.gen % 2 ^ 16 * 2 ^ 32 + m.reason % 256 * 2 ^ 24), 0)

/-- The type and the fields of a control message; its reserved fields are ignored (R40). -/
def unpackSluice (w0 w1 w2 _w3 : Word) : Nat × SluiceMsg :=
  (bits w0.toNat 63 60,
   { seq := BitVec.ofNat 8 (bits w0.toNat 59 52), dir := BitVec.ofNat 3 (bits w0.toNat 51 49), count := bits w0.toNat 48 42,
     modid := bits w0.toNat 41 28, mask := w1, term := bits w2.toNat 63 48, gen := bits w2.toNat 47 32,
     reason := bits w2.toNat 31 24 })

/-- A message of this module on a direction. -/
def sluiceMsg (s : State) (d count : Nat) (mask : BitVec 64) (reason : Nat) : SluiceMsg :=
  { seq := (s.dir d).seq, dir := BitVec.ofNat 3 d, count := count, modid := s.fabric.self, mask := mask, term := 0,
    gen := (s.dir d).gen.toNat, reason := reason }

/-- A control message leaves on the service lane; with no lane LIT it waits for one, but for a keepalive (R28, R40). -/
def State.sluiceOut (s : State) (d type : Nat) (m : SluiceMsg) : State :=
  let x := s.dir d
  if x.lit then
    let (w0, w1, w2, w3) := packSluice type m
    s.emit (.sluice d w0 w1 w2 w3)
  else if type = laliveType || !x.present then s
  else s.setDir d { x with ctl := x.ctl ++ [⟨type, m⟩] }

/-- Sends a control message on a direction, with a new sequence number. -/
def State.sluiceSend (s : State) (d type : Nat) (m : SluiceMsg) : State :=
  let x := s.dir d
  (s.setDir d { x with seq := x.seq + 1 }).sluiceOut d type { m with seq := x.seq }

/-- Answers a control message: the reply echoes its sequence number (R40). -/
def State.sluiceReply (s : State) (d type : Nat) (m : SluiceMsg) (seq : BitVec 8) : State :=
  s.sluiceOut d type { m with seq := seq }

/-- Writes a unit's result to a slot's destination, when that result is still awaited (R388). -/
def State.unitResult (s : State) (id : SlotId) (d : Nat) (v : Word) : State :=
  let id : SlotId := ⟨s.forwarded id.core, id.slot⟩
  let sl := s.slotAt id
  if d = 0 || !(sl.cell d).pend then s else s.setSlot id (sl.setG d v)

/-- The result word of R33. -/
def leaseWord (status count gen d : Nat) : Word := w64 (status * 2 ^ 56 + count * 2 ^ 49 + gen * 2 ^ 16 + d)

/-- The lease handle of a direction (R33). -/
def Dir.handle (x : Dir) (d : Nat) : Nat := x.gen.toNat * 2 ^ 16 + d

/-! ## Lanes that leave use (R31, R43, R45, R46) -/

/-- From the cycle on which a present direction has no LIT lane it has 10 µs before it goes down (R31). -/
def State.noteDark (s : State) (d : Nat) : State :=
  let x := s.dir d
  if x.lit || !x.present then s.setDir d { x with dark := 0 }
  else if x.dark != 0 then s
  else (s.setDir d { x with dark := s.now + 1 }).after 17000 (.directionDown d)

/-- The packets begun on lanes that have failed are sent again, in their order, on the service lane (R46). -/
def State.relink (s : State) (d : Nat) : State :=
  let x := s.dir d
  let lost (k : LinkPkt) : Bool := lane x.tx k.lane != 3 && lane x.tx k.lane != 4
  if !x.lit || !x.link.any lost then s
  else
    let s := s.setDir d { x with link := x.link.map (fun (k : LinkPkt) => if lost k then { k with lane := x.service } else k) }
    (x.link.filter lost).foldl (fun s k => s.emit (.packet d x.service k.num k.pkt)) s

/-- A DRAINING lane with no packet left to acknowledge is done (R43). -/
def State.drained (s : State) (d l : Nat) : State :=
  if lane (s.dir d).tx l = 4 && !(s.dir d).link.any (fun k => k.lane == l) then s.post (.drainDone d l) else s

/-- Moves lanes out of use: LIT lanes drain, GRANTED and RETUNING lanes go dark (R43). LSHRINK names them, with the
sequence number of the message that it answers, if any (R40). -/
def State.releaseLanes (s : State) (d : Nat) (ls : List Nat) (reason : Nat) (echo : Option (BitVec 8)) : State :=
  let x := s.dir d
  let lit := ls.filter (fun l => lane x.tx l == 3)
  let s := s.setDir d { x with tx := ls.foldl (fun m l => setLane m l (if lane m l = 3 then 4 else 0)) x.tx }
  let s := lit.foldl (fun s l => ((s.untimer (.drainTimeout d l)).after 1700 (.drainTimeout d l)).drained d l) s
  let m := sluiceMsg s d ls.length (maskOf ls) reason
  let s := match echo with
    | some q => s.sluiceReply d lshrinkType m q
    | none => if ls.isEmpty then s else s.sluiceSend d lshrinkType m
  s.noteDark d

/-- The lanes that a shrink by n takes: the highest-numbered LIT lanes other than the service lane, then lanes not yet lit
(R35). -/
def Dir.shrinkSet (x : Dir) (n : Nat) : List Nat :=
  (((lanesIn x.tx (· == 3)).filter (· != x.service)).reverse ++ (lanesIn x.tx (fun st => st == 1 || st == 2)).reverse).take n

/-- Takes n lanes of a direction out of use. -/
def State.shrinkBy (s : State) (d n reason : Nat) : State := s.releaseLanes d ((s.dir d).shrinkSet n) reason none

/-- Revokes the lease of a direction whose lanes were taken (R38). The event's lane count is the one at which the direction
continues, without the lanes still draining (notes/assumptions/16). -/
def State.revoke (s : State) (d : Nat) : State :=
  let x := s.dir d
  match x.lease with
  | none => s
  | some l =>
    let s := s.setDir d { x with lease := none, lstate := 3 }
    s.event 1 l.job (w64 (l.part * 2 ^ 48 + d)) (w64 (x.handle d)) (w64 (staying x.tx)) 0

/-! ## Budget moved between directions (R36 to R38) -/

/-- The direction other than d with the most by a measure, above nothing, ties in ascending order. -/
def richest (d : Nat) (f : Nat → Nat) : Option Nat :=
  (((List.range 8).filter (fun e => e != d && 0 < f e)).foldl
    (fun (best : Option Nat) e => match best with
      | none => some e
      | some b => if f b < f e then some e else some b) none)

/-- The transmit lanes of a direction above the default. -/
def txExcess (s : State) (e : Nat) : Nat := staying (s.dir e).tx - 32

/-- Takes transmit lanes from the directions that hold the most above the default, never below it (R36, R37). -/
def State.takeLanes (s : State) (d : Nat) : Nat → Nat → State
  | 0, _ => s
  | fuel + 1, short =>
    if short = 0 then s
    else match richest d (txExcess s) with
      | none => s
      | some e =>
        let n := min short (txExcess s e)
        ((s.shrinkBy e n 3).revoke e).takeLanes d fuel (short - n)

/-- The lanes above the default of the other directions (R37). -/
def spareTx (s : State) (d : Nat) : Nat :=
  ((List.range 8).map (fun e => if e = d then 0 else txExcess s e)).foldl (· + ·) 0

/-- Transmit slots that are draining and will free. -/
def drainingTx (s : State) : Nat := (s.fabric.dirs.map (fun x => x.2.count - staying x.2.tx)).foldl (· + ·) 0

/-- The result of a lease request reaches its destination. -/
def State.leaseResult (s : State) (asker : Option (SlotId × Nat)) (status count d : Nat) : State :=
  match asker with
  | none => s
  | some (id, dst) => s.unitResult id dst (leaseWord status count (s.dir d).gen.toNat d)

/-- A refusal for want of budget: NOTX, and one more refusal in a row; under the starvation rule NOSPARE (R35, R37). -/
def State.refuseTx (s : State) (d : Nat) (asker : Option (SlotId × Nat)) (starved : Bool) : State :=
  let x := s.dir d
  if starved then s.leaseResult asker 9 x.count d
  else (s.setDir d { x with refuse := min 4 (x.refuse + 1) }).leaseResult asker 1 x.count d

/-- Sends the LGREQ of a direction when the transmit budget covers its lanes (R35, R36). Lanes that failed meanwhile are
proposed no more: a reversion asks for what is left, a LEASE is refused (notes/assumptions/16). -/
def State.sendPend (s : State) (d : Nat) : State :=
  let x := s.dir d
  match x.pend with
  | none => s
  | some p =>
    if p.sent || 256 < txUsed s || !x.present then s
    else
      let ls := darkLanes x.tx p.msg.count
      if ls.length < p.msg.count && (p.asker.isSome || ls.isEmpty) then
        let s := s.setDir d { x with pend := none }
        if p.asker.isSome then (s.refuseTx d p.asker p.starve).post (.lgreqTimeout d) else s
      else
        let m := { p.msg with mask := maskOf ls, count := ls.length, seq := x.seq }
        ((s.setDir d { x with pend := some { p with sent := true, at_ := s.now, msg := m } }).sluiceSend d lgreqType m).after
          34000 (if p.asker.isSome then .lgreqTimeout d else .reversionResend d)

/-- Sends the LGREQs that the transmit budget covers. -/
def State.sendPends (s : State) : State := (List.range 8).foldl State.sendPend s

/-- Asks for lanes toward the default once a lease has ended, or a revoked direction stands below it (R36, R38). -/
def State.growBack (s : State) (d reason : Nat) : State :=
  let x := s.dir d
  let need := min (32 - staying x.tx) (soundLanes x.tx - staying x.tx)
  if need = 0 || x.pend.isSome || !x.present then s
  else
    let m := sluiceMsg s d need 0 reason
    let s := s.setDir d { x with pend := some ⟨m, false, s.now, none, 0, 0, 32, 0, false⟩ }
    (s.takeLanes d 8 (txUsed s - drainingTx s - 256)).sendPends

/-- A reverting direction that stands at the default with nothing draining has no lease (R49). -/
def State.settleDir (s : State) (d : Nat) : State :=
  let x := s.dir d
  if x.lstate = 2 && x.pend.isNone && x.count = staying x.tx && (x.count = 32 || x.count = soundLanes x.tx || !x.present) then
    s.setDir d { x with lstate := 0 }
  else s

/-- A direction without a lease moves toward the default: lanes above it are released, and missing ones asked for (R36,
R38). -/
def State.revertDir (s : State) (d reason : Nat) : State :=
  let x := s.dir d
  (if 32 < staying x.tx then s.shrinkBy d (staying x.tx - 32) reason else s.growBack d reason).settleDir d

/-- A direction whose lease has ended or was revoked goes on toward the default once nothing of it drains (R36, R38). -/
def State.revertOn (s : State) (d : Nat) : State :=
  let x := s.dir d
  if (x.lstate = 2 || x.lstate = 3) && x.lease.isNone && x.present then s.revertDir d 1 else s

/-- A lease ends: the direction reverts to the default count (R36). -/
def State.endLease (s : State) (d reason : Nat) : State :=
  (s.setDir d { s.dir d with lease := none, lstate := 2 }).revertDir d reason

/-! ## Deciding a LEASE (R35, R37) -/

/-- Makes a lease active: a new generation, or the same lease with a new term for its holder (R33, R35). -/
def State.grantLease (s : State) (d part job term : Nat) : State :=
  let x := s.dir d
  let expiry := (s.now / 27200 + term) * 27200
  let gen := if x.lease.any (fun l => l.part == part) then x.gen else x.gen + 1
  let s := s.setDir d { x with lease := some ⟨part, job, expiry⟩, lstate := 1, gen := gen, refuse := 0 }
  s.after (expiry - s.now) (.leaseExpiry d)

/-- Whether a lease request word is out of range (R32, R35). -/
def badLease (w : Nat) : Bool :=
  bits w 63 48 == 0 || bits w 22 16 < 4 || 64 < bits w 22 16 || bits w 47 23 != 0 || bits w 15 3 != 0

/-- Decides a LEASE, or starts the exchange that decides it (R34, R35, R37). After four refusals in a row the LGREQ says
that the starvation rule applies, with REASON 3 (notes/assumptions/16). -/
def State.decideLease (s : State) (r : LeaseReq) : State :=
  let w := r.word.toNat
  let d := bits w 2 0
  let t := bits w 22 16
  let term := bits w 63 48
  let x := s.dir d
  let ask := some (r.id, r.d)
  let starved := decide (4 ≤ x.refuse) && s.fabric.starve
  if s.fabric.frozen then s.leaseResult ask 6 x.count d
  else if badLease w then s.leaseResult ask 5 x.count d
  else if !x.present then s.leaseResult ask 4 x.count d
  else if x.lease.any (fun l => l.part != r.part) then s.leaseResult ask 3 x.count d
  else if t ≤ x.count then
    let s := s.shrinkBy d (staying x.tx - t) 0
    (s.grantLease d r.part r.job term).leaseResult ask 0 (min t (staying x.tx)) d
  else
    let need := t - x.count
    let m := { sluiceMsg s d need 0 (if starved then 3 else 0) with term := term }
    let pend (st : Bool) : State :=
      s.setDir d { x with pend := some ⟨m, false, s.now, ask, r.part, r.job, t, term, st⟩ }
    let lack := txUsed s + need - drainingTx s - 256
    if (darkLanes x.tx need).length < need then s.refuseTx d ask starved
    else if txUsed s + need ≤ 256 then (pend false).sendPends
    else if !starved || spareTx s d < lack then s.refuseTx d ask starved
    else ((pend true).takeLanes d 8 lack).sendPends

/-- The LEASEs that wait on a direction are decided in order, up to one that has to wait for an answer. -/
def State.nextLeases (s : State) (d : Nat) : Nat → State
  | 0 => s
  | n + 1 =>
    let x := s.dir d
    match x.waiting, x.pend with
    | r :: rest, none => ((s.setDir d { x with waiting := rest }).decideLease r).nextLeases d n
    | _, _ => s

/-- The next LEASEs that wait on a direction are decided. -/
def State.nextLease (s : State) (d : Nat) : State := s.nextLeases d (s.dir d).waiting.length

/-! ## The instructions (R408) -/

/-- The image of SLDIR[d] (R49, R50). -/
def sldirImage (s : State) (d : Nat) : Word :=
  if electrical s.part then (if d ≤ 1 then w64 (16 * 2 ^ 25 + 16 * 2 ^ 18 + 16 * 2 ^ 11 + 16) else 0)
  else
    let x := s.dir d
    let holder := (x.lease.map (fun l => l.part)).getD 0
    let remain := (x.lease.map (fun l => (l.expiry - s.now) / 27200)).getD 0
    w64 (holder * 2 ^ 48 + remain % 65536 * 2 ^ 32 + (lanesIn x.tx (· == 3)).length * 2 ^ 25 + x.count * 2 ^ 18 +
      (lanesIn x.rx (· == 3)).length * 2 ^ 11 + x.refuse * 2 ^ 8 + x.lstate * 2 ^ 5 + b2n x.present * 16)

/-- The lane states of LEASEQ (R50). -/
def laneImage (s : State) (d l : Nat) : Word :=
  if electrical s.part then (if d ≤ 1 && l < 16 then w64 (3 * 16 + 3) else 0)
  else w64 (lane (s.dir d).rx l * 16 + lane (s.dir d).tx l)

/-- The traps of LEASE and LEASEREL (R22, R48). -/
def leaseTraps (s : State) : List (Option Trap) :=
  [if electrical s.part then some (s.trapHere trapAbsent 0) else none, if s.fabric.usrlease then none else s.privTrap]

/-- A request to a unit of the module of the dispatching core: its destination is pending and the slot goes on (R388). From a
guest elsewhere it goes to that module. -/
def unitForm (s : State) (pre : List (Option Trap)) (m : Demand) (checks : Seen → Option Trap) (d : Nat)
    (k : State → Vals → Slot → State) : Res :=
  issueAfter s pre m checks (fun v sl =>
    let s1 := s.retire (sl.pendG d)
    if modOf sl.task.dcore != s.fabric.self then
      .next (s.askHome ((sl.pendG d).advance s.sched.ir))
    else .next (k s1 v sl))

/-- The operands of a request with one source. -/
def daDemand (o : OpsDA) : Demand := ⟨some (o.a.toNat, o.sa), none, none, [], [o.d.toNat]⟩

/-- LEASE (R408): decided in order of arrival. -/
def execLease (o : OpsDA) (s : State) : Res :=
  unitForm s (leaseTraps s) (daDemand o) noChecks o.d.toNat (fun s v sl =>
    let r : LeaseReq := ⟨s.sched.cur, o.d.toNat, v.a, s.partOf sl.task.launch, sl.task.job⟩
    let d := bits v.a.toNat 2 0
    let x := s.dir d
    if x.pend.isSome || !x.waiting.isEmpty then s.setDir d { x with waiting := x.waiting ++ [r] } else s.decideLease r)

/-- LEASEREL (R408): RELEASED, or STALE when the handle does not name the active lease of the issuer's partition. -/
def execLeaserel (o : OpsDA) (s : State) : Res :=
  unitForm s (leaseTraps s) (daDemand o) noChecks o.d.toNat (fun s v sl =>
    let h := v.a.toNat % 2 ^ 32
    let d := h % 8
    let x := s.dir d
    let part := s.partOf sl.task.launch
    if x.lease.any (fun l => l.part == part) && h == x.handle d then
      (s.leaseResult (some (s.sched.cur, o.d.toNat)) 0x0B 32 d).endLease d 2
    else s.leaseResult (some (s.sched.cur, o.d.toNat)) 0x0A x.count d)

/-- LEASEQ (R408): the SLDIR image, or a lane's state. -/
def execLeaseq (o : OpsDA) (s : State) : Res :=
  unitForm s [] (daDemand o) noChecks o.d.toNat (fun s v _ =>
    let d := bits v.a.toNat 2 0
    s.unitResult s.sched.cur o.d.toNat
      (if bit v.a.toNat 63 then laneImage s d (bits v.a.toNat 13 8) else sldirImage s d))

/-! ## Control messages (R41, R42) -/

/-- The direction on which a message arrived: its sender names its own (R26, R40). -/
def arrivedOn (m : SluiceMsg) : Nat := opposite m.dir.toNat

/-- The event of a control message (R41). -/
def sluiceEv (type : Nat) (m : SluiceMsg) : Ev :=
  if type = lgreqType then .lgreq m else if type = lgackType then .lgack m else if type = lgnakType then .lgnak m
  else if type = lshrinkType then .lshrink m else if type = lrecallType then .lrecall m
  else if type = llitType then .llit m else if type = laliveType then .lalive m else .sluiceBadType m

/-- The four words of a control message arrive on the service lane of a direction (R40): the two messages of an LSWAP
count as one (R41). -/
def execSluiceIn (d : Nat) (w0 w1 w2 w3 : Word) (s : State) : Res :=
  let (type, m) := unpackSluice w0 w1 w2 w3
  let m := { m with dir := BitVec.ofNat 3 (opposite d) }
  let x := s.dir d
  if type != lswapType then .next (s.post (sluiceEv type m))
  else match x.swap with
    | none => .next (s.setDir d { x with swap := some m })
    | some first => .next ((s.setDir d { x with swap := none }).post (.lswap first m))

/-- The receive lanes of a direction above the default; while lanes of it are recalled it gives no more. -/
def rxExcess (s : State) (e : Nat) : Nat := if (s.dir e).recalled != 0 then 0 else staying (s.dir e).rx - 32

/-- Asks incoming neighbours for lanes with LRECALL (R36, R37). -/
def State.recallLanes (s : State) (d : Nat) : Nat → Nat → State
  | 0, _ => s
  | fuel + 1, short =>
    if short = 0 then s
    else match richest d (rxExcess s) with
      | none => s
      | some e =>
        let n := min short (rxExcess s e)
        let s := s.setDir e { s.dir e with recalled := n }
        (s.sluiceSend e lrecallType (sluiceMsg s e n 0 3)).recallLanes d fuel (short - n)

/-- Receive lanes above the default of the other directions. -/
def spareRx (s : State) (d : Nat) : Nat :=
  ((List.range 8).map (fun e => if e = d then 0 else rxExcess s e)).foldl (· + ·) 0

/-- Receive slots promised to LGREQs that wait (R36, R37, R42). -/
def rxAsked (s : State) : Nat := (s.fabric.grantq.map (fun g => g.msg.count)).foldl (· + ·) 0

/-- Receive slots that will free: those that drain, and those recalled. -/
def rxFreeing (s : State) : Nat :=
  (s.fabric.dirs.map (fun x => counted x.2.rx - staying x.2.rx + x.2.recalled)).foldl (· + ·) 0

/-- Gives the receive lanes of a request: LGACK, and they become GRANTED (R43). -/
def State.grantRx (s : State) (g : RxGrant) : State :=
  let x := s.dir g.dir
  let ls := maskLanes g.msg.mask
  let s := s.setDir g.dir { x with rx := setLanes x.rx ls 1, rxSeq := some g.msg.seq }
  let s := s.sluiceReply g.dir lgackType (sluiceMsg s g.dir g.msg.count g.msg.mask (if g.starve then 3 else g.msg.reason)) g.msg.seq
  ls.foldl (fun s l => s.post (.rxTune g.dir l)) s

/-- Serves the LGREQs that wait, in the order of their arrival (R42): the first when the budget covers it and its lanes are
DARK; what it lacks is recalled (R36, R37). -/
def State.serveGrants (s : State) : Nat → State
  | 0 => s
  | n + 1 =>
    match s.fabric.grantq with
    | [] => s
    | g :: rest =>
      if g.msg.count + rxUsed s ≤ 256 && (maskLanes g.msg.mask).all (fun l => lane (s.dir g.dir).rx l == 0) then
        ((s.setFabric { s.fabric with grantq := rest }).grantRx g).serveGrants n
      else s.recallLanes g.dir 8 (g.msg.count + rxUsed s - 256 - rxFreeing s)

/-- The LGREQs that wait are served as far as they can be. -/
def State.serveRx (s : State) : State := s.serveGrants s.fabric.grantq.length

/-- LGREQ at a receiving sluice (R35 to R37, R42). Lanes whose receive slot is FAILED are not given: a request that names
one is refused, a reversion is granted without it (notes/assumptions/16). -/
def execLgreq (m : SluiceMsg) (s : State) : Res :=
  let d := arrivedOn m
  let x := s.dir d
  let revert := m.reason = 1 || m.reason = 2
  let good := (maskLanes m.mask).filter (fun l => lane x.rx l != 5)
  let g : RxGrant := ⟨d, if revert then { m with mask := maskOf good, count := good.length } else m, m.reason == 3⟩
  let free := 256 - (rxUsed s + rxAsked s)
  let wait (g : RxGrant) : State := (s.setFabric { s.fabric with grantq := s.fabric.grantq ++ [g] }).serveRx
  let nak : State := s.sluiceReply d lgnakType (sluiceMsg s d free 0 0) m.seq
  if revert && x.rxSeq == some m.seq then
    .next (s.sluiceReply d lgackType (sluiceMsg s d g.msg.count g.msg.mask m.reason) m.seq)
  else if revert && s.fabric.grantq.any (fun y => y.dir == d && y.msg.seq == m.seq) then .next s
  else if revert then .next (wait g)
  else if good.length < (maskLanes m.mask).length then .next nak
  else if m.count ≤ free then .next (wait { g with starve := false })
  else if m.reason == 3 && s.fabric.starve && m.count + rxUsed s + rxAsked s - 256 - rxFreeing s ≤ spareRx s d then
    .next (wait g)
  else .next nak

/-- The receiver begins to lock onto a lane (R43): it locks within 2 µs, or never (notes/assumptions/16). -/
def execRxTune (d lane_ : Nat) (s : State) : Res :=
  let x := s.dir d
  if lane x.rx lane_ != 1 then .next s
  else
    let s := s.setDir d { x with rx := setLane x.rx lane_ 2 }
    .next (if s.choice Config.useLock then s.after (s.pick Config.useLock % 3400) (.rxLock d lane_) else s)

/-- The receiver has locked onto a lane: LLIT (R41, R43). -/
def execRxLock (d lane_ : Nat) (s : State) : Res :=
  let x := s.dir d
  if lane x.rx lane_ != 2 then .next s
  else .next ((s.setDir d { x with rx := setLane x.rx lane_ 3 }).sluiceSend d llitType (sluiceMsg s d 1 (maskOf [lane_]) 0))

/-- Lanes of a direction begin tuning: RETUNING, with the limit of 2 µs (R43, R44). -/
def State.tune (s : State) (d : Nat) (ls : List Nat) : State :=
  let x := s.dir d
  let s := s.setDir d { x with tx := setLanes x.tx ls 2 }
  ls.foldl (fun s l => (s.untimer (.retuneTimeout d l)).after 3400 (.retuneTimeout d l)) s

/-- A GRANTED lane begins tuning (R43). -/
def execTuneBegin (d lane_ : Nat) (s : State) : Res :=
  .next (if lane (s.dir d).tx lane_ = 1 then s.tune d [lane_] else s)

/-- An LGACK whose request is no longer there is answered with LSHRINK for its lanes that are dark here (R42); one that
answers a reversion sent twice names none. -/
def State.lateGrant (s : State) (d : Nat) (m : SluiceMsg) : State :=
  let ls := (maskLanes m.mask).filter (fun l => lane (s.dir d).tx l == 0)
  if ls.isEmpty then s else s.sluiceReply d lshrinkType (sluiceMsg s d ls.length (maskOf ls) 0) m.seq

/-- LGACK (R43): the lanes become GRANTED and begin tuning, and the lease is decided; a late one is answered with
LSHRINK (R42). A lane that has failed meanwhile is given back. -/
def execLgack (m : SluiceMsg) (s : State) : Res :=
  let d := arrivedOn m
  let x := s.dir d
  match x.pend with
  | none => .next (s.lateGrant d m)
  | some p =>
    if !p.sent || p.msg.seq != m.seq then .next (s.lateGrant d m)
    else
      let ls := (maskLanes m.mask).filter (fun l => lane x.tx l == 0)
      let bad := (maskLanes m.mask).filter (fun l => lane x.tx l == 5)
      let s := s.setDir d { x with pend := none, tx := setLanes x.tx ls 1 }
      let s := ls.foldl (fun s l => s.post (.tuneBegin d l)) s
      let s := if bad.isEmpty then s else s.sluiceSend d lshrinkType (sluiceMsg s d bad.length (maskOf bad) 4)
      let s := if p.asker.isSome then
          (s.grantLease d p.part p.job p.term).leaseResult p.asker (if p.starve || m.reason = 3 then 8 else 0)
            (s.dir d).count d
        else if m.count = p.msg.count then s.revertOn d else s.settleDir d
      .next (s.nextLease d)

/-- LGNAK (R35, R37): NORX, or NOSPARE where the starvation rule applied. -/
def execLgnak (m : SluiceMsg) (s : State) : Res :=
  let d := arrivedOn m
  let x := s.dir d
  match x.pend with
  | none => .next s
  | some p =>
    if !p.sent || p.msg.seq != m.seq || p.asker.isNone then .next s
    else
      let none9 := p.msg.reason == 3
      let s := s.setDir d { x with pend := none, refuse := if none9 then x.refuse else min 4 (x.refuse + 1) }
      .next ((((s.leaseResult p.asker (if none9 then 9 else 2) x.count d).sendPends).revertOn d).nextLease d)

/-- LSHRINK (R41): the lanes' receive budget is released once they are dark; those that were not yet lit are dark at once
(R43). One that tells of a failure makes them FAILED; one that answers LRECALL ends it (notes/assumptions/16). -/
def execLshrink (m : SluiceMsg) (s : State) : Res :=
  let d := arrivedOn m
  let x := s.dir d
  let named := maskLanes m.mask
  let lit := named.filter (fun l => lane x.rx l == 3)
  let unlit := named.filter (fun l => lane x.rx l == 1 || lane x.rx l == 2)
  let rx := if m.reason = 4 then setLanes x.rx named 5 else setLanes (setLanes x.rx unlit 0) lit 4
  let s := s.setDir d { x with rx := rx, owed := x.owed.filter (fun l => !named.contains l),
                               recalled := if m.reason = 3 then 0 else x.recalled }
  .next ((if m.reason = 4 then s else lit.foldl (fun s l => s.send (2 ^ 23 + 8 + d) l (.drainDone d (64 + l))) s).serveRx)

/-- LRECALL (R37): the transmit lanes toward the sender shrink, the lease is revoked, LSHRINK answers. -/
def execLrecall (m : SluiceMsg) (s : State) : Res :=
  let d := arrivedOn m
  let x := s.dir d
  .next ((s.releaseLanes d (x.shrinkSet (min m.count (staying x.tx - 4))) 3 (some m.seq)).revoke d)

/-- LSWAP (R47): a failed receive lane is replaced; no budget changes. A FAILED lane does not lock. -/
def execLswap (m : SluiceMsg) (next : SluiceMsg) (s : State) : Res :=
  let d := arrivedOn m
  let x := s.dir d
  let gone := maskLanes m.mask
  let new := (maskLanes next.mask).filter (fun l => lane x.rx l == 0)
  let s := s.setDir d { x with rx := setLanes (setLanes x.rx gone 5) new 1, owed := x.owed.filter (fun l => !gone.contains l) }
  .next (new.foldl (fun s l => s.post (.rxTune d l)) s)

/-- LLIT (R43): the lanes are LIT. What waits for a lane goes on (R40, R46). -/
def execLlit (m : SluiceMsg) (s : State) : Res :=
  let d := arrivedOn m
  let x := s.dir d
  let ls := (maskLanes m.mask).filter (fun l => lane x.tx l == 2)
  if ls.isEmpty then .next s
  else
    let s := s.setDir d { x with tx := setLanes x.tx ls 3, dark := 0, ctl := [],
                                 litAt := ls.foldl (fun t l => mput t l s.now) x.litAt }
    .next ((x.ctl.foldl (fun s c => s.sluiceOut d c.type c.msg) s).relink d)

/-- LALIVE (R31): the direction goes down when none comes for 10 µs. -/
def execLalive (m : SluiceMsg) (s : State) : Res :=
  let d := arrivedOn m
  .next ((s.setDir d { s.dir d with lastAlive := s.now }).after 17000 (.directionDown d))

/-- Every 4 µs: a keepalive on every present direction (R31). -/
def execLaliveSend (s : State) : Res :=
  let ds := (List.range 8).filter (fun d => (s.dir d).present)
  let s := ds.foldl (fun s d => s.sluiceSend d laliveType (sluiceMsg s d 0 0 0)) s
  .next (if ds.isEmpty then s else s.after 6800 .laliveSend)

/-- A message of unknown type is dropped and counted (R41). -/
def execSluiceBadType (_ : SluiceMsg) (s : State) : Res := .next (s.countErr errSluice)

/-- 20 µs without an answer: TIMEOUT, the reservation is released (R42); with nothing asked the next LEASE is decided. -/
def execLgreqTimeout (d : Nat) (s : State) : Res :=
  let x := s.dir d
  match x.pend with
  | none => .next (s.nextLease d)
  | some p =>
    if !p.sent || p.asker.isNone || s.now - p.at_ < 34000 then .next s
    else .next (((((s.setDir d { x with pend := none }).leaseResult p.asker 7 x.count d).sendPends).revertOn d).nextLease d)

/-- An unanswered reversion LGREQ is sent again (R36). -/
def execReversionResend (d : Nat) (s : State) : Res :=
  let x := s.dir d
  match x.pend with
  | none => .next s
  | some p =>
    if !p.sent || p.asker.isSome || !x.present || s.now - p.at_ < 34000 then .next s
    else .next (((s.setDir d { x with pend := some { p with at_ := s.now } }).sluiceOut d lgreqType p.msg).after 34000
      (.reversionResend d))

/-- A lease's term ends (R36). -/
def execLeaseExpiry (d : Nat) (s : State) : Res :=
  match (s.dir d).lease with
  | some l => if l.expiry ≤ s.now then .next (s.endLease d 1) else .next s
  | none => .next s

/-! ## Lane events (R43 to R47) -/

/-- A lane becomes FAILED; its budget is used again at once on the lowest-numbered dark lane, named with LSWAP. With no
such lane the count falls, and LSHRINK tells the receiver (R46, R47, notes/assumptions/16). -/
def State.failLane (s : State) (d l : Nat) (replace : Bool) : State :=
  let x := s.dir d
  let s := s.setDir d { x with tx := setLane x.tx l 5 }
  let s := match (if replace then x.spare else none) with
    | some n =>
      let s := s.sluiceSend d lswapType (sluiceMsg s d 1 (maskOf [l]) 4)
      let s := s.sluiceSend d lswapType (sluiceMsg s d 1 (maskOf [n]) 4)
      s.tune d [n]
    | none => (s.sluiceSend d lshrinkType (sluiceMsg s d 1 (maskOf [l]) 4)).sendPends
  (s.relink d).noteDark d

/-- 2 µs of retuning without LLIT (R43). -/
def execRetuneTimeout (d lane_ : Nat) (s : State) : Res :=
  if lane (s.dir d).tx lane_ = 2 then .next (s.failLane d lane_ true) else .next s

/-- A draining lane's last flit is acknowledged: DARK, and the budget is free. Lane numbers from 64 on are receive lanes
(R43). -/
def execDrainDone (d lane_ : Nat) (s : State) : Res :=
  let x := s.dir d
  if lane_ < 64 then
    if lane x.tx lane_ = 4 && !x.link.any (fun k => k.lane == lane_) then
      let s := (s.setDir d { x with tx := setLane x.tx lane_ 0 }).sendPends
      .next (if (s.dir d).count = staying (s.dir d).tx then s.revertOn d else s)
    else .next s
  else if lane x.rx (lane_ - 64) = 4 then
    .next ((s.setDir d { x with rx := setLane x.rx (lane_ - 64) 0 }).serveRx)
  else .next s

/-- A lane not drained within 1 µs is FAILED (R44). -/
def execDrainTimeout (d lane_ : Nat) (s : State) : Res :=
  if lane (s.dir d).tx lane_ = 4 then .next (s.failLane d lane_ false) else .next s

/-- A lane fails (R46). Lane numbers from 64 on are receive lanes: the budget of one stays kept until the transmitter names
its replacement (R47). -/
def execLaneFailure (d lane_ : Nat) (s : State) : Res :=
  let x := s.dir d
  if 64 ≤ lane_ then
    let l := lane_ - 64
    let use := 1 ≤ lane x.rx l && lane x.rx l ≤ 3
    .next (s.setDir d { x with rx := setLane x.rx l 5, owed := if use then x.owed ++ [l] else x.owed })
  else if lane x.tx lane_ = 3 || lane x.tx lane_ = 2 then .next (s.failLane d lane_ true)
  else if lane x.tx lane_ = 4 then .next (s.failLane d lane_ false)
  else .next s

/-- The exponent of the failure threshold: values outside 8 to 12 act as 9 (R48). -/
def berxOf (s : State) : Nat := if s.fabric.berx < 8 || 12 < s.fabric.berx then 9 else s.fabric.berx

/-- A lane has been measured over 10 ms: it fails when its error rate exceeds 10^-BERX (R46, R48). -/
def execLaneWindow (d lane_ errs bits : Nat) (s : State) : Res :=
  .next (if bits < errs * 10 ^ berxOf s then s.post (.laneFailure d lane_) else s)

/-- A flit that failed its CRC has been sent again on a lane: with the eighth failure in a row the lane fails (R46). -/
def execFlitCheck (d lane_ : Nat) (ok : Bool) (s : State) : Res :=
  let x := s.dir d
  let n := mget x.retries lane_ 0 + 1
  if ok then .next (s.setDir d { x with retries := mdel x.retries lane_ })
  else if n < 8 then .next (s.setDir d { x with retries := mput x.retries lane_ n })
  else .next ((s.setDir d { x with retries := mdel x.retries lane_ }).post (.laneFailure d lane_))

/-- The receiver has acknowledged the last flit of a packet (R43, R45). -/
def execLinkAck (d num : Nat) (s : State) : Res :=
  let x := s.dir d
  match x.link.find? (fun k => k.num == num) with
  | none => .next s
  | some k => .next ((s.setDir d { x with link := x.link.erase k }).drained d k.lane)

/-- Management clears a FAILED slot (R43): the retune count rises (R24). -/
def execSlotClear (d lane_ : Nat) (s : State) : Res :=
  let x := s.dir d
  if lane_ < 64 && lane x.tx lane_ = 5 then
    .next ((s.setDir d { x with tx := setLane x.tx lane_ 0 }).countLife (lifeOptical + laneSlot d lane_ * 16 + 15) 40 1)
  else if 64 ≤ lane_ && lane x.rx (lane_ - 64) = 5 then
    .next (s.setDir d { x with rx := setLane x.rx (lane_ - 64) 0, owed := x.owed.filter (· != lane_ - 64) })
  else .next s

/-! ## Directions (R31) -/

/-- Lights n lanes of a map that are not FAILED. -/
def lightLanes (m : Map Nat) (n : Nat) : Map Nat :=
  setLanes m ((((List.range 64).filter (fun l => lane m l != 5)).take n)) 3

/-- A direction trains: it starts at the default count, or at the greatest count that both budgets allow and no lower
than the floor (R31). While a budget has no four slots free, the direction waits and trains later (R29,
notes/assumptions/16). The electrical fabric has two directions and no lanes to light (R53). -/
def execDirectionTrained (d modid : Nat) (s : State) : Res :=
  let x := s.dir d
  let n := min 32 (min (256 - txUsed s) (256 - rxUsed s))
  let chain (s : State) : State :=
    if s.sched.timers.any (fun t => t.ev == .laliveSend) then s else s.after 6800 .laliveSend
  if 7 < d || x.present then .next s
  else if electrical s.part then .next (if d ≤ 1 then s.setDir d { x with present := true, modid := modid, linkSeq := 0, linkNext := 0 }
    else s)
  else if n < 4 then .next ((s.untimer (.directionTrained d modid)).after 1700 (.directionTrained d modid))
  else
    let x := { x with present := true, modid := modid, tx := lightLanes x.tx n, rx := lightLanes x.rx n, lastAlive := s.now,
                      dark := 0, litAt := [], retries := [], swap := none, rxSeq := none, recalled := 0,
                      linkSeq := 0, linkNext := 0 }
    .next ((((chain (s.setDir d x)).noteDark d).after 17000 (.directionDown d)).settleDir d)

/-- Whether a direction goes down: no LIT lane, or no keepalive, for 10 µs (R31); on the electrical fabric when the link
is lost. -/
def goesDown (s : State) (d : Nat) : Bool :=
  let x := s.dir d
  x.present && (electrical s.part || (x.dark != 0 && 17000 ≤ s.now + 1 - x.dark) || 17000 ≤ s.now - x.lastAlive)

/-- What a direction that is down keeps: its FAILED slots, its lease until the term ends, and a LEASE whose LGREQ is out
(R31, R42, notes/assumptions/16). -/
def Dir.downed (x : Dir) : Dir :=
  let keep (m : Map Nat) : Map Nat := m.filter (fun y => y.2 == 5)
  { x with present := false, tx := keep x.tx, rx := keep x.rx, pend := x.pend.filter (fun p => p.sent && p.asker.isSome),
           recalled := 0, dark := 0, owed := [], ctl := [], link := [], linkBuf := [], swap := none, rxSeq := none }

/-- The packets that wait to leave on a direction, and those it has not acknowledged, go back to the router, which takes
them another way (R31, R56). -/
def State.reroute (s : State) (d : Nat) : State :=
  let mine (q : Nat × List FabPkt) : Bool := q.1 / 64 == d
  s.setFabric { s.fabric with
    inq := s.fabric.inq ++ (s.dir d).link.map LinkPkt.pkt ++ (s.fabric.outq.filter mine).flatMap (·.2),
    outq := s.fabric.outq.filter (fun q => !mine q),
    grantq := s.fabric.grantq.filter (fun g => g.dir != d) }

/-- A direction goes down (R31): its lanes are dark at once and their budget is free, its traffic takes detours, the host is
told; a LEASE that was not yet sent finds no peer. -/
def execDirectionDown (d : Nat) (s : State) : Res :=
  let x := s.dir d
  if !goesDown s d then .next s
  else
    let s := s.reroute d
    let s := s.setDir d x.downed
    let s := s.leaseResult ((x.pend.filter (fun p => !p.sent)).bind (fun p => p.asker)) 4 0 d
    let s := s.event 5 0 (w64 d) (w64 x.modid) 0 0
    .next ((((s.sendPends).serveRx).settleDir d).nextLease d)

end Sys2Proof.Machine
end

