-- ==== Sys2Proof/Machine/System.lean ====
section
/-! DEFINITION. System and privileged instructions, system registers, TLBI, keys, gang stops, illegal instructions:
majors 0x01 and 0x38 (spec 16 R409 to R422, 05 R110, R125 to R127, 06 R157 to R160, 12 R303). -/

namespace Sys2Proof.Machine

open Sys2Proof

/-! ## Registers (R222, R238, R253, R410 to R413) -/

/-- WSCAL on a cycle (R253). -/
def wscalImage (now : Nat) : Word :=
  let t := now % 870400
  let g := t / 54400
  let busy := decide (t % 54400 < 13600)
  w64 (870400 * 2 ^ 44 + 54400 * 2 ^ 28 + 13600 * 2 ^ 12 + b2n busy * 16 + (if busy then g else (g + 1) % 16))

/-- A write to MXMODE (R238): ignored, with ERR set, while a stream of either core runs or waits. -/
def writeMxmode (s : State) (k : Nat) (v : Word) : State :=
  let p := s.arrayAt k
  let a := clusterCore (clusterOf k) (coreNum k / 2 * 2)
  let b := clusterCore (clusterOf k) (coreNum k / 2 * 2 + 1)
  if !(s.coreAt a).mx.isEmpty || !(s.coreAt b).mx.isEmpty then s.setArray k { p with err := true }
  else s.setArray k { p with w := v.extractLsb' 0 2, mode := v.extractLsb' 2 2, err := p.err && !v.getLsbD 4 }

/-- A write to CORECFG (R222). -/
def writeCorecfg (s : State) (k : Nat) (v : Word) : State :=
  let c := s.coreAt k
  s.setCore k { c with guests := v.toNat % 16 }

/-- The partition in which a core of this module lies (R135). -/
def partOfCore (s : State) (k : Nat) : Option Nat :=
  if !isTile s.part k then none
  else (s.work.partcfg.find? (fun x => let w := x.2.toNat
    bit w 0 && bits w 31 22 ≤ clusterOf k && clusterOf k < bits w 31 22 + bits w 21 11)).map (fun x => bits x.2.toNat 63 48)

/-- VTSTAT (R189). -/
def vtstatImage (s : State) (k : Nat) : Word :=
  match (partOfCore s k).bind s.orderedOf with
  | none => 0
  | some _ =>
    let c := s.coreAt k
    let held := (c.spec.filter (fun e => e.2.st != .running)).length
    let safe := c.spec.any (fun e => c.levee == some e.2.key)
    w64 (c.rolls % 2 ^ 32 * 2 ^ 32 + c.log.length * 2 ^ 22 + c.spec.length * 2 ^ 16 + held * 2 ^ 10 + b2n safe)

/-- TSTAT (R413). -/
def tstatImage (sl : Slot) : Word := w64 (b2n sl.intrap * 4 + b2n sl.psup * 2 + b2n sl.sup)

/-- TVEC as written (R413): SX copies bit 53, [1:0] are zero. -/
def tvecOf (v : Word) : Word := (v.extractLsb' 2 52 ++ (0 : BitVec 2)).signExtend 64

/-- System register numbers (R412). -/
def sysKnown (n : Nat) : Bool :=
  n ≤ 7 || (0x10 ≤ n && n ≤ 0x14) || (0x18 ≤ n && n ≤ 0x1A) || (0x20 ≤ n && n ≤ 0x24) || (0x28 ≤ n && n ≤ 0x2F) ||
  n == 0x30 || n == 0x31

/-- Whether SRR of the register is for supervisors (R412). -/
def sysSuper (n : Nat) : Bool := 0x18 ≤ n

/-- The value of a system register at a slot (R412). Registers of a tile core read on a dock core have no stated value
(notes/assumptions/17). -/
def sysValue (s : State) (sl : Slot) (n : Nat) : Word :=
  let k := s.here
  let c := s.coreAt k
  let tileOnly (v : Word) : Word := if isTile s.part k then v else Config.freeWord Config.useAbsent s.sched.free
  if n ≤ 7 then mget c.c n 0
  else if n = 0x10 then featuresImage s
  else if n = 0x11 then wscalImage s.now
  else if n = 0x12 then tileOnly (mxmodeImage (s.arrayAt k))
  else if n = 0x13 then sl.task.tfmt
  else if n = 0x14 then sl.task.tscl.zeroExtend 64
  else if n = 0x18 then tileOnly (w64 c.guests)
  else if n = 0x19 then tileOnly (vtstatImage s k)
  else if n = 0x20 then c.tvec
  else if n = 0x21 then sl.tepc
  else if n = 0x22 then sl.tcause
  else if n = 0x23 then sl.tval
  else if n = 0x24 then tstatImage sl
  else if 0x28 ≤ n && n ≤ 0x2F then sldirImage s (n - 0x28)
  else if n = 0x30 then c.gsStamp
  else if n = 0x31 then w64 (c.gsSent % 2 ^ 32 * 2 ^ 32 + c.gsRecv % 2 ^ 32)
  else 0

/-! ## System instructions (R409) -/

/-- NOP (R409). -/
def execNop (s : State) : Res := .next (s.retire s.me)

/-- TRAP: the software trap, TEPC at the next instruction (R409, R415). -/
def execTrap (n : BitVec 4) (a : Reg) (s : State) : Res :=
  issue s ⟨some (a.toNat, false), none, none, [], []⟩ noChecks (fun v _ =>
    .next (s.raise s.sched.cur ⟨trapSoftware, n.toNat, v.a, s.sched.ir.npc⟩))

/-- BKPT (R409, R415). -/
def execBkpt (s : State) : Res := .next (s.raise s.sched.cur ⟨trapBreak, 0, 0, s.sched.ir.npc⟩)

/-- An instruction of major 0x01 or 0x38 that writes a value it computes. -/
def valueInto (s : State) (pre : List (Option Trap)) (d : Reg) (f : Slot → Word) : Res :=
  issueAfter s pre { noDemand with dests := [d.toNat] } noChecks (fun _ sl => .next (s.retire (s.writeG sl d.toNat (f sl))))

/-- STAMP: the STAMP of the issue cycle (R409, R16). -/
def execStamp (d : Reg) (s : State) : Res := valueInto s [] d (fun _ => w64 s.now)

/-- FEAT's values (R410). -/
def featValue (s : State) (sl : Slot) (sel : Nat) : Word :=
  let t := sl.task
  match sel with
  | 0 => featuresImage s
  | 1 => w64 (gcid s s.here + s.sched.cur.slot % 16 * 2 ^ 30 + b2n sl.guest * 2 ^ 34 + b2n sl.sup * 2 ^ 35)
  | 2 => w64 (t.dcore % 2 ^ 30 + t.job % 65536 * 2 ^ 30 + t.launch % 65536 * 2 ^ 46)
  | 3 =>
    let part := s.partOfTask t
    let e := (s.work.partcfg.find? (fun x => bit x.2.toNat 0 && bits x.2.toNat 63 48 == part)).elim 0 (fun x => x.2.toNat)
    w64 (part % 65536 + bits e 31 22 * 2 ^ 16 + bits e 21 11 * 2 ^ 26 + s.fabric.self % 16384 * 2 ^ 37)
  | 4 => w64 (t.regs.toNat + t.prio.toNat * 4 + b2n t.ord * 16)
  | _ => 0

/-- FEAT (R410). -/
def execFeat (d : Reg) (sel : BitVec 5) (s : State) : Res := valueInto s [] d (fun sl => featValue s sl sel.toNat)

/-- IMPL's values (R411). -/
def implValue (s : State) (sel : Nat) : Word :=
  let code := match s.part with
    | .ny7740 => 0x7740
    | .ny7720 => 0x7720
    | .ny7710 => 0x7710
  match sel with
  | 0 => w64 (0x4E59 + code * 2 ^ 16 + s.mgmt.step % 256 * 2 ^ 32)
  | 1 => s.mgmt.fwVersion &&& 0xFFFFFFFF
  | 2 => s.mgmt.serial
  | _ => 0

/-- IMPL (R411). -/
def execImpl (d : Reg) (sel : BitVec 5) (s : State) : Res := valueInto s [] d (fun _ => implValue s sel.toNat)

/-- SRR (R412): TFMT and TSCL are read on the dispatching core (R228). -/
def execSrr (d : Reg) (n : BitVec 10) (s : State) : Res :=
  let r := valueInto s [s.funcTrap (!sysKnown n.toNat), if sysSuper n.toNat then s.privTrap else none] d
    (fun sl => sysValue s sl n.toNat)
  if n.toNat = 0x13 || n.toNat = 0x14 then onHome s r else r

/-- A word that names no instruction takes the zero-word or the illegal-instruction trap (R303). -/
def execIllegalInstruction (w : BitVec 32) (s : State) : Res :=
  .next (s.raise s.sched.cur
    (if w = 0 then ⟨trapZero, 0, 0, s.sched.ir.pc⟩ else ⟨trapIllegal, 0, w.zeroExtend 64, s.sched.ir.pc⟩))

/-! ## ERET and SRW (R412, R416) -/

/-- ERET (R416): allowed only in a trap. -/
def execEret (s : State) : Res :=
  issueAfter s [s.privTrap] noDemand (fun _ => if s.me.intrap then none else some s.badOperand)
    (fun _ sl => .next (s.setMe (sl.leaveTrap s.sched.ir)))

/-- What a write to a system register does to the machine; registers of the slot are in `sysWriteSlot` (R412). -/
def sysWrite (s : State) (n : Nat) (v : Word) : State :=
  let k := s.here
  let c := s.coreAt k
  if n ≤ 7 then s.setCore k { c with cWrites := c.cWrites ++ [⟨s.now + 4, n, v⟩] }
  else if n = 0x12 && isTile s.part k then writeMxmode s k v
  else if n = 0x18 && isTile s.part k then writeCorecfg s k v
  else if n = 0x1A then
    s.post (if bit v.toNat 63 then .freplayAbort (v.toNat % 2 ^ 63) else .freplayReplay (v.toNat % 2 ^ 63))
  else if n = 0x20 then s.setCore k { c with tvec := tvecOf v }
  else s

/-- What a write to a system register does to the slot: TEPC and TSTAT.PSUP. -/
def sysWriteSlot (sl : Slot) (n : Nat) (v : Word) : Slot :=
  if n = 0x21 then { sl with tepc := v } else if n = 0x24 then { sl with psup := v.getLsbD 1 } else sl

/-- SRW (R412): g[d] is read plainly; a write to a read-only register is ignored. -/
def execSrw (d : Reg) (n : BitVec 10) (s : State) : Res :=
  issueAfter s [s.funcTrap (!sysKnown n.toNat), s.privTrap] ⟨none, none, some d.toNat, [], []⟩ noChecks (fun v sl =>
    .next ((sysWrite s n.toNat v.d).retire (sysWriteSlot sl n.toNat v.d)))

/-! ## TLBI (R110, R419) -/

/-- What a TLBI selects: all entries, or a job's, or one page of a job. -/
inductive TlbSel
  | all
  | job (j : Nat)
  | page (j : Nat) (va : Nat)
  deriving DecidableEq, Repr

/-- Whether a cached entry is selected; entries of a partition go with ALL only (R110). -/
def TlbSel.hits (x : TlbSel) (e : TcEnt) : Bool :=
  match x with
  | .all => true
  | .job j => e.tag == j
  | .page j va => e.tag == j && e.vpn == vpnAt va e.level

/-- Whether a cache lies in the scope instance of a core (R419): 1 core, 2 cluster, 3 die, 4 and 5 everywhere. -/
def locInScope (k scope loc : Nat) : Bool :=
  if 4 ≤ scope then true
  else if scope = 1 then loc == k
  else if scope = 2 then (loc < 65536 && loc / 16 == k / 16) || loc == sharedLoc k
  else if loc < 65536 then coreDie loc == coreDie k
  else if loc = 79999 then coreDie k == 8
  else if loc < 72000 then (loc - 70000) / 128 == coreDie k
  else (loc - 72000) / 32 == coreDie k

/-- Whether a code cache lies in the scope instance of a core. -/
def codeInScope (k scope loc : Nat) : Bool :=
  if 4 ≤ scope then true
  else if scope ≤ 2 then loc == codeLoc k
  else if loc = 4999 then coreDie k == 8
  else if loc < 4100 then (loc - 3000) / 128 == coreDie k
  else (loc - 4100) / 32 == coreDie k

/-- Drops the selected entries and the code lines of the pages they cover (R110, R290). -/
def tlbiDrop (m : Mem) (k scope : Nat) (x : TlbSel) : Mem :=
  let hit := m.tcache.filter (fun e => locInScope k scope e.loc && x.hits e)
  let lv := (hit.filter (fun e => e.pte.toNat % 8 != 0)).foldl (fun n e => max n e.level) 0
  let codeHit (c : CodeLine) : Bool := codeInScope k scope c.loc && (match x with
    | .all => true
    | .job j => c.job == j
    | .page j va => c.job == j && c.vpage / 512 ^ lv == vpnAt va 0 / 512 ^ lv)
  { m with tcache := m.tcache.filter (fun e => !(locInScope k scope e.loc && x.hits e)),
           code := m.code.filter (fun c => !codeHit c) }

/-- The job that a selection names, and the page. -/
def TlbSel.job? (x : TlbSel) : Option Nat :=
  match x with
  | .all => none
  | .job j => some j
  | .page j _ => some j

def TlbSel.vpage? (x : TlbSel) : Option Nat :=
  match x with
  | .page _ va => some (vpnAt va 0)
  | _ => none

/-- Whether something of a job at an address used a translation that a TLBI dropped. -/
def tlbUses (job vpage : Option Nat) (j : Nat) (va : Word) : Bool :=
  job.all (fun x => x == j) && vpage.all (fun x => x == vpnAt va.toNat 0)

/-- An event that carries an access to its home. -/
def evAccess (e : Ev) : Option Access :=
  match e with
  | .homeAccess a => some a
  | _ => none

/-- The accesses on their way to a home of this module or being served there: those in packets and retries, those that wait
for a page that moves or for the host, and those that the host or the pool memory has not answered. -/
def openAccesses (s : State) : List Access :=
  s.sched.net.filterMap (fun f => evAccess f.ev) ++ s.sched.inbox.filterMap evAccess ++
  s.sched.timers.filterMap (fun t => evAccess t.ev) ++ s.mem.moving.flatMap MovingPage.queue ++ s.host.hostWaits.map (·.1) ++
  s.host.pendingReads.filterMap (fun r => match r.2 with
    | .access a => some a
    | .poolWrite a _ _ => some a
    | _ => none)

/-- The lines that copy engines own, with the jobs of their streams. -/
def ownedLines (s : State) (job vpage : Option Nat) : List (Nat × Nat) :=
  s.work.clusters.flatMap (fun c => (c.2.copyLines.filter (fun o =>
    tlbUses job vpage ((mget? c.2.copies o.sid).elim 0 CpStream.job) o.va)).map (fun o => (o.dev, o.line)))

/-- What an access counts for at a slot that awaits its answer. -/
def answersOf (g slot : Nat) (a : Access) : Nat :=
  ((a.srcs.filter (fun x => x.core == g && x.slot == slot)).map (fun x => max 1 x.count)).foldl (· + ·) 0

/-- The accesses of this module that have no answer yet though they are on no way: they wait for a tag, or for a fault. -/
def restingAccesses (s : State) : List Access :=
  let what (r : Replay) : Option Access := match r.what with
    | .access a => some a
    | _ => none
  s.mem.waiters.map Waiter.acc ++ s.mem.replay.filterMap what ++ s.mem.stopped.filterMap what ++
    (s.churn.zwait.map (·.2)).filterMap what

/-- The acknowledgements on their way to a slot inside the module. -/
def acksComing (s : State) (id : SlotId) : Nat :=
  (s.sched.net.map (fun f => f.ev) ++ s.sched.inbox).foldl (fun n e => match e with
    | .pwack i k => if i == id then n + k else n
    | _ => n) 0

/-- The answers that a slot awaits from other modules. -/
def answersFar (s : State) (id : SlotId) (sl : Slot) : Nat :=
  let near := (openAccesses s ++ restingAccesses s).foldl (fun n a => n + answersOf (gcid s id.core) id.slot a) 0
  sl.posted + sl.outst - near - acksComing s id

/-- The slots of a job, but for one, that await answers of other modules, and how many. -/
def waitingSlots (s : State) (id : SlotId) (job : Option Nat) : List (SlotId × Nat) :=
  (s.cores.flatMap (fun c => (c.2.slots.filter (fun x => (⟨c.1, x.1⟩ : SlotId) != id &&
    (x.2.posted != 0 || x.2.outst != 0) && job.all (fun j => j == x.2.task.job))).map (fun x =>
      ((⟨c.1, x.1⟩ : SlotId), answersFar s ⟨c.1, x.1⟩ x.2)))).filter (fun x => x.2 != 0)

/-- Answers of another module have come to a slot: a TLBI that waits for them waits for fewer. -/
def State.farAnswer (s : State) (id : SlotId) (n : Nat) : State :=
  s.setMem { s.mem with tlbis := s.mem.tlbis.map (fun (w : TlbWait) =>
    { w with slots := (w.slots.map (fun x => if x.1 == id then (x.1, x.2 - n) else x)).filter (fun x => x.2 != 0) }) }

/-- Accesses that wait at a home under a selected translation are translated again (R110 step 4). -/
def retranslate (s : State) (p : Access → Bool) : State :=
  (s.mem.waiters.filter (fun w => p w.acc && !opBarrier w.acc.how)).foldl (fun s w =>
    let rest := s.mem.waiters.filter (fun y => y != w)
    match translate s (homeOf w.acc.pa) w.acc.job w.acc.user w.acc.va (opNeed w.acc.how) with
    | (.ok y, s) => if y.pa = w.acc.pa && y.dev = s.fabric.self then s else (s.setMem { s.mem with waiters := rest }).rerun w.acc
    | (_, s) => (s.setMem { s.mem with waiters := rest }).rerun w.acc) s

/-- The caches of a scope drop what a TLBI selects, and wait for the accesses that used it (R110 steps 2 to 4). -/
def State.tlbiStart (s : State) (id : SlotId) (k scope left : Nat) (x : TlbSel) : State :=
  let s := s.setMem (tlbiDrop s.mem k scope x)
  let s := retranslate s (fun a => tlbUses x.job? x.vpage? a.job a.va)
  let w : TlbWait := {
    id := id, job := x.job?, vpage := x.vpage?, left := left,
    accs := (openAccesses s).filter (fun a => tlbUses x.job? x.vpage? a.job a.va),
    owned := ownedLines s x.job? x.vpage?, slots := waitingSlots s id x.job? }
  (s.setMem { s.mem with tlbis := s.mem.tlbis ++ [w] }).post (.tlbiComplete id)

/-- The shared form of TLBI: the slot waits for a posted count of zero, the entries are dropped, and the slot waits
until every cache has reported, those of other modules too at fabric scope (R110, R419). -/
def tlbiForm (s : State) (m : Demand) (scope : BitVec 3) (sel : Vals → TlbSel) : Res :=
  issueAfter s [s.funcTrap (scope == 0), s.privTrap] m noChecks (fun v sl =>
    if sl.posted != 0 || s.acqWait || s.mustWait then .next s
    else
      let wide := decide (5 ≤ scope.toNat) && s.fabric.enable
      let s := (s.setMe (sl.parkFor s.sched.ir 0)).tlbiStart s.sched.cur s.here scope.toNat
        (if wide then s.otherModules.length else 0) (sel v)
      .next (if wide then s.otherModules.foldl (fun s m => s.ask 2 m 0 s.here s.sched.cur.slot (s.partOfTask sl.task) 0
        (.tlbi (sel v).job? (sel v).vpage?)) s else s))

/-- TLBI.PAGE (R419). -/
def execTlbiPage (o : OpsAB) (scope : BitVec 3) (s : State) : Res :=
  tlbiForm s ⟨some (o.a.toNat, o.sa), some (o.b.toNat, o.sb), none, [], []⟩ scope
    (fun v => .page (bits v.b.toNat 15 0) v.a.toNat)

/-- TLBI.JOB (R419). -/
def execTlbiJob (b : Reg) (sb : Bool) (scope : BitVec 3) (s : State) : Res :=
  tlbiForm s ⟨none, some (b.toNat, sb), none, [], []⟩ scope (fun v => .job (bits v.b.toNat 15 0))

/-- TLBI.ALL (R419). -/
def execTlbiAll (scope : BitVec 3) (s : State) : Res := tlbiForm s noDemand scope (fun _ => .all)

/-- What a TLBI still waits for. -/
def TlbWait.rest (w : TlbWait) (s : State) : TlbWait :=
  { w with accs := w.accs.filter (openAccesses s).contains,
           owned := w.owned.filter (fun o => s.work.clusters.any (fun c => c.2.copyLines.any (fun l => l.dev == o.1 && l.line == o.2))) }

/-- Whether it waits for nothing. -/
def TlbWait.over (w : TlbWait) : Bool := w.left == 0 && w.accs.isEmpty && w.owned.isEmpty && w.slots.isEmpty

/-- The identity under which the TLBI of a slot of another module is kept. -/
def tlbiOf (src slot : Nat) : SlotId := ⟨2 ^ 30 + src, slot⟩

/-- Every cache in scope has reported (R110): accesses that used a dropped entry have been performed or translated again,
and the TLBI completes, or this module reports. -/
def execTlbiComplete (id : SlotId) (s : State) : Res :=
  let go (s : State) : State :=
    let sl := s.slotAt id
    if 2 ^ 30 ≤ id.core then s.respond 2 (id.core - 2 ^ 30) id.slot unitRouter (.tlbiDone ⟨coreOf id.core, id.slot⟩)
    else if sl.st == .waiting then s.setSlot id { sl with st := .running, pc := sl.next, fell := sl.nextFell, entry := false }
    else s
  match s.mem.tlbis.find? (fun w => w.id == id) with
  | none => .next (go s)
  | some w =>
    let s := retranslate s w.accs.contains
    let w := w.rest s
    let others := s.mem.tlbis.filter (fun x => x.id != id)
    if w.over then .next (go (s.setMem { s.mem with tlbis := others }))
    else .next ((s.setMem { s.mem with tlbis := others ++ [w] }).after 1 (.tlbiComplete id))

/-- A TLBI of fabric scope of another module arrives (R110, R419). -/
def execTlbiArrival (src slot : Nat) (job vpage : Option Nat) (s : State) : Res :=
  let sel : TlbSel := match job, vpage with
    | some j, some p => .page j (p * 4096)
    | some j, none => .job j
    | none, _ => .all
  .next (s.tlbiStart (tlbiOf src slot) 0 5 0 sel)

/-- Another module has reported (R110 step 4). -/
def execTlbiReply (id : SlotId) (s : State) : Res :=
  .next (s.setMem { s.mem with tlbis := s.mem.tlbis.map (fun (w : TlbWait) =>
    if w.id == id then { w with left := w.left - 1 } else w) })

/-! ## Weight store and keys (R420, R421, R126, R127) -/

/-- The bits of populated dies. -/
def dieMask (p : Part) : BitVec 8 := BitVec.ofNat 8 (2 ^ dies p - 1)

/-- WSOPEN (R420). -/
def execWsopen (o : OpsDA) (s : State) : Res :=
  issueAfter s [s.privTrap] (daDemand o) noChecks (fun v sl =>
    let s := s.setMem { s.mem with wsOpen := s.mem.wsOpen ||| (v.a.extractLsb' 0 8 &&& dieMask s.part) }
    .next (s.retire (s.writeG sl o.d.toNat 0)))

/-- Whether a copy stream of a slot has begun a CPWW and not yet produced its final token (R420). -/
def cpwwOut (s : State) (id : SlotId) : Bool :=
  isTile s.part id.core && (s.cluster (clusterOf id.core)).copies.any (fun x =>
    x.2.core == id.core && x.2.slot == id.slot && x.2.ww && !x.2.stop)

/-- WSCLOSE (R420): first a posted count of zero, and the final tokens of the slot's CPWWs. -/
def execWsclose (o : OpsDA) (s : State) : Res :=
  issueAfter s [s.privTrap] (daDemand o) noChecks (fun v sl =>
    if sl.posted != 0 || cpwwOut s s.sched.cur then .next s
    else
      let s := s.setMem { s.mem with wsOpen := s.mem.wsOpen &&& ~~~(v.a.extractLsb' 0 8) }
      .next (s.retire (s.writeG sl o.d.toNat 0)))

/-- The result word of KEYKILL (R421). -/
def keyResult (status dropped : Nat) : Word := w64 (status * 2 ^ 62 + dropped % 2 ^ 48)

/-- Whether a cached line lies under a key identifier (R125). -/
def underKey (k key : Nat) : Bool := key != noKey && key % 128 == k

/-- The dirty lines under a key in caches and copy engines (R127). -/
def dirtyUnder (s : State) (k : Nat) : Nat :=
  (s.mem.clines.filter (fun l => underKey k l.key && l.dirty != 0)).length +
  (s.work.clusters.map (fun c => (c.2.copyLines.filter (fun l => underKey k l.key && l.data.isSome)).length)).foldl (· + ·) 0

/-- The lines of this module under a key that peers hold. -/
def peersUnder (s : State) (k : Nat) : List Nat :=
  (s.mem.peers.map (·.1)).filter (fun l => underKey k (mget s.mem.keys l 0))

/-- KEYKILL (R421, R127): the key enters SWEEP, its lines are dropped and those at peers recalled. The count is that of the
dirty lines dropped here, and a free value for the home-slice caches, of which it is not stated which lines are dirty
(notes/assumptions/18). -/
def execKeykill (o : OpsDA) (s : State) : Res :=
  unitForm s [s.privTrap] (daDemand o) noChecks o.d.toNat (fun s v _ =>
    let k := bits v.a.toNat 5 0
    if k = 0 then s.unitResult s.sched.cur o.d.toNat (keyResult 2 0)
    else if !s.keyLive k then s.unitResult s.sched.cur o.d.toNat (keyResult 1 0)
    else
      let s := s.setMgmt { s.mgmt with
        keys := mput s.mgmt.keys k .sweep, keyWait := mput s.mgmt.keyWait k (s.sched.cur, o.d.toNat),
        dropped := mput s.mgmt.dropped k (dirtyUnder s k + s.pick Config.useDropped) }
      let s := s.setMem { s.mem with clines := s.mem.clines.filter (fun l => !underKey k l.key) }
      let s := s.setWork { s.work with clusters := s.work.clusters.map (fun (c : Nat × Cluster) =>
        (c.1, { c.2 with copyLines := c.2.copyLines.filter (fun l => !underKey k l.key) })) }
      ((peersUnder s k).foldl State.recallPeers s).post (.keySweepDone k))

/-- The sweep of a key finishes (R126, R127): every line at a peer has come back; DEAD, and EMPTY once every job started with
it has ended. -/
def execKeySweepDone (key : Nat) (s : State) : Res :=
  if mget s.mgmt.keys key .empty != .sweep then .next s
  else if !(peersUnder s key).isEmpty then .next (s.after 16 (.keySweepDone key))
  else
    let used := s.work.jobs.any (fun j => j.2.key == key && j.2.running)
    let n := mget s.mgmt.dropped key 0
    let w := mget? s.mgmt.keyWait key
    let s := s.setMgmt { s.mgmt with
      keys := if used then mput s.mgmt.keys key .dead else mdel s.mgmt.keys key,
      keyWait := mdel s.mgmt.keyWait key, dropped := mdel s.mgmt.dropped key }
    match w with
    | none => .next s
    | some (id, d) => .next (s.unitResult id d (keyResult 0 n))

/-! ## Gang stops (R157 to R160, R422) -/

/-- Whether a stop in force covers a task (R157). -/
def stopCovers (s : State) (g : GangStop) (t : Task) : Bool :=
  s.partOfTask t == g.part && (g.launch.isNone || (g.launch == some t.launch &&
    (modOf t.dcore == g.mod || (s.launchAt t.launch).any Launch.multi)))

/-- Whether a task is in the scope of a stop in force. -/
def stopped (s : State) (t : Task) : Bool := s.work.stops.any (fun g => stopCovers s g t)

/-- The cores of this module in a partition (R135). -/
def partCores (s : State) (part : Nat) : List Nat :=
  s.work.partcfg.flatMap (fun x => let w := x.2.toNat
    if bit w 0 && bits w 63 48 == part then
      (List.range (bits w 21 11 * 16)).map (fun i => clusterCore (bits w 31 22 + i / 16) (i % 16))
    else [])

/-- A core writes its stop record (R159). -/
def State.stopRecord (s : State) (k : Nat) : State :=
  let c := s.coreAt k
  s.setCore k { c with gsStamp := w64 s.now, gsSent := c.sentN % 2 ^ 32, gsRecv := c.recvN % 2 ^ 32 }

/-- A gang stop on this module (R157, R158): every slot in scope but the issuing one stops at its next turn, its
multi-rotation results complete, and the stopped cores write their records. -/
def State.gangStop (s : State) (g : GangStop) (except : Option SlotId) : State :=
  let s := s.setWork { s.work with stops := s.work.stops ++ [g] }
  let hit (k : Nat) (n : Nat) (sl : Slot) : Bool :=
    sl.st != .free && stopCovers s g sl.task && except != some ⟨k, n⟩
  let ks := (s.cores.filter (fun c => c.2.slots.any (fun x => hit c.1 x.1 x.2))).map (·.1)
  let ks := if g.launch.isNone then (partCores s g.part ++ ks).eraseDups else ks
  let s := { s with cores := s.cores.map (fun (c : Nat × Core) => (c.1, { c.2 with
    slots := c.2.slots.map (fun (x : Nat × Slot) =>
      if hit c.1 x.1 x.2 then (x.1, { x.2.finishLate with halted := true }) else x) })) }
  ks.foldl (fun s k => s.stopRecord k) s

/-- A debug stop of a partition ends (R160). -/
def State.gangResume (s : State) (part : Nat) : State :=
  let s := s.setWork { s.work with stops := s.work.stops.filter (fun g => g.part != part || g.fatal) }
  { s with cores := s.cores.map (fun (c : Nat × Core) => (c.1, { c.2 with
    slots := c.2.slots.map (fun (x : Nat × Slot) =>
      if x.2.halted && !stopped s x.2.task then (x.1, { x.2 with halted := false }) else x) })) }

/-- Sends a stop or the end of one to the other modules (R157). -/
def State.tellStop (s : State) (part : Nat) (launch : Option Nat) (resume fatal : Bool) : State :=
  if s.fabric.enable then s.askAll 1 unitRouter part (.stop part launch resume fatal) else s

/-- Whether a stop or a resume of a partition is in progress (R422). -/
def stopUnderway (s : State) (part : Nat) : Bool :=
  s.sched.timers.any (fun t => match t.ev with
    | .haltDone _ _ p => p == part
    | _ => false)

/-- The shared form of HALTG: the result follows when every core in scope has stopped or resumed, within 256 cycles on a
module and 2 µs over all; 1 and 2 follow at once (R157, R422). -/
def haltForm (s : State) (m : Demand) (d : Reg) (k : State → Vals → Nat → Option State) : Res :=
  issueAfter s [s.privTrap] { m with dests := [d.toNat] } noChecks (fun v sl =>
    let part := s.partOfTask sl.task
    let s1 := s.retire (sl.pendG d.toNat)
    if stopUnderway s part then .next (s1.unitResult s.sched.cur d.toNat 2)
    else match k s1 v part with
      | none => .next (s1.unitResult s.sched.cur d.toNat 1)
      | some s2 => .next (s2.after (s.pick Config.useTimeout % (if s.fabric.enable then 3401 else 257))
          (.haltDone s.sched.cur d.toNat part)))

/-- Every core in scope has stopped or resumed (R422). -/
def execHaltDone (id : SlotId) (d : Nat) (_part : Nat) (s : State) : Res := .next (s.unitResult id d 0)

/-- HALTG.STOP (R422). -/
def execHaltgStop (d : Reg) (s : State) : Res :=
  haltForm s noDemand d (fun s _ part =>
    some ((s.gangStop ⟨s.fabric.self, part, none, false⟩ (some s.sched.cur)).tellStop part none false false))

/-- HALTG.STOPL: every slot running a launch (R422). -/
def execHaltgStopl (o : OpsDA) (s : State) : Res :=
  haltForm s ⟨some (o.a.toNat, o.sa), none, none, [], []⟩ o.d (fun s v part =>
    let l := bits v.a.toNat 15 0
    (s.launchAt l).map (fun _ =>
      (s.gangStop ⟨s.fabric.self, part, some l, false⟩ (some s.sched.cur)).tellStop part (some l) false false))

/-- HALTG.RESUME: ends a debug stop of this partition (R160, R422). -/
def execHaltgResume (d : Reg) (s : State) : Res :=
  haltForm s noDemand d (fun s _ part =>
    if s.work.stops.any (fun g => g.part == part && !g.fatal) then some ((s.gangResume part).tellStop part none true false) else none)

end Sys2Proof.Machine
end

