-- ==== Sys2Proof/Machine/Work.lean ====
section
/-! DEFINITION. Launches, graphs, phases, jobs: LAUNCH, GRAPH, CANCEL, JOINW, QUIT, and how they end
(spec 06 R128 to R134, 07 R162, R163, 16 R394 to R400). -/

namespace Sys2Proof.Machine

open Sys2Proof

/-! ## Reads by a unit (R396, R111) -/

/-- The lines that units of the hub read from outside this module are kept under this number. -/
def unitCache : Nat := unitLoc 100

/-- What a unit's read comes to. -/
inductive ReadRes
  | ok (l : List Byte) (s : State)
  | fault (cause level : Nat) (va : Word) (s : State)
  | zpage (pte : Nat) (va : Word) (s : State)
  | wait (s : State)

/-- Reads bytes of one line as a load of a task at a core or unit (R396). -/
def readRun (s : State) (k job : Nat) (user : Bool) (va : Word) (n : Nat) : ReadRes :=
  match translate s k job user va .read with
  | (.fault c lv, s) => .fault c lv va s
  | (.zpage pte, s) => .zpage pte va s
  | (.ok x, s) =>
    let line := x.pa / 64
    let cut (l : List Byte) : List Byte := (l.drop (x.pa % 64)).take n
    if x.ty = 2 then .fault causePerm 0 va s
    else if x.dev = s.fabric.self && !paOk s x.pa then .fault causePhysaddr 0 va s
    else if encrypted (region x.pa) && !s.keyLive (s.accKey job va) then .fault causeKeydead 0 va s
    else if x.dev = s.fabric.self && region x.pa < 4 then
      match lineBusy s x.pa false with
      | some s => .wait s
      | none =>
        match (if x.ty = 1 && isTile s.part k then findLine s.mem (clusterOf k) x.dev line else none) with
        | some l => .ok (cut (l.read (s.accKey job va))) s
        | none => .ok (s.mem.read (s.accKey job va) x.pa n) (s.heat x.pa)
    else match findLine s.mem unitCache x.dev line with
      | some l => .ok (cut (l.read (s.accKey job va))) s
      | none => match lineDead s unitCache x.dev line with
        | some c => .fault c 0 va (s.clearDead unitCache x.dev line)
        | none => .wait (if x.dev = s.fabric.self && region x.pa = 8 then s.askHostLine unitCache job 0 false false va x.pa
            else s.askLine unitCache x.dev line)

/-- Reads a run of bytes, line by line. -/
def readBytes (k job : Nat) (user : Bool) : Nat → State → Word → Nat → List Byte → ReadRes
  | 0, s, _, _, acc => .ok acc s
  | fuel + 1, s, va, n, acc =>
    if n = 0 then .ok acc s
    else
      let m := min n (64 - va.toNat % 64)
      match readRun s k job user va m with
      | .ok l s => readBytes k job user fuel s (va + w64 m) (n - m) (acc ++ l)
      | r => r

/-- Reads n bytes. -/
def unitRead (s : State) (k job : Nat) (user : Bool) (va : Word) (n : Nat) : ReadRes :=
  readBytes k job user (n / 64 + 2) s va n []

/-- The lines read from outside are dropped once a read is whole. -/
def State.dropUnitLines (s : State) : State :=
  s.setMem { s.mem with clines := s.mem.clines.filter (fun l => l.loc != unitCache) }

/-- Word i of a list of bytes. -/
def wordAt (l : List Byte) (i : Nat) : Word := w64 (bytesNat ((l.drop (8 * i)).take 8))

/-! ## Sending task packets (R128, R136, R138, R179, R448) -/

/-- The sender that marks the root task of a launch. -/
def rootPoster : SlotId := ⟨unitLaunch, 1⟩

/-- Adds to a count of R448 of a launch. -/
def Launch.countOut (l : Launch) : Launch :=
  { l with sent := if l.colour then (l.sent.1, l.sent.2 + 1) else (l.sent.1 + 1, l.sent.2) }
def Launch.countIn (l : Launch) (colour : Bool) : Launch :=
  { l with recv := if colour then (l.recv.1, l.recv.2 + 1) else (l.recv.1 + 1, l.recv.2) }

/-- The launch of a packet, and whether it is ordered. -/
def packetLaunch (p : Words8) : Nat := bits p.w3.toNat 63 48
def packetOrd (p : Words8) : Bool := bit p.w2.toNat 59

/-- A packet as hardware fills it (R136, R393): ORIGIN, SEQ, TIME, LAUNCH, ORD, bit 57 zero, AFFC. -/
def fillPacket (p : Words8) (origin seq : Nat) (time : Word) (launch : Nat) (ord : Bool) (affc : Nat) : Words8 :=
  { p with
    w0 := w64 (origin * 2 ^ 32 + seq % 2 ^ 32), w1 := time,
    w2 := (p.w2 &&& ~~~(w64 (5 * 2 ^ 57))) ||| w64 (b2n ord * 2 ^ 59),
    w3 := w64 (launch % 65536 * 2 ^ 48 + bits p.w3.toNat 47 36 * 2 ^ 36 + affc % 16 * 2 ^ 32 + bits p.w3.toNat 31 0) }

/-- Sends a task packet from a core to the cluster of a target (R138). -/
def State.sendTask (s : State) (k : Nat) (src : SlotId) (gt : Nat) (p : Words8) : State :=
  let part := s.partOf (packetLaunch p)
  let ord := packetOrd p
  let away := modOf gt != s.fabric.self
  let multi := (s.launchAt (packetLaunch p)).elim false Launch.multi
  let colour := if ord then s.colourAt k part else (s.launchAt (packetLaunch p)).elim false Launch.colour
  let s := if ord then s.countSent k part (keyOfPacket p) else s
  let s := if !ord && away && multi then s.setLaunch (packetLaunch p) Launch.countOut else s
  let c := s.coreAt k
  let s := s.setCore k { c with sentN := c.sentN + 1 }
  let cl := clusterOf (coreOf gt)
  if away then s.ask 6 (modOf gt) 0 src.core src.slot part (packetLaunch p) (.task cl src colour p)
  else s.send (srcKey src.core src.slot) cl (.taskPacketArrival cl src colour p)

/-! ## Ordered launches begin and end (R162, R180, R185) -/

/-- The clusters of this module in a partition. -/
def partClusters (s : State) (part : Nat) : List Nat :=
  s.work.partcfg.flatMap (fun x => let w := x.2.toNat
    if bit w 0 && bits w 63 48 == part then (List.range (bits w 21 11)).map (fun i => bits w 31 22 + i) else [])

/-- The number that stands for the dock groups of a module among its clusters in sweeps. -/
def dockNode : Nat := 1024

/-- The number of a module's hub node: a levee-class message from another module arrives there. -/
def hubNode : Nat := 1025

/-- A sweep message of a partition. -/
def sweepMsg (part num src : Nat) : SweepMsg :=
  { src := src, part := part, colour := false, flip := false, idle := false, fail := false, num := num, sent := 0,
    recv := 0, key := 0 }

/-- Sends a levee-class message to every cluster and the dock groups of the module, and to the other modules of the
launch (R180). -/
def State.levelDown (s : State) (part launch kind : Nat) (m : SweepMsg) (ev : SweepMsg → Ev) : State :=
  let s := (partClusters s part ++ [dockNode]).foldl (fun s cl =>
    s.send (2 ^ 24 + unitLaunch) cl (ev { m with src := cl })) s
  ((s.launchAt launch).elim [] Launch.modules).foldl (fun s mo =>
    if mo = s.fabric.self then s
    else s.ask 1 mo 0 unitLaunch 0 part launch (.sweep kind { m with src := hubNode })) s

/-- A module takes part in an ordered launch (R162, R180): colour 0, no counts, the log rows pinned. -/
def State.joinOrdered (s : State) (part launch : Nat) (b : OrdBlk) (key : Nat) : State :=
  let o : Ordered :=
    { part := part, launch := launch, optwin := b.optwin.toNat, lfirst := b.lfirst, nlog := b.nlog, period := b.period,
      time0 := b.time0.toNat, levee := key, num := 0, colour := false, accepted := true, sweeping := false, idles := 0,
      got := [], began := s.now, dockSent := (0, 0), dockRecv := (0, 0), dockColour := false,
      dockMin := 2 ^ 128 - 1, dockLevee := none }
  let s := s.setWork { s.work with ordered := mput s.work.ordered part o }
  let s := (partClusters s part).foldl (fun s cl =>
    s.setCluster cl { s.cluster cl with sent := (0, 0), recv := (0, 0), colour := false, minSent := 2 ^ 128 - 1 }) s
  let rows := (List.range (b.nlog + b.nlog / 8)).map (fun i => b.lfirst + i)
  (partCores s part).foldl (fun s k =>
    let c := rows.foldl (fun c r => c.setRow r { c.row r with pin := true }) (s.coreAt k)
    s.setCore k { c with levee := none, rolls := 0 }) s

/-- An ordered launch begins at its initiator (R180): the root's key is published, the first sweep is due after PERIOD. -/
def State.openOrdered (s : State) (part launch : Nat) (b : OrdBlk) (key : Nat) : State :=
  let s := s.joinOrdered part launch b key
  let s := s.levelDown part launch 3 { sweepMsg part 0 0 with key := BitVec.ofNat 128 key } Ev.levpub
  s.after (b.period * 1700) (.leveeSweepStart part)

/-- An ordered launch ends: its log rows are unpinned (R231) and no levee is published. -/
def State.closeOrdered (s : State) (part launch : Nat) : State :=
  match s.orderedOf part with
  | none => s
  | some o =>
    if o.launch != launch then s
    else
      let s := s.setWork { s.work with ordered := mdel s.work.ordered part }
      let rows := (List.range (o.nlog + o.nlog / 8)).map (fun i => o.lfirst + i)
      (partCores s part).foldl (fun s k =>
        let c := rows.foldl (fun c r => c.setRow r { c.row r with pin := false }) (s.coreAt k)
        s.setCore k { c with levee := none }) s

/-! ## Ends (R128, R129, R131, R400) -/

/-- JOINW requests on a level are answered (R400). -/
def State.wakeJoins (s : State) (level index : Nat) (v : Word) : State :=
  let hit := s.work.joins.filter (fun j => j.level == level && j.index == index)
  let s := s.setWork { s.work with joins := s.work.joins.filter (fun j => !(j.level == level && j.index == index)) }
  hit.foldl (fun s j => s.unitResult j.id j.d v) s

/-- Whether a launch has ended. -/
def launchEnded (s : State) (i : Nat) : Bool := (s.launchAt i).elim true (fun l => 3 ≤ l.st)

/-- Whether a job's root launch and every graph it created have completed (R131). -/
def jobOver (s : State) (j : Job) : Bool :=
  j.running && launchEnded s j.rootLaunch && j.graphs.all (fun g => (mget? s.work.graphs g).elim true graphDone)

/-- Whether a message of a job may still come: an access of it is on its way, or the answer to one, to a message or to a
FUTRES (R89). -/
def jobTrails (s : State) (n : Nat) : Bool :=
  (openAccesses s).any (fun a => a.job == n) ||
  s.cores.any (fun c => c.2.slots.any (fun x => (x.2.posted != 0 || x.2.unackMsg != 0) && (x.2.st == .free || x.2.task.job == n))) ||
  s.host.pendingReads.any (fun r => match r.2 with
    | .futres m => bits m.w0.toNat 47 32 == n
    | _ => false)

/-- JOBDONE (R131, R87), behind every other message of the job (R89): the job's ended launches and graphs return to FREE, its
tokens become stale, and a DEAD key that no job uses becomes EMPTY (R126; notes/assumptions/19). Its SEQ is that of the
JOBSTART (DESIGN CHOICE, notes/assumptions/26). -/
def State.checkJob (s : State) (n : Nat) : State :=
  match mget? s.work.jobs n with
  | none => s
  | some j =>
    if !jobOver s j then s
    else if jobTrails s n then s.after 16 (.launchComplete j.rootLaunch)
    else
      let st := if j.cancelled then 1 else if j.anyFailed then 2 else 0
      let used := s.work.jobs.any (fun x => x.1 != n && x.2.running && x.2.key == j.key)
      let s := s.setWork { s.work with
        jobs := mput s.work.jobs n { j with running := false },
        launches := s.work.launches.filter (fun l => !(l.2.job == n && 3 ≤ l.2.st)),
        graphs := s.work.graphs.filter (fun g => g.2.job != n) }
      let s := s.setMem { s.mem with replay := s.mem.replay.filter (fun r => r.job != n) }
      let s := if mget s.mgmt.keys j.key .empty == .dead && !used then
          s.setMgmt { s.mgmt with keys := mdel s.mgmt.keys j.key } else s
      s.toHost 0x81 0 n j.tag 0 (w64 st) 0 0

/-- A launch starts (R129): its root task is posted; an ordered launch while another runs ends FAILED (R398). -/
def State.startRoot (s : State) (r : Root) : State :=
  match s.launchAt r.launch with
  | none => s
  | some l =>
    if l.ord && (s.orderedOf l.part).isSome then
      (s.setLaunch r.launch (fun l => { l with st := 2, start := s.now, count := 0, fail := true })).post
        (.launchComplete r.launch)
    else
      let s := s.setLaunch r.launch (fun l => { l with st := 2, start := s.now, count := 1 })
      let s := match r.blk with
        | some b => s.openOrdered l.part r.launch b (keyOfPacket r.pkt)
        | none => s
      s.sendTask (coreOf (bits r.pkt.w0.toNat 61 32)) rootPoster r.core r.pkt

/-- A pending launch is cancelled: it never starts (R129, R134). -/
def State.cancelPending (s : State) (i : Nat) : State :=
  match s.launchAt i with
  | some l =>
    if l.st = 1 then
      (s.setLaunch i (fun l => { l with st := 4, count := 0, cancelled := true, end_ := s.now })).wakeJoins 0 i 4
    else s
  | none => s

/-- The phase of a partition advances when its set is complete (R130). -/
def State.checkPhase (s : State) (part : Nat) : State :=
  if phaseReady s part && !s.work.advancing.contains part then
    (s.setWork { s.work with advancing := part :: s.work.advancing }).post (.phaseAdvance part)
  else s

/-- A graph ends once all its launches have (R129). -/
def State.checkGraph (s : State) (g : Nat) : State :=
  match mget? s.work.graphs g with
  | none => s
  | some gr =>
    if graphDone gr || !gr.launches.all (launchEnded s) then s
    else
      let st := if gr.st = 0 then 4 else if gr.st = 1 then 5 else 3
      let s := s.setWork { s.work with graphs := mput s.work.graphs g { gr with st := st } }
      let s := s.wakeJoins 1 g (w64 st)
      let s := (s.work.phaseSets.map (·.1)).foldl (fun s p => s.checkPhase p) s
      s.checkJob gr.job

/-- A launch of a graph has ended (R129): NPRED falls where it was a predecessor and ended DONE; otherwise no launch of
the graph that has not started starts. -/
def State.graphStep (s : State) (g i st : Nat) : State :=
  match mget? s.work.graphs g with
  | none => s
  | some gr =>
    let pos := gr.launches.idxOf i
    let succ := (gr.launches.zip gr.preds).filter (fun x => x.2.getLsbD pos)
    if st = 3 then
      let s := succ.foldl (fun s x => s.setLaunch x.1 (fun l => { l with npred := l.npred - 1 })) s
      let ready := gr.roots.filter (fun r => (s.launchAt r.launch).elim false (fun l => l.st == 1 && l.npred == 0))
      let s := s.setWork { s.work with
        graphs := mput s.work.graphs g { gr with roots := gr.roots.filter (fun r => !ready.contains r) } }
      if gr.st = 0 then s else (ready.foldl State.startRoot s).checkGraph g
    else
      let s := s.setWork { s.work with
        graphs := mput s.work.graphs g { gr with st := if gr.st = 2 then 1 else gr.st } }
      let s := if succ.isEmpty then s else gr.launches.foldl State.cancelPending s
      s.checkGraph g

/-- The other modules of a MULTI launch hear that it has ended (R128, R162). -/
def State.tellOver (s : State) (i : Nat) (l : Launch) (st : Nat) : State :=
  (l.modules.filter (fun m => m != s.fabric.self)).foldl (fun s m =>
    s.ask 1 m 0 unitLaunch 0 l.part i (.launchOver i st)) s

/-- A launch ends in a state (R128, R129, R131, R132). -/
def State.endLaunch (s : State) (i st : Nat) : State :=
  match s.launchAt i with
  | none => s
  | some l =>
    let s := s.setLaunch i (fun l => { l with st := st, end_ := s.now })
    let s := match st, l.cancelled, mget? s.work.jobs l.job with
      | 5, false, some j => s.setWork { s.work with jobs := mput s.work.jobs l.job { j with anyFailed := true } }
      | _, _, _ => s
    let s := if l.ord then s.closeOrdered l.part i else s
    let s := if l.multi && l.init = s.fabric.self then s.tellOver i l st else s
    let s := s.wakeJoins 0 i (w64 st)
    let s := if l.graph = 0 then s else s.graphStep l.graph i st
    let s := s.checkJob l.job
    if (mget? s.work.jobs l.job).elim true (fun j => !j.running) then
      s.setWork { s.work with launches := mdel s.work.launches i }
    else s

/-- LAUNCH_COMPLETE: COUNT has reached zero (R128, R131 to R134). Of a launch that has ended the job is looked at again. -/
def execLaunchComplete (idx : Nat) (s : State) : Res :=
  match s.launchAt idx with
  | none => .next s
  | some l =>
    if 3 ≤ l.st then .next (s.checkJob l.job)
    else if l.st != 2 || l.count != 0 then .next s
    else .next (s.endLaunch idx (if l.cancelled then 4 else if l.fail then 5 else 3))

/-- A MULTI launch of another module has ended: so does its part here (R128, R162, notes/assumptions/37). -/
def execLaunchOver (modid launch st : Nat) (s : State) : Res :=
  match s.launchAt launch with
  | none => .next s
  | some l => .next (if l.multi && l.init == modid && l.st == 2 then s.endLaunch launch st else s)

/-- The phase number of a partition rises by n; JOINW requests on it are answered (R130, R400). -/
def State.raisePhase (s : State) (part n : Nat) : State :=
  let ph := (s.phaseOf part + n) % 2 ^ 32
  let s := s.setWork { s.work with phases := mput s.work.phases part ph }
  let hit (j : JoinWait) : Bool := j.level == 2 && j.index / 2 ^ 32 == part && decide (j.index % 2 ^ 32 < ph)
  let ready := s.work.joins.filter hit
  let s := s.setWork { s.work with joins := s.work.joins.filter (fun j => !hit j) }
  ready.foldl (fun s j => s.unitResult j.id j.d 0) s

/-- The phase of a partition advances: the number rises and the set starts empty (R130, R355). -/
def State.finishPhase (s : State) (part : Nat) : State :=
  let s := s.setWork { s.work with
    phaseSets := mdel s.work.phaseSets part, phaseLeft := mdel s.work.phaseLeft part,
    advancing := s.work.advancing.filter (fun p => p != part) }
  s.raisePhase part 1

/-- An advance of this module goes on once its own lines are written back: the other modules write theirs back, and it is
complete when all have (R270). -/
def State.advancePhase (s : State) (part : Nat) : State :=
  if !s.work.advancing.contains part then s
  else match mget? s.work.phaseLeft part with
    | some 0 => s.finishPhase part
    | some _ => s
    | none =>
      if !s.fabric.enable || s.otherModules.isEmpty then s.finishPhase part
      else (s.setWork { s.work with phaseLeft := mput s.work.phaseLeft part s.otherModules.length }).askAll 2 unitRouter part
        (.phase part)

/-- PHASE_ADVANCE (R130, R270): every dirty PHASED line is written back, and the advance waits until every write-back is
acknowledged. Cached lines carry no partition, so those of the partition's clusters and of the remote-line cache are
written back. What other modules asked for is then answered, and the number rises here too. -/
def execPhaseAdvance (part : Nat) (s : State) : Res :=
  let asked := mget s.work.phaseFor part []
  if !s.work.advancing.contains part && asked.isEmpty then .next s
  else
    let mine (loc : Nat) : Bool := (partClusters s part).contains loc || loc == remoteCache
    let s := s.writeBackAll (fun l => mine l.loc)
    if s.mem.wbOut.any (fun x => mine x.1) then .next (s.after 16 (.phaseAdvance part))
    else
      let s := s.setWork { s.work with phaseFor := mdel s.work.phaseFor part }
      let s := asked.foldl (fun s src => s.respond 2 src 0 unitRouter (.phaseDone part)) s
      .next ((if asked.isEmpty then s else s.raisePhase part asked.length).advancePhase part)

/-- The phase of a partition advances on another module: this one writes back (R270). -/
def execPhaseArrival (src part : Nat) (s : State) : Res :=
  .next ((s.setWork { s.work with phaseFor := mput s.work.phaseFor part (mget s.work.phaseFor part [] ++ [src]) }).post
    (.phaseAdvance part))

/-- Another module has written back (R270). -/
def execPhaseReply (part : Nat) (s : State) : Res :=
  .next ((s.setWork { s.work with phaseLeft := mput s.work.phaseLeft part (mget s.work.phaseLeft part 1 - 1) }).post
    (.phaseAdvance part))

/-! ## Cancelling (R134) -/

/-- An access of the module's copy engines to a SAVE area, under its launch's job (R152, R236): of a slot that is being saved,
or of none. -/
def saveAccess (s : State) (t : Task) (src : List Source) (va : Word) (pa : Nat) (how : Perform) : Access :=
  { srcs := src, org := t.dcore * 16 + (src.head?).elim 0 Source.slot, va := va, pa := pa, pc := 0, job := t.job,
    launch := t.launch, part := s.partOfTask t, user := false, ord := t.ord, handler := t.handler, release := false, dst := 0,
    how := how }

/-- Whether a place of a SAVE area lies in memory of this module that nothing holds, where its home serves it at once. -/
def saveNear (s : State) (x : Xlat) : Bool := x.dev == s.fabric.self && paOk s x.pa && region x.pa < 2 && !writeBusy s x.pa

/-- Clears the V bit of a save block (R236, R237), where the block can be reached: the bits beside V in its byte are zero. -/
def State.freeBlock (s : State) (t : Task) (block : Word) : State :=
  match translate s unitLaunch t.job false (block + 95) .both with
  | (.ok x, s) =>
    if saveNear s x then s.setMem ((s.heat x.pa).mem.write (s.accKey t.job block) x.pa [0])
    else s.unitSend x.dev (saveAccess s t [] (block + 95) x.pa (.store 1 0))
  | _ => s

/-- Releases the slot reserved for a queued task, with its rows and its table entry; an ordered task's speculation entry
is freed (R134, R141). -/
def State.releaseSlot (s : State) (id : SlotId) : State :=
  let sl := s.slotAt id
  let s := (s.unpin id.core sl.task.pins).dropTable id.core sl.task
  let s := if sl.task.ord then s.freeSpec id.core sl.task.spec else s
  s.freeSlot id

/-- A saved task that ends leaves its nest and the barriers of its join list (R134, R147, R358). -/
def State.leaveSaved (s : State) (k : Nat) (t : Option Task) : State :=
  match t with
  | none => s
  | some x => x.joins.foldl (fun s va => s.leaveBarrier ⟨k, 0⟩ x va) (s.leaveNest x.nest)

/-- Whether a saved task was rolled back while it was saved: it will not resume (R237). -/
def staleSaved (s : State) (k : Nat) (t : Task) : Bool := t.ord && mget (s.coreAt k).gens t.spec 0 != t.sgen

/-- Releases what a queued task holds on a core (R134, R141): its slot, its rows, its table entry, its speculation
entry, its saved context. -/
def State.releaseQueued (s : State) (t : QTask) : State :=
  match t.st with
  | .fetch k n => s.releaseSlot ⟨k, n⟩
  | .resume k n block => ((s.releaseSlot ⟨k, n⟩).freeBlock (t.task.getD Task.reset) block).leaveSaved k t.task
  | .saved k block =>
    match t.task with
    | some x =>
      let s := s.freeBlock x block
      if staleSaved s k x then s
      else if x.ord then (s.leaveSaved k t.task).freeSpec k x.spec else s.leaveSaved k t.task
    | none => s
  | _ => s

/-- The queued tasks of a launch leave every queue and ring; entries of a ring move up (R134, R142). -/
def State.dropQueued (s : State) (i : Nat) : State :=
  s.work.clusters.foldl (fun s x =>
    let c := s.cluster x.1
    let mine (t : QTask) : Bool := packetLaunch t.pkt == i
    let gone := (c.queue ++ c.ring).filter mine
    let s := s.setCluster x.1 { c with queue := c.queue.filter (fun t => !mine t), ring := c.ring.filter (fun t => !mine t) }
    let stale (s : State) (t : QTask) : Bool := match t.st, t.task with
      | .saved k _, some x => staleSaved s k x
      | _, _ => false
    let s := gone.foldl (fun s t =>
      if t.st = .anti || stale s t then s.releaseQueued t else (s.releaseQueued t).lowerCount i) s
    let s := s.setMem { s.mem with waiters := s.mem.waiters.filter (fun w => !(w.acc.how == .await && w.acc.launch == i)) }
    if gone.isEmpty then s else s.post (.overflowReturn x.1)) s

/-- The HELD tasks of a launch are discarded with their records (R134, R188). -/
def State.dropHeld (s : State) (i : Nat) : State :=
  s.cores.foldl (fun s x =>
    ((s.coreAt x.1).spec.filter (fun e => e.2.st == .held && packetLaunch e.2.pkt == i)).foldl (fun s e =>
      (s.freeSpec x.1 e.1).lowerCount i) s) s

/-- Whether tasks of a launch run on other modules. -/
def launchAway (s : State) (i : Nat) : Bool :=
  s.cores.any (fun c => c.2.away.any (fun t => t.launch == i && modOf t.dcore == s.fabric.self))

/-- The other modules kill the tasks of a cancelled launch that run there; they are told again while some are away, since a
migrant may have been on its way (R134). -/
def State.tellCancel (s : State) (i : Nat) : State :=
  if s.fabric.enable then
    (s.askAll 1 unitLaunch (s.partOf i) (.cancelled i)).after 3400 (.cancelAgain i)
  else s

/-- A cancelled launch whose tasks are still away is told of again (R134). -/
def execCancelAgain (i : Nat) (s : State) : Res :=
  match s.launchAt i with
  | none => .next s
  | some l => .next (if l.cancelled && l.st == 2 && launchAway s i then s.tellCancel i else s)

/-- Whether an entry of the replay queue is an access on its own, which a cancellation leaves (R134). -/
def waitsAccess (r : Replay) : Bool :=
  match r.what with
  | .access a => a.how != .await
  | _ => false

/-- CANCEL of one launch (R134). Its running tasks are killed at their next issue; their waiting faults are withdrawn. -/
def State.cancelLaunch (s : State) (i : Nat) : State :=
  match s.launchAt i with
  | none => s
  | some l =>
    if l.st = 1 then (s.cancelPending i).graphStep l.graph i 4
    else if l.st != 2 || l.cancelled then s
    else
      let s := s.setLaunch i (fun l => { l with cancelled := true })
      let s := s.setMem { s.mem with
        replay := s.mem.replay.filter (fun r => !(r.launch == i && !waitsAccess r)),
        stopped := s.mem.stopped.filter (fun r => !(r.launch == i && !waitsAccess r)) }
      let s := ((s.dropQueued i).dropHeld i).tellCancel i
      if l.count = 0 && (l.multi || l.ord) then s.post (.launchComplete i) else s

/-- CANCEL of a graph (R134): no launch of it starts, the running ones are cancelled. -/
def State.cancelGraph (s : State) (g : Nat) : State :=
  match mget? s.work.graphs g with
  | none => s
  | some gr =>
    if graphDone gr then s
    else
      let s := s.setWork { s.work with graphs := mput s.work.graphs g { gr with st := 0, roots := [] } }
      let s := gr.launches.foldl State.cancelPending s
      (gr.launches.foldl State.cancelLaunch s).checkGraph g

/-- CANCEL of a job (R131, R134). -/
def State.cancelJob (s : State) (n : Nat) : State :=
  match mget? s.work.jobs n with
  | none => s
  | some j =>
    let s := s.setWork { s.work with jobs := mput s.work.jobs n { j with cancelled := true } }
    let s := j.graphs.foldl State.cancelGraph s
    (s.work.launches.filter (fun l => l.2.job == n)).foldl (fun s l => s.cancelLaunch l.1) s

/-- CANCEL at a level (R399): the result, and the state with the effect. -/
def cancelAt (s : State) (t : Task) (level index : Nat) : State × Nat :=
  if level = 0 then
    match s.launchAt index with
    | none => (s, 2)
    | some l => if l.job != t.job then (s, 2) else if 3 ≤ l.st then (s, 1)
      else if l.st = 2 && l.count = 0 && !l.multi && !l.ord then (s, 1) else (s.cancelLaunch index, 0)
  else if level = 1 then
    match mget? s.work.graphs index with
    | none => (s, 2)
    | some g => if g.job != t.job then (s, 2) else if graphDone g then (s, 1) else (s.cancelGraph index, 0)
  else if level = 2 then
    let gs := (mget s.work.phaseSets (s.partOf t.launch) []).filter (fun g =>
      (mget? s.work.graphs g).elim false (fun x => !graphDone x))
    if gs.isEmpty then (s, 1) else (gs.foldl State.cancelGraph s, 0)
  else (s.cancelJob t.job, 0)

/-- CANCEL (R399): an ordered task takes subcode 9. -/
def execCancel (o : OpsDAB) (s : State) : Res :=
  unitForm s [s.ordTrap 9] ⟨some (o.a.toNat, o.sa), some (o.b.toNat, o.sb), none, [], [o.d.toNat]⟩ noChecks o.d.toNat
    (fun s v sl =>
      let (s, r) := cancelAt s sl.task (bits v.b.toNat 1 0) (bits v.a.toNat 15 0)
      s.unitResult s.sched.cur o.d.toNat (w64 r))

/-- Whether a graph contains a launch. -/
def graphHas (s : State) (g launch : Nat) : Bool := (mget? s.work.graphs g).elim false (fun x => x.launches.contains launch)

/-- What JOINW finds at once (R400); none when the level has still to complete. -/
def joinNow (s : State) (t : Task) (level index : Nat) : Option Nat :=
  if level = 0 then
    match s.launchAt index with
    | none => some 0xFF
    | some l => if l.job != t.job then some 0xFF else if 3 ≤ l.st then some l.st
      else if index = t.launch then some 0xFE else none
  else if level = 1 then
    match mget? s.work.graphs index with
    | none => some 0xFF
    | some g => if g.job != t.job then some 0xFF else if graphDone g then some g.st
      else if g.launches.contains t.launch then some 0xFE else none
  else if level = 2 then
    let part := s.partOf t.launch
    if index < s.phaseOf part then some 0
    else if (mget s.work.phaseSets part []).any (fun g => graphHas s g t.launch) then some 0xFE else none
  else some 0xFE

/-- JOINW (R400): an ordered task takes subcode 9. -/
def execJoinw (o : OpsDAB) (s : State) : Res :=
  unitForm s [s.ordTrap 9] ⟨some (o.a.toNat, o.sa), some (o.b.toNat, o.sb), none, [], [o.d.toNat]⟩ noChecks o.d.toNat
    (fun s v sl =>
      let level := bits v.b.toNat 1 0
      let index := if level = 2 then bits v.a.toNat 31 0 else bits v.a.toNat 15 0
      match joinNow s sl.task level index with
      | some r => s.unitResult s.sched.cur o.d.toNat (w64 r)
      | none =>
        let index := if level = 2 then s.partOf sl.task.launch * 2 ^ 32 + index else index
        s.setWork { s.work with joins := s.work.joins ++ [⟨s.sched.cur, o.d.toNat, level, index⟩] })

/-! ## QUIT (R394) -/

/-- QUIT (R394): the streams and the requests on q4 and q5 are waited for; an ordered task becomes HELD (R166, R184). -/
def execQuit (s : State) : Res :=
  let sl := s.me
  let t := sl.task
  if sl.streams0 != 0 || sl.streams1 != 0 || sl.q4 != 0 || sl.q5 != 0 then .next s
  else
    let s := s.discardTask s.sched.cur
    if modOf t.dcore != s.fabric.self then .next (s.tellEnded t true false)
    else if t.ord then
      let k := coreOf t.dcore
      let c := s.coreAt k
      match mget? c.spec t.spec with
      | none => .next s
      | some e => .next (s.setCore k { c with spec := mput c.spec t.spec { e with st := .held } })
    else .next ((s.countLife (lifeEnergy + 3) 64 1).lowerCount t.launch)

/-! ## LAUNCH and GRAPH (R395 to R398) -/

/-- A launch descriptor (R396). -/
structure Desc where
  root : Words8
  handler : Word
  hcore : Nat
  rootcore : Nat
  save : Word
  farea : Word
  modva : Word
  nmod : Nat
  multi : Bool
  ord : Bool
  blk : OrdBlk
  deriving DecidableEq, Repr

/-- The words of a descriptor. -/
def descOf (l : List Byte) : Desc :=
  let w (i : Nat) : Nat := (wordAt l i).toNat
  { root := packetOf l, handler := w64 (w 8 % 2 ^ 54), hcore := bits (w 9) 63 48, rootcore := bits (w 9) 29 0,
    save := w64 (w 10 % 2 ^ 54), farea := w64 (w 11 % 2 ^ 54), modva := w64 (w 12 % 2 ^ 54), nmod := bits (w 13) 16 8,
    multi := bit (w 13) 1, ord := bit (w 13) 0,
    blk := ⟨wordAt l 16, bits (w 17) 63 54, bits (w 17) 53 44, bits (w 17) 43 28, wordAt l 18⟩ }

/-- Whether a core identifier names a valid target of a partition: a tile core in it (R13, R135). Which clusters of other
modules lie in it is a free value (notes/assumptions/20). -/
def targetOk (s : State) (part g : Nat) : Bool :=
  isTile s.part (coreOf g) && (if modOf g = s.fabric.self then inPartition s part (clusterOf (coreOf g))
    else Config.foreignRun part (modOf g) (clusterOf (coreOf g)))

/-- Whether a descriptor has a reserved field that is not zero, or breaks a limit of R397 step 1. -/
def descBad (s : State) (part : Nat) (l : List Byte) : Bool :=
  let w (i : Nat) : Nat := (wordAt l i).toNat
  let d := descOf l
  bits (w 2) 57 54 != 0 || bits (w 3) 47 36 != 0 || bits (w 3) 31 16 != 0 || bits (w 4) 58 54 != 0 ||
  bits (w 5) 63 54 != 0 ||
  bits (w 8) 63 54 != 0 || bits (w 9) 47 30 != 0 || bits (w 10) 63 54 != 0 || bits (w 11) 63 54 != 0 ||
  bits (w 12) 63 54 != 0 || bits (w 13) 63 17 != 0 || bits (w 13) 7 2 != 0 || w 14 != 0 || w 15 != 0 ||
  w 20 != 0 || w 21 != 0 || w 22 != 0 || w 23 != 0 ||
  (d.handler != 0 && d.handler.toNat % 64 != 0) || bits (w 2) 5 0 != 0 || !isTile s.part d.hcore ||
  !targetOk s part d.rootcore ||
  (if d.multi then d.nmod = 0 || 256 < d.nmod || d.modva.toNat % 32 != 0 else d.nmod != 0 || d.modva != 0) ||
  (if d.ord then
    d.blk.nlog < 64 || 512 < d.blk.nlog || d.blk.nlog % 8 != 0 || d.blk.period = 0 || bits (w 17) 27 0 != 0 ||
    w 19 != 0 || 768 < d.blk.lfirst + d.blk.nlog + d.blk.nlog / 8
   else w 16 != 0 || w 17 != 0 || w 18 != 0 || w 19 != 0)

/-- The entry of a new launch (R132). -/
def newLaunch (s : State) (d : Desc) (job part graph npred : Nat) (modules : List Nat) : Launch :=
  { st := if npred = 0 && graph = 0 then 2 else 1, npred := npred, graph := graph, count := 1, handler := d.handler,
    hcore := d.hcore, part := part, init := s.fabric.self, fail := false, multi := d.multi, ord := d.ord, save := d.save,
    farea := d.farea, fahead := 0, phase := s.phaseOf part, start := s.now, end_ := 0, job := job, cancelled := false,
    stalled := [], sent := (0, 0), recv := (0, 0), colour := false, modules := modules }

/-- Adds a launch to the table and to its job. -/
def State.addLaunch (s : State) (i : Nat) (l : Launch) : State :=
  let s := s.setWork { s.work with launches := mput s.work.launches i l }
  match mget? s.work.jobs l.job with
  | none => s
  | some j => s.setWork { s.work with jobs := mput s.work.jobs l.job { j with launches := j.launches ++ [i] } }

/-- The next number of a core's post counter (R136). -/
def State.takeSeq (s : State) (k : Nat) : Nat × State :=
  let c := s.coreAt k
  (c.post.toNat, s.setCore k { c with post := c.post + 1 })

/-- The result word of LAUNCH and GRAPH (R397, R398). -/
def launchWord (status reason index : Nat) : Word := w64 (status * 2 ^ 56 + reason * 2 ^ 48 + index)

/-- The root packet of a launch as LAUNCH fills it (R163, R396). -/
def State.rootPacket (s : State) (k i : Nat) (d : Desc) : Words8 × State :=
  let (seq, s) := s.takeSeq k
  (fillPacket d.root (gcid s k) seq (if d.ord then d.blk.time0 else 0) i d.ord (coreNum (coreOf d.rootcore)), s)

-- Gang-control message types (R75).
def gprepType : Nat := 1
def gpackType : Nat := 2
def gpnakType : Nat := 3
def gcommitType : Nat := 4
def gstartType : Nat := 5
def gabortType : Nat := 6
def gstopType : Nat := 7

/-- The event that a gang-control message is. -/
def gangEv (kind : Nat) (m : GangMsg) : Ev :=
  if kind = 1 then .gprep m else if kind = 2 then .gpack m else if kind = 3 then .gpnak m else if kind = 4 then .gcommit m
  else if kind = 5 then .gstart m else if kind = 6 then .gabort m else .gstop m

/-- Sends a gang-control message to a module, this one included (R76). -/
def State.gangSend (s : State) (mod kind : Nat) (m : GangMsg) : State :=
  if mod = s.fabric.self then s.send (2 ^ 24) (2 ^ 24 + 1) (gangEv kind m)
  else s.ask 1 mod 0 unitLaunch 0 m.part (bits m.launch.toNat 15 0) (.gang kind m)

/-- The entries of a module list (R396): module, NTASK, PKTVA, TGTVA. -/
def modEntries (l : List Byte) : Nat → Nat → List (Nat × Nat × Word × Word)
  | _, 0 => []
  | i, n + 1 =>
    let w := (wordAt l (4 * i)).toNat
    (bits w 13 0, bits w 63 40, wordAt l (4 * i + 1), wordAt l (4 * i + 2)) :: modEntries l (i + 1) n

/-- Whether a module list has a reserved field that is not zero. -/
def modListBad (l : List Byte) (n : Nat) : Bool :=
  (List.range n).any (fun i => bits (wordAt l (4 * i)).toNat 39 14 != 0 || wordAt l (4 * i + 3) != 0)

/-- The gang protocol begins (R76 step 1). -/
def State.startGang (s : State) (id : SlotId) (d : Nat) (va : Word) (i part : Nat)
    (mods : List (Nat × Nat × Word × Word)) (root : Words8) (rootCore : Nat) : State :=
  let ident := w64 (s.work.nextTask * 65536 + i)
  let s := s.setWork { s.work with nextTask := s.work.nextTask + 1 }
  let mods := if mods.any (fun m => m.1 == s.fabric.self) then mods else mods ++ [(s.fabric.self, 0, 0, 0)]
  let s := s.setFabric { s.fabric with gangs := s.fabric.gangs ++
    [{ launch := ident, part := part, mods := mods, ackd := [], started := [], phase := 0,
       ends := s.now + 170000, id := id, d := d, root := root,
       rootCore := rootCore }] }
  let s := mods.foldl (fun s m => s.gangSend m.1 gprepType
    { src := s.fabric.self, init := s.fabric.self, part := part, launch := ident, ntask := m.2.1, reason := 0,
      desc := va }) s
  s.after 170000 (.gangPrepareTimeout ident)

/-- The checks and effects of LAUNCH once its descriptor is read (R397). -/
def launchWith (s : State) (id : SlotId) (d : Nat) (va : Word) (l mlist : List Byte) : State :=
  let t := (s.slotAt id).task
  let part := s.partOf t.launch
  let x := descOf l
  if va.toNat % 64 != 0 || descBad s part l || modListBad mlist x.nmod then s.unitResult id d (launchWord 2 0 0)
  else match freeKey s.work.launches 0 65536 with
    | none => s.unitResult id d (launchWord 3 0 0)
    | some i =>
      if x.ord && (s.orderedOf part).isSome then s.unitResult id d (launchWord 1 0 0)
      else
        let mods := modEntries mlist 0 x.nmod
        let (pkt, s) := s.rootPacket id.core i x
        let s := s.addLaunch i (newLaunch s x t.job part 0 0 (mods.map (·.1)))
        if x.multi then
          let s := if x.ord then s.setLaunch i (fun l => { l with modules := mods.map (·.1) }) else s
          let s := if x.ord then s.openOrdered part i x.blk (keyOfPacket pkt) else s
          s.startGang id d va i part mods pkt x.rootcore
        else
          let s := if x.ord then s.openOrdered part i x.blk (keyOfPacket pkt) else s
          let s := s.setWork { s.work with rootWait := mput s.work.rootWait i (id, d) }
          s.sendTask id.core rootPoster x.rootcore pkt

/-- Reads what LAUNCH needs: the descriptor, then the module list (R396). -/
def readLaunch (s : State) (t : Task) (user : Bool) (k : Nat) (va : Word) : ReadRes :=
  match unitRead s k t.job user va 192 with
  | .ok l s =>
    let d := descOf l
    if d.multi && d.nmod ≤ 256 && d.modva.toNat % 32 = 0 then
      match unitRead s k t.job user (d.modva.truncate 54 |>.signExtend 64) (32 * d.nmod) with
      | .ok m s => .ok (l ++ m) s
      | r => r
    else .ok l s
  | r => r

/-- Descriptors that follow a graph's entries, read in order. -/
def readDescs (k : Nat) (t : Task) (user : Bool) : List Word → State → List Byte → ReadRes
  | [], s, acc => .ok acc s
  | va :: rest, s, acc =>
    match unitRead s k t.job user va 192 with
    | .ok l s => readDescs k t user rest s (acc ++ l)
    | r => r

/-- The number of launches of a graph descriptor's first word, at most 64. -/
def graphCount (w : Word) : Nat := min (bits w.toNat 6 0) 64

/-- Reads a graph descriptor and its launch descriptors (R398). -/
def readGraph (s : State) (t : Task) (user : Bool) (k : Nat) (va : Word) : ReadRes :=
  match unitRead s k t.job user va 8 with
  | .ok l s =>
    let n := graphCount (wordAt l 0)
    match unitRead s k t.job user (va + 8) (16 * n) with
    | .ok es s =>
      let vas := (List.range n).map (fun i => ((wordAt es (2 * i)).truncate 54 : BitVec 54).signExtend 64)
      readDescs k t user vas s (l ++ es)
    | r => r
  | r => r

/-- The free launch indices, lowest first. -/
def freeIndices (m : Map Launch) : Nat → Nat → Nat → List Nat
  | _, _, 0 => []
  | _, 0, _ => []
  | i, n + 1, fuel + 1 => if (mget? m i).isSome then freeIndices m (i + 1) (n + 1) fuel else i :: freeIndices m (i + 1) n fuel

/-- The number of set bits below 64. -/
def popWord (w : Word) : Nat := ((List.range 64).filter (fun i => w.getLsbD i)).length

/-- The checks and effects of GRAPH once everything is read (R398). -/
def graphWith (s : State) (id : SlotId) (d : Nat) (va : Word) (l : List Byte) : State :=
  let t := (s.slotAt id).task
  let part := s.partOf t.launch
  let w0 := (wordAt l 0).toNat
  let n := graphCount (wordAt l 0)
  let preds := (List.range n).map (fun i => wordAt l (2 + 2 * i))
  let desc (i : Nat) : List Byte := (l.drop (8 + 16 * n + 192 * i)).take 192
  let bad := va.toNat % 8 != 0 || w0 / 128 != 0 || n = 0 || 64 < w0 % 128 ||
    (List.range n).any (fun i => bits (wordAt l (1 + 2 * i)).toNat 63 54 != 0 ||
      (wordAt l (1 + 2 * i)).toNat % 64 != 0 || 2 ^ i ≤ (wordAt l (2 + 2 * i)).toNat || descBad s part (desc i) ||
      (descOf (desc i)).multi)
  let ids := freeIndices s.work.launches 0 n 65536
  if bad then s.unitResult id d (launchWord 2 0 0)
  else match freeKey s.work.graphs 1 4095 with
    | none => s.unitResult id d (launchWord 3 0 0)
    | some g =>
      if ids.length < n then s.unitResult id d (launchWord 3 0 0)
      else
        let (s, roots) := ((List.range n).zip ids).foldl (fun (x : State × List Root) y =>
          let de := descOf (desc y.1)
          let (pkt, s) := x.1.rootPacket id.core y.2 de
          let s := s.addLaunch y.2 (newLaunch s de t.job part g (popWord (preds.getD y.1 0)) [])
          (s, x.2 ++ [⟨y.2, pkt, de.rootcore, if de.ord then some de.blk else none⟩])) (s, [])
        let ready := roots.filter (fun r => (s.launchAt r.launch).elim false (fun l => l.npred == 0))
        let gr : Graph :=
          { launches := ids, preds := preds, roots := roots.filter (fun r => !ready.contains r), st := 2, job := t.job }
        let s := s.setWork { s.work with graphs := mput s.work.graphs g gr }
        let s := match mget? s.work.jobs t.job with
          | none => s
          | some j => s.setWork { s.work with jobs := mput s.work.jobs t.job { j with graphs := j.graphs ++ [g] } }
        (ready.foldl State.startRoot s).unitResult id d (launchWord 0 0 g)

/-- The launch unit serves a LAUNCH or GRAPH whose descriptor is to be read (R395, R396): also when a read resumes. While
lines come from outside the module, or the replay queues are full, it goes on with later requests and tries again. -/
def launchServe (s : State) (id : SlotId) (d : Nat) (va : Word) (graph : Bool) : State :=
  let sl := s.slotAt id
  let t := sl.task
  let what : Waiting := .launch id d va graph
  match (if graph then readGraph s t (!sl.sup) id.core va else readLaunch s t (!sl.sup) id.core va) with
  | .ok l s =>
    if graph then graphWith s.dropUnitLines id d va l
    else launchWith s.dropUnitLines id d va (l.take 192) (l.drop 192)
  | .wait s => s.stopAt t.job t.launch va what
  | .zpage pte a s => s.askPage pte t.job a t.launch what
  | .fault c lv a s =>
    s.faultOrStop
      { engine := 0, cause := c, job := t.job, place := gcid s unitLaunch, va := a, access := accLoad, size := 6,
        spec := false, slot := id.slot, cmd := 0, level := lv, token := 0 } t.launch t.handler what

/-- The shared form of LAUNCH and GRAPH (R395, R396): a release at core scope first; the slot goes on. -/
def launchForm (o : OpsDA) (graph : Bool) (s : State) : Res :=
  issueAfter s [s.ordTrap 9] (daDemand o) noChecks (fun v sl =>
    if !s.coreRelease || s.acqWait then .next s
    else if modOf sl.task.dcore != s.fabric.self then .next (s.askHome ((sl.pendG o.d.toNat).advance s.sched.ir))
    else .next (launchServe (s.retire (sl.pendG o.d.toNat)) s.sched.cur o.d.toNat v.a graph))

/-- LAUNCH (R397). -/
def execLaunch (o : OpsDA) (s : State) : Res := launchForm o false s

/-- GRAPH (R398). -/
def execGraph (o : OpsDA) (s : State) : Res := launchForm o true s

end Sys2Proof.Machine
end

