-- ==== Sys2Proof/Machine/Tasks.lean ====
section
/-! DEFINITION. Threads and tasks: SPAWN, SPAWNW, POST, cluster queues, readiness, dispatch, footprints
(spec 06 R135 to R144, 16 R392, R393, 09 R222). -/

namespace Sys2Proof.Machine

open Sys2Proof

/-! ## Slots of a core (R222, R144) -/

/-- The number of guest slots of a tile core: values above 8 act as 8 (R222). -/
def Core.guestSlots (c : Core) : Nat := min c.guests 8

/-- Whether a migrant waits in the holding buffer for a core. -/
def migrantWaits (s : State) (k : Nat) : Bool := s.work.migrants.any (fun x => coreOf x.m.home == k)

/-- The free primary slots of a tile core. With GUESTS = 0 a waiting migrant takes a freed slot first (R222). A core whose
work moves away or has moved away takes none (R155, notes/assumptions/94). -/
def freePrimary (s : State) (k : Nat) : List Nat :=
  let c := s.coreAt k
  if (c.guestSlots = 0 && migrantWaits s k) || s.retired k || lmigHolds s k then []
  else (List.range (16 - c.guestSlots)).filter (fun n => (c.slotAt n).st == .free && !(c.slotAt n).reserved)

/-- The slots that hold dispatched or spawned tasks, or are reserved for them (R143). -/
def occupied (s : State) (k : Nat) : Nat :=
  ((s.coreAt k).slots.filter (fun x => (x.2.st != .free && !x.2.guest) || x.2.reserved)).length

/-- A slot on which a core may place a thread now. -/
def placeSlot (s : State) (k : Nat) : Option Nat :=
  if occupied s k < s.work.cap then (freePrimary s k).head? else none

/-- The address of word 1 of an entry line (R288). -/
def entryPc (e : Word) : Word := ((e.truncate 54 : BitVec 54).signExtend 64 &&& ~~~63#64) + 4

/-- A thread begins in a slot at an entry line, with g1 on loaded and every other register empty (R139, R140). A thread in
the scope of a stop begins stopped (R158). -/
def State.startThread (s : State) (id : SlotId) (t : Task) (entry : Word) (regs : List Word) (sup : Bool) : State :=
  let sl := (s.slotAt id).freed
  let sl := (regs.foldl (fun (x : Slot × Nat) v => (x.1.setG x.2 v, x.2 + 1)) (sl, 1)).1
  s.setSlot id { sl with
    st := .running, pc := entryPc entry, entry := true, sup := sup, task := { t with start := s.now },
    halted := stopped s t }

/-! ## SPAWN and SPAWNW (R139, R392) -/

/-- The answer to a SPAWN or SPAWNW request at its spawner: written to the result register. -/
def State.spawnAnswer (s : State) (r : SpawnReq) (v : Nat) : State :=
  let id : SlotId := ⟨s.forwarded (coreOf r.src), r.slot⟩
  let sl := s.slotAt id
  let s := s.setSlot id { sl with spawns := sl.spawns - 1 }
  if sl.task.launch = r.launch then s.unitResult id r.dst.toNat (w64 v) else s

/-- The answer goes back to the spawner (R139). -/
def State.spawnResult (s : State) (r : SpawnReq) (v : Nat) : State :=
  if modOf r.src != s.fabric.self then s.respond 6 r.src r.slot (coreOf r.target) (.spawnReply r v) else s.spawnAnswer r v

/-- The answer of another module has come. The spawner's module has held its count until then, as it does for a task that it
posts there; the target has raised its own for a thread that it placed (R128, R139, notes/assumptions/94). -/
def execSpawnReply (r : SpawnReq) (v : Nat) (s : State) : Res := .next ((s.spawnAnswer r v).lowerCount r.launch)

/-- The task of a spawned thread (R139, R392): no packet gave it a key, so ORIGIN and SEQ are a free value
(notes/assumptions/21). -/
def spawnTask (s : State) (k : Nat) (r : SpawnReq) : Task :=
  { Task.reset with
    regs := r.regs, launch := r.launch, job := r.job, dcore := gcid s k,
    pkt := ⟨Config.freeWord Config.useAbsent s.sched.free, 0,
      w64 (r.regs.toNat * 2 ^ 62 + r.entry.toNat % 2 ^ 54), w64 (r.launch * 2 ^ 48), 0, 0, 0, 0⟩, spawned := true }

/-- Places a spawned thread; one of another module is counted here too (R128). -/
def State.placeSpawn (s : State) (k n : Nat) (r : SpawnReq) : State :=
  let s := if modOf r.src = s.fabric.self then s else s.raiseCount r.launch 1
  (s.startThread ⟨k, n⟩ (spawnTask s k r) r.entry [r.g1, r.g2, r.g3, r.g4] false).spawnResult r 0

/-- Sends a spawn request to its target's module. -/
def State.sendSpawn (s : State) (id : SlotId) (r : SpawnReq) : State :=
  if modOf r.target = s.fabric.self then
    s.send (srcKey id.core id.slot) (2 ^ 25 + coreOf r.target) (.spawnRequestArrival r)
  else s.ask 6 (modOf r.target) 0 id.core id.slot (s.partOfTask (s.slotAt id).task) r.launch (.spawn r)

/-- The shared form of SPAWN and SPAWNW. -/
def spawnForm (d a b : Reg) (sa wait : Bool) (s : State) : Res :=
  issueAfter s [s.ordTrap 2] ⟨some (a.toNat, sa), none, some d.toNat, regRun b.toNat 4, [d.toNat]⟩
    (fun x =>
      if x.a.elim false (fun v => v.toNat % 64 != 0) then some s.badOperand
      else x.d.bind (fun v => let g := bits v.toNat 29 0
        if targetOk s (s.partOfTask s.me.task) g then none else some (s.badTarget g)))
    (fun v sl =>
      if (s.launchOf sl.task).isNone && modOf sl.task.dcore != s.fabric.self then
        .next (s.askHome ((sl.pendG d.toNat).advance s.sched.ir))
      else if 4 ≤ sl.spawns || (s.launchOf sl.task).elim false (fun l => 2 ^ 32 - 1 ≤ l.count) then .next s
      else
        let g (i : Nat) : Word := v.run.getD i 0
        let r : SpawnReq :=
          { src := gcid s s.here, slot := s.sched.cur.slot, dst := d, target := bits v.d.toNat 29 0,
            entry := w64 (v.a.toNat % 2 ^ 54), regs := sl.task.regs, g1 := g 0, g2 := g 1, g3 := g 2, g4 := g 3,
            launch := sl.task.launch, job := sl.task.job, wait := wait }
        let s := s.raiseCount sl.task.launch 1
        .next ((s.retire { sl.pendG d.toNat with spawns := sl.spawns + 1 }).sendSpawn s.sched.cur r))

/-- SPAWN (R139, R392). -/
def execSpawn (d a b : Reg) (sa : Bool) (s : State) : Res := spawnForm d a b sa false s

/-- SPAWNW (R139, R392). -/
def execSpawnw (d a b : Reg) (sa : Bool) (s : State) : Res := spawnForm d a b sa true s

/-- A spawn request is decided at its target (R139, R392): a free slot goes to waiting SPAWNW requests first. One for a core
whose work is moving waits for it (R155). -/
def execSpawnRequestArrival (r : SpawnReq) (s : State) : Res :=
  let s := s.arrive (.spawnRequestArrival r)
  let k := s.forwarded (coreOf r.target)
  let c := s.coreAt k
  if lmigHolds s k then .next (s.lmigHold (.spawnRequestArrival r))
  else match (if c.spawnws.isEmpty then placeSlot s k else none) with
  | some n => .next (s.placeSpawn k n r)
  | none =>
    if r.wait then
      if c.spawnws.length < 4 then .next (s.setCore k { c with spawnws := c.spawnws ++ [r] })
      else if modOf r.src = s.fabric.self then .next (s.after 3400 (.spawnwResend r))
      else .next (s.respond 6 r.src r.slot k (.spawnwResend r))
    else if modOf r.src = s.fabric.self then .next ((s.spawnResult r 1).lowerCount r.launch)
    else .next (s.spawnResult r 1)

/-- A refused SPAWNW request is sent again (R139). -/
def execSpawnwResend (r : SpawnReq) (s : State) : Res := .next (s.sendSpawn ⟨s.forwarded (coreOf r.src), r.slot⟩ r)

/-- Once every slot of a core that moves has been saved or has ended, its rows are streamed (R155 step 2). -/
def State.lmigCheck (s : State) (k : Nat) : State :=
  if s.work.lmigStatus = 1 && s.work.lmigFrom = k && !(s.coreAt k).slots.any (fun x => (x.2.st != .free && !x.2.guest) || x.2.reserved)
  then (s.setWork { s.work with lmigStatus := 2 }).after 1 .lmigStreamDone
  else s

/-- A freed primary slot goes to the oldest waiting SPAWNW request (R139, R392); the dispatcher comes after. -/
def execPrimarySlotFree (core : Nat) (s : State) : Res :=
  let s := s.lmigCheck core
  let c := s.coreAt core
  match c.spawnws, placeSlot s core with
  | r :: rest, some n => .next (((s.setCore core { c with spawnws := rest }).placeSpawn core n r).post (.primarySlotFree core))
  | _, _ => .next s

/-! ## Queues and overflow rings (R142, R447) -/

/-- The number of packets an overflow ring holds (R447). -/
def ringCap (s : State) (cl : Nat) : Nat :=
  let n := bits (mget s.work.qovf (cl / 128) 0).toNat 4 0
  if 6 ≤ n && n ≤ 16 then 2 ^ n else 0

/-- The physical address of place i of a cluster's ring (R447). -/
def ringAddr (s : State) (cl i : Nat) : Nat :=
  bits (mget s.work.qovf (cl / 128) 0).toNat 51 12 * 4096 + 64 * ringCap s cl * (cl % 128) + 64 * (i % ringCap s cl)

/-- The tasks of a cluster that are being pre-empted: each will take an entry of the queue (R154). -/
def savesDue (s : State) (cl : Nat) : Nat :=
  ((List.range 16).map (fun i => ((s.coreAt (clusterCore cl i)).slots.filter (fun x =>
    x.2.preempt && !lmigHolds s (clusterCore cl i))).length)).foldl (· + ·) 0

/-- Whether a cluster's queue has an entry for a packet: 1,024 with those that pre-empted tasks will take (R142, R154). -/
def queueOpen (s : State) (cl : Nat) : Bool := (s.cluster cl).queue.length + savesDue s cl < 1024

/-- Whether a cluster's queue and ring are full. -/
def queueFull (s : State) (cl : Nat) : Bool := !queueOpen s cl && ringCap s cl ≤ (s.cluster cl).ring.length

/-- A task enters the queue, or the ring while the queue is full or the ring holds earlier packets (R142). Its packet is
written to the ring's memory. -/
def State.enqueue (s : State) (cl : Nat) (t : QTask) : State :=
  let c := s.cluster cl
  if queueOpen s cl && c.ring.isEmpty then
    (s.setCluster cl { c with queue := c.queue ++ [t] }).post (.waitWordRead cl t.id)
  else
    let at_ := ringAddr s cl (c.ringHead + c.ring.length)
    let s := s.setCluster cl { c with ring := c.ring ++ [t] }
    s.setMem (s.mem.write 0 at_ (packetBytes t.pkt))

/-- A new queue entry for a packet. -/
def newQTask (s : State) (p : Words8) (handler : Bool) : QTask :=
  { id := s.work.nextTask, pkt := p, job := (s.launchAt (packetLaunch p)).elim 0 Launch.job, enq := s.now, st := .waitw,
    foot := none, bad := false, asked := [], sat := [], got := 0, cand := 0, handler := handler, task := none }

/-- A fresh task number. -/
def State.bumpTask (s : State) : State := s.setWork { s.work with nextTask := s.work.nextTask + 1 }

/-- The module from which a packet or message came: that of its ORIGIN. -/
def originMod (p : Words8) : Nat := modOf (bits p.w0.toNat 61 32)

/-- Whether a positive and an anti-message match (R176): ORIGIN, SEQ, TIME and LAUNCH are equal. -/
def matchesAnti (p q : Words8) : Bool := p.w0 == q.w0 && p.w1 == q.w1 && packetLaunch p == packetLaunch q

/-- LAUNCH is answered once its root task is enqueued (R397). -/
def State.rootEnqueued (s : State) (launch : Nat) : State :=
  match mget? s.work.rootWait launch with
  | none => s
  | some (id, d) =>
    let s := s.setWork { s.work with rootWait := mdel s.work.rootWait launch }
    s.unitResult id d (launchWord 0 0 launch)

/-- The acknowledgement of a task packet or message goes back to its sender (R128, R146). -/
def State.ackMsg (s : State) (mod : Nat) (id : SlotId) (launch : Nat) (task : Bool) : State :=
  if mod != s.fabric.self then s.respond 6 (mod * 65536 + id.core) id.slot unitRouter (.msgack id launch task)
  else if task then s
  else s.send (2 ^ 26 + id.core) (srcKey id.core id.slot) (.msgack id launch task)

/-- What follows when a task packet has been taken (R128, R179, R448): the counts, and the acknowledgement. -/
def State.tookTask (s : State) (cl : Nat) (src : SlotId) (colour : Bool) (p : Words8) : State :=
  let launch := packetLaunch p
  let s := if packetOrd p then s.countRecv (clusterCore cl 0) (s.partOf launch) colour else s
  let foreign := originMod p != s.fabric.self
  let s := if !packetOrd p && foreign && src != handlerPoster && (s.launchAt launch).elim false Launch.multi then
      s.setLaunch launch (fun l => l.countIn colour) else s
  let s := if src = rootPoster && !foreign then s.rootEnqueued launch else s
  s.ackMsg (originMod p) src launch true

/-- Whether an anti-message that waits outside a full queue is for a packet (R176). -/
def blockedAnti (p : Words8) (x : SlotId × Bool × Words8) : Bool := bit x.2.2.w2.toNat 57 && matchesAnti x.2.2 p

/-- A task packet enters its queue, meets its anti-message (R176), or is dropped with its launch, when that is cancelled or,
for a packet of another module, is none that both have (R128, R134). -/
def State.takeTask (s : State) (cl : Nat) (src : SlotId) (colour : Bool) (p : Words8) : State :=
  let launch := packetLaunch p
  let foreign := originMod p != s.fabric.self
  let s := if foreign && (s.launchAt launch).any Launch.multi then s.raiseCount launch 1 else s
  let c := s.cluster cl
  let isAnti (t : QTask) : Bool := t.st == .anti && matchesAnti t.pkt p
  if (s.launchAt launch).elim true (fun l => l.cancelled || (foreign && !l.multi)) then
    if foreign && !(s.launchAt launch).any Launch.multi then s.tookTask cl src colour p
    else (s.tookTask cl src colour p).lowerCount launch
  else if c.blocked.any (blockedAnti p) then
    let s := (c.blocked.find? (blockedAnti p)).elim s (fun x => s.countRecv (clusterCore cl 0) (s.partOf launch) x.2.1)
    let s := s.setCluster cl { s.cluster cl with blocked := c.blocked.eraseP (blockedAnti p) }
    ((s.tookTask cl src colour p).lowerCount launch).post (.overflowReturn cl)
  else if (c.queue ++ c.ring).any isAnti then
    let s := s.setCluster cl { c with queue := c.queue.eraseP isAnti,
                                      ring := if c.queue.any isAnti then c.ring else c.ring.eraseP isAnti }
    ((s.tookTask cl src colour p).lowerCount launch).post (.overflowReturn cl)
  else
    let t := newQTask s p (src == handlerPoster)
    (s.bumpTask.enqueue cl t).tookTask cl src colour p

/-- TASK_PACKET_ARRIVAL (R142, R156): the packet enters the queue or its ring; while both are full it stays in the
message class. -/
def execTaskPacketArrival (cluster : Nat) (src : SlotId) (colour : Bool) (pkt : Words8) (s : State) : Res :=
  let s := s.arrive (.taskPacketArrival cluster src colour pkt)
  let affc := clusterCore cluster (bits pkt.w3.toNat 35 32)
  let k := if bit pkt.w2.toNat 58 then s.forwarded affc else affc
  let cl := if k = affc then cluster else clusterOf k
  let pkt := if k = affc then pkt else { pkt with w3 := w64 (bits pkt.w3.toNat 63 36 * 2 ^ 36 + coreNum k * 2 ^ 32 + bits pkt.w3.toNat 31 0) }
  let c := s.cluster cl
  if bit pkt.w2.toNat 58 && lmigHolds s k then .next (s.lmigHold (.taskPacketArrival cluster src colour pkt))
  else if queueFull s cl || !c.blocked.isEmpty then .next (s.setCluster cl { c with blocked := c.blocked ++ [(src, colour, pkt)] })
  else .next (s.takeTask cl src colour pkt)

/-- The oldest packet held in the message class enters the queue or the ring, when there is room. -/
def State.admitBlocked (s : State) (cl : Nat) : State :=
  let c := s.cluster cl
  match c.blocked with
  | (src, colour, p) :: rest =>
    if queueFull s cl then s
    else if bit p.w2.toNat 57 then
      (s.setCluster cl { c with blocked := rest }).postFirst [.antiMessageArrival cl colour p, .overflowReturn cl]
    else ((s.setCluster cl { c with blocked := rest }).takeTask cl src colour p).post (.overflowReturn cl)
  | [] => s

/-- OVERFLOW_RETURN (R142): the oldest packet of the ring returns to the queue with its enqueue STAMP; a packet held in
the message class enters. -/
def execOverflowReturn (cluster : Nat) (s : State) : Res :=
  let c := s.cluster cluster
  match c.ring, queueOpen s cluster with
  | t :: rest, true =>
    let s := s.setCluster cluster { c with queue := c.queue ++ [t], ring := rest, ringHead := c.ringHead + 1 }
    .next ((s.post (.waitWordRead cluster t.id)).post (.overflowReturn cluster))
  | _, _ => .next (s.admitBlocked cluster)

/-- MSGACK (R128, R146): a posted task's acknowledgement lowers the poster's count, a message's the slot's. -/
def execMsgack (id : SlotId) (launch : Nat) (task : Bool) (s : State) : Res :=
  let s := s.arrive (.msgack id launch task)
  if task then
    let s := if id = rootPoster then s.rootEnqueued launch else s
    .next (s.lowerCount launch)
  else
    let id : SlotId := ⟨s.forwarded id.core, id.slot⟩
    .next (s.setSlot id { s.slotAt id with unackMsg := (s.slotAt id).unackMsg - 1 })

/-! ## POST (R393) -/

/-- The ordered-violation trap of a TIME not above the task's own (R164). -/
def timeTrap (s : State) (d : Reg) : Option Trap :=
  if !s.ordered then none
  else (s.peek s.me (some d.toNat)).bind (fun v => if v ≤ s.me.task.pkt.w1 then some (s.trapHere trapOrdered 4) else none)

/-- Sends a filled packet and takes the CHILD entry of an ordered task (R173, R393): it loses its turn while COUNT is
full, while a cluster of its own has no room, and while no log entry is free. -/
def postPacket (s : State) (sl : Slot) (p : Words8) (target : Nat) (time : Word) : Res :=
  let t := sl.task
  let k := coreOf t.dcore
  let seq := (s.coreAt k).post.toNat
  let pkt := fillPacket p t.dcore seq time t.launch t.ord (coreNum (coreOf target))
  let mine := modOf target == s.fabric.self && clusterOf (coreOf target) == clusterOf k
  if (s.launchAt t.launch).elim false (fun l => 2 ^ 32 - 1 ≤ l.count) || (mine && queueFull s (clusterOf k)) then .next s
  else
    let go (s : State) : Res :=
      let (_, s) := s.takeSeq k
      .next (((s.raiseCount t.launch 1).retire sl).sendTask k s.sched.cur target pkt)
    if !t.ord then go s
    else match s.orderedOf (s.partOf t.launch) with
      | none => go s
      | some o => match s.takeLog k o t.spec (.child pkt target) with
        | .ok s => go s
        | .wait s => .next s
        | .unlogged s => .next s

/-- The invalid-target trap of a target that is not a tile core of the partition (R13, R135). -/
def targetTrap (s : State) (v : Option Word) : Option Trap :=
  v.bind (fun v => let g := bits v.toNat 29 0
    if targetOk s (s.partOfTask s.me.task) g then none else some (s.badTarget g))

/-- POST (R393), on the dispatching core. -/
def execPost (o : OpsDAB) (s : State) : Res :=
  onHome s (issueAfter s [timeTrap s o.d]
    ⟨some (o.a.toNat, o.sa), some (o.b.toNat, o.sb), if s.ordered then some o.d.toNat else none, [], []⟩
    (fun x =>
      if s.me.task.nregs ≤ o.d.toNat then some s.badOperand
      else if x.a.elim false (fun v => decide (768 ≤ v.toNat)) then some s.badOperand
      else targetTrap s x.b)
    (fun v sl =>
      let r := v.a.toNat
      let tag := (s.coreAt s.here).row r
      if s.acqWait || !tag.full then .next s
      else if tag.poison then .next (s.raise s.sched.cur (s.rowPoison r))
      else match s.touchRows s.sched.cur [(r, false)] with
        | .ok s => postPacket s sl (packetOf (s.scrBytes s.here (64 * r) 64)) (bits v.b.toNat 29 0) (if s.ordered then v.d else 0)
        | .wait s => .next s
        | .unlogged s => .next s))

/-- SENDVT (R405), on the dispatching core. -/
def execSendvt (d a b : Reg) (sa : Bool) (s : State) : Res :=
  onHome s (issueAfter s [timeTrap s d]
    ⟨some (a.toNat, sa), none, if s.ordered then some d.toNat else none, regRun b.toNat 2, []⟩
    (fun x => if s.me.task.nregs ≤ d.toNat then some s.badOperand else targetTrap s x.a)
    (fun v sl =>
      if s.acqWait then .next s
      else
        let p := { sl.task.pkt with w6 := v.run.getD 0 0, w7 := v.run.getD 1 0 }
        postPacket s sl p (bits v.a.toNat 29 0) (if s.ordered then v.d else 0)))

/-! ## Readiness (R137, R140, R141) -/

/-- The fields of a TILE entry (R137): address, first row, rows, stride. -/
structure Tile where
  va : Word
  row : Nat
  n : Nat
  stride : Int
  deriving DecidableEq, Repr

/-- The TILE entries of a footprint. -/
def tilesOf (l : List (Word × Word)) : List Tile :=
  (l.filter (fun e => bits e.1.toNat 63 62 == 1)).map (fun e =>
    ⟨((e.1.truncate 54 : BitVec 54).signExtend 64), bits e.2.toNat 63 54, bits e.2.toNat 53 44,
     (e.2.extractLsb' 28 16).toInt⟩)

/-- The WAIT entries of a footprint, with their places in it. -/
def waitsOf (l : List (Word × Word)) : List (Nat × Word) :=
  ((List.range l.length).zip l).filterMap (fun x =>
    if bits x.2.1.toNat 63 62 = 2 then some (x.1, (x.2.1.truncate 54 : BitVec 54).signExtend 64) else none)

/-- The rows that TILE entries name. -/
def tileRows (ts : List Tile) : List Nat := ts.flatMap (fun t => (List.range t.n).map (fun i => t.row + i))

/-- Whether a list of rows names one twice. -/
def repeats : List Nat → Bool
  | [] => false
  | r :: l => l.contains r || repeats l

/-- Whether a footprint breaks R137. -/
def footBad (l : List (Word × Word)) (log : Nat → Bool) : Bool :=
  l.any (fun e =>
    let kind := bits e.1.toNat 63 62
    kind = 0 || kind = 3 || bits e.1.toNat 61 54 != 0 ||
    (if kind = 1 then e.1.toNat % 64 != 0 || bits e.2.toNat 53 44 = 0 ||
        768 < bits e.2.toNat 63 54 + bits e.2.toNat 53 44 || bits e.2.toNat 43 28 % 64 != 0 || bits e.2.toNat 27 0 != 0
     else e.1.toNat % 8 != 0 || e.2 != 0)) ||
  repeats (tileRows (tilesOf l)) || (tileRows (tilesOf l)).any log

/-- Whether a packet breaks R136 (R138). -/
def packetBad (p : Words8) : Bool :=
  bits p.w2.toNat 57 54 != 0 || p.w2.toNat % 64 != 0 || bits p.w3.toNat 47 36 != 0 || bits p.w3.toNat 31 16 != 0 ||
  bits p.w4.toNat 58 54 != 0 || 16 < bits p.w4.toNat 63 59 || (bits p.w4.toNat 63 59 != 0 && p.w4.toNat % 64 != 0) ||
  bits p.w5.toNat 63 54 != 0 || p.w5.toNat % 64 != 0

/-- The queued task with a number. -/
def Cluster.task? (c : Cluster) (id : Nat) : Option QTask := c.queue.find? (fun t => t.id == id)

/-- Replaces a queued task. -/
def State.setTask (s : State) (cl : Nat) (t : QTask) : State :=
  let c := s.cluster cl
  s.setCluster cl { c with queue := c.queue.map (fun x => if x.id = t.id then t else x) }

/-- Removes a queued task; an overflowed packet may return. -/
def State.dropTask (s : State) (cl id : Nat) : State :=
  let c := s.cluster cl
  (s.setCluster cl { c with queue := c.queue.filter (fun t => t.id != id) }).post (.overflowReturn cl)

/-- A fault of a cluster's dispatcher (R141): ENGINE 2, ACCESS 8. -/
def State.footFault (s : State) (cl : Nat) (t : QTask) (core slot cause level : Nat) (va : Word) : State :=
  (s.raiseFault
    { engine := 2, cause := cause, job := t.job, place := gcid s core, va := va, access := accFoot, size := 3,
      spec := packetOrd t.pkt, slot := slot, cmd := 0, level := level, token := 0 }
    (packetLaunch t.pkt) t.handler (.footprint cl t.id)).getD (s.after 16 (.waitWordRead cl t.id))

/-- Whether the dispatcher waits on a fault of a task. -/
def footWaits (s : State) (cl id : Nat) : Bool := s.mem.replay.any (fun r => r.what == .footprint cl id)

/-- The footprint entries of a list's bytes. -/
def footOf (l : List Byte) (n : Nat) : List (Word × Word) :=
  (List.range n).map (fun i => (wordAt l (2 * i), wordAt l (2 * i + 1)))

/-- The read of a WAIT word, the i-th entry of a task's footprint, by its cluster's dispatcher (R140, R262). -/
def waitAccess (s : State) (k : Nat) (t : QTask) (i : Nat) (va : Word) (pa : Nat) : Access :=
  { srcs := [], org := gcid s k * 16, va := va, pa := pa, pc := w64 t.id, job := t.job, launch := packetLaunch t.pkt,
    part := s.partOf (packetLaunch t.pkt), user := true, ord := packetOrd t.pkt, handler := t.handler, release := false,
    dst := i, how := .await }

/-- The reads of a task's WAIT words that have not been sent leave for their homes (R140 step 1), or one faults: DEV memory
raises PERM, and an untagged region UNTAGGED (R141). -/
def readWait (cl : Nat) (t : QTask) : List (Nat × Word) → State → State × QTask
  | [], s => (s, t)
  | (i, va) :: rest, s =>
    if t.asked.contains i then readWait cl t rest s
    else
      let k := clusterCore cl 0
      match translate s k t.job true va .read with
      | (.fault c lv, s) => (s.footFault cl t k 0 c lv va, t)
      | (.zpage pte, s) => (s.askPage pte t.job va (packetLaunch t.pkt) (.footprint cl t.id), t)
      | (.ok x, s) =>
        if x.ty = 2 then (s.footFault cl t k 0 causePerm 0 va, t)
        else if 4 ≤ region x.pa then (s.footFault cl t k 0 causeUntagged 0 va, t)
        else readWait cl { t with asked := t.asked ++ [i] } rest (s.unitSend x.dev (waitAccess s k t i va x.pa))

/-- WAIT_WORD_READ (R140 step 1): the footprint list is read once, then the WAIT words: each answers once it has been seen full. -/
def execWaitWordRead (cluster task : Nat) (s : State) : Res :=
  match (s.cluster cluster).task? task with
  | none => .next s
  | some t =>
    if t.st != .waitw || footWaits s cluster task then .next s
    else match t.foot with
      | none =>
        let n := bits t.pkt.w4.toNat 63 59
        if packetBad t.pkt then .next (s.setTask cluster { t with foot := some [], bad := true })
        else if n = 0 then .next (s.setTask cluster { t with foot := some [] })
        else
          let va : Word := (t.pkt.w4.truncate 54 : BitVec 54).signExtend 64
          match unitRead s (clusterCore cluster 0) t.job true va (16 * n) with
          | .ok l s => .next ((s.dropUnitLines.setTask cluster { t with foot := some (footOf l n) }).post (.waitWordRead cluster task))
          | .wait s => .next (s.after 16 (.waitWordRead cluster task))
          | .zpage pte a s => .next (s.askPage pte t.job a (packetLaunch t.pkt) (.footprint cluster task))
          | .fault c lv a s => .next (s.footFault cluster t (clusterCore cluster 0) 0 c lv a)
      | some l =>
        let (s, t) := readWait cluster t (waitsOf l) s
        .next (s.setTask cluster t)

/-! ## Dispatch (R144) -/

/-- The ageing step in cycles (R143, R144). -/
def ageCycles (s : State) : Nat := (if s.work.age = 0 then 1 else s.work.age) * 1700

/-- A task's effective priority (R144). -/
def effPrio (s : State) (t : QTask) : Nat := min (bits t.pkt.w2.toNat 61 60 + (s.now - t.enq) / ageCycles s) 3

/-- The rows that a queued task needs on a core. -/
def needRows (t : QTask) : List Nat :=
  match t.task with
  | some k => k.pins
  | none => tileRows (tilesOf (t.foot.getD []))

/-- The table image that a queued task needs. -/
def needTable (t : QTask) : Word :=
  match t.task with
  | some k => k.tfmt
  | none => (t.pkt.w5.truncate 54 : BitVec 54).signExtend 64

/-- Whether a row is reserved on a core for a task that has been chosen. -/
def rowReserved (c : Core) (r : Nat) : Bool := c.slots.any (fun x => x.2.reserved && x.2.task.pins.contains r)

/-- Whether a row lies in a log region on the cores of a partition. -/
def logRow (s : State) (part r : Nat) : Bool := (s.orderedOf part).elim false (fun o => inLog o r)

/-- The table-cache entry that would serve a task: one that holds its image, else the lowest unused (R144). -/
def tableSlot (c : Core) (job : Nat) (va : Word) : Option Nat :=
  match (List.range 4).find? (fun i => (mget? c.tables i).elim false (fun e => e.va == va && e.job == job)) with
  | some i => some i
  | none => (List.range 4).find? (fun i => (mget? c.tables i).elim true (fun e => e.users == 0))

/-- Whether a core fits a task (R144). -/
def fits (s : State) (k : Nat) (t : QTask) : Bool :=
  let c := s.coreAt k
  let part := s.partOf (packetLaunch t.pkt)
  !(freePrimary s k).isEmpty && decide (occupied s k < s.work.cap) && c.spawnws.isEmpty &&
  (needRows t).all (fun r => !(c.row r).pin && !rowReserved c r && !logRow s part r) &&
  (needTable t == 0 || (tableSlot c t.job (needTable t)).isSome) &&
  (!packetOrd t.pkt || t.task.isSome || decide (c.spec.length < 48))

/-- choose_core (R144); a saved task resumes only on its own core (R154). -/
def chooseCore (s : State) (cl : Nat) (t : QTask) : Option Nat :=
  match t.st with
  | .saved k _ => if fits s k t then some k else none
  | _ =>
    let pref := clusterCore cl (bits t.pkt.w3.toNat 35 32)
    if bit t.pkt.w2.toNat 58 && fits s pref t then some pref
    else ((List.range 16).foldl (fun (best : Option (Nat × Nat)) i =>
      let k := clusterCore cl i
      let n := (freePrimary s k).length
      if !fits s k t then best
      else match best with
        | none => some (k, n)
        | some (b, m) => if m < n then some (k, n) else some (b, m)) none).map (·.1)

/-- The lowest key among a queue's ordered tasks that wait for dispatch (R167). -/
def lowestKey (c : Cluster) : Nat :=
  (c.queue.filter (fun t => packetOrd t.pkt && t.st == .waitw)).foldl (fun m t => min m (keyOfPacket t.pkt)) (2 ^ 128)

/-- Whether an ordered task is held back (R167, R180): it has not the lowest key of its queue, it lies beyond the
optimism window, or no levee has been published at the cluster. -/
def throttled (s : State) (cl : Nat) (t : QTask) : Bool :=
  if !packetOrd t.pkt || t.task.isSome then false
  else match s.orderedOf (s.partOf (packetLaunch t.pkt)), (s.coreAt (clusterCore cl 0)).levee with
    | some o, some lv => keyOfPacket t.pkt != lowestKey (s.cluster cl) || lv / 2 ^ 64 + o.optwin < t.pkt.w1.toNat
    | _, _ => true

/-- Whether a queued task is a candidate for dispatch. -/
def candidate (s : State) (cl : Nat) (t : QTask) : Bool :=
  (match t.st with
   | .waitw => t.foot.elim false (fun l => t.sat.length == (waitsOf l).length)
   | .saved _ _ => true
   | _ => false) &&
  !footWaits s cl t.id &&
  !(s.work.stops.any (fun g => s.partOf (packetLaunch t.pkt) == g.part && (g.launch.isNone || g.launch == some (packetLaunch t.pkt))))

/-- Inserts a task by effective priority descending, then enqueue STAMP ascending. -/
def insTask (s : State) (t : QTask) : List QTask → List QTask
  | [] => [t]
  | x :: l => if effPrio s x < effPrio s t || (effPrio s x = effPrio s t && t.enq < x.enq) then t :: x :: l else x :: insTask s t l

/-- The candidates in the order of R144. -/
def candidates (s : State) (cl : Nat) : List QTask :=
  ((s.cluster cl).queue.filter (candidate s cl)).foldl (fun l t => insTask s t l) []

/-- A task whose footprint or packet is invalid, or whose fetch is aborted, is not started; its launch fails
(R137, R141, R449). -/
def State.failTask (s : State) (cl : Nat) (t : QTask) : State :=
  let s := (s.releaseQueued t).dropTask cl t.id
  let s := s.setLaunch (packetLaunch t.pkt) (fun l => { l with fail := true })
  s.lowerCount (packetLaunch t.pkt)

/-- The task of a packet on a core (R136). -/
def taskOf (s : State) (k : Nat) (t : QTask) (tfi spec : Nat) (sgen : BitVec 8) : Task :=
  let p := t.pkt
  { Task.reset with
    regs := BitVec.ofNat 2 (bits p.w2.toNat 63 62), prio := BitVec.ofNat 2 (bits p.w2.toNat 61 60), ord := packetOrd p,
    handler := t.handler, launch := packetLaunch p, job := t.job, dcore := gcid s k, pkt := p, tfmt := needTable t,
    tfi := tfi, tscl := BitVec.ofNat 16 p.w3.toNat, pins := needRows t, spec := spec, sgen := sgen, enq := t.enq }

/-- CHOSEN (R140 step 2): the slot, the rows and the table-cache entry are reserved, a speculation entry is taken, and
the fetch begins. -/
def State.beginChosen (s : State) (cl : Nat) (t : QTask) (k : Nat) : State :=
  match (freePrimary s k).head? with
  | none => s
  | some n =>
    let c := s.coreAt k
    let tva := needTable t
    let tfi := if tva = 0 then 0 else (tableSlot c t.job tva).getD 0
    let c := if tva = 0 then c else
      match mget? c.tables tfi with
      | some e => if e.va = tva && e.job = t.job then { c with tables := mput c.tables tfi { e with users := e.users + 1 } }
        else { c with tables := mput c.tables tfi ⟨t.job, tva, 1, []⟩ }
      | none => { c with tables := mput c.tables tfi ⟨t.job, tva, 1, []⟩ }
    let task := match t.task with
      | some x => { x with tfi := tfi }
      | none =>
        let spec := if packetOrd t.pkt then (freeKey c.spec 0 48).getD 0 else 0
        taskOf s k t tfi spec (if packetOrd t.pkt then mget c.gens spec 0 + 1 else 0)
    let c := if task.ord && t.task.isNone then
        { c with
          gens := mput c.gens task.spec task.sgen,
          spec := mput c.spec task.spec
            { pkt := t.pkt, key := keyOfPacket t.pkt, rset := 0, wset := 0, st := .running, slot := n, enq := t.enq,
              annihilated := false } }
      else c
    let s := s.setCore k c
    let s := s.setSlot ⟨k, n⟩ { (s.slotAt ⟨k, n⟩).freed with reserved := true, task := task }
    let st := match t.st with
      | .saved _ b => TaskSt.resume k n b
      | _ => TaskSt.fetch k n
    ((s.setTask cl { t with st := st, got := 0 }).acquireLines k 5).post (.footprintFetchDone ⟨k, n⟩)

/-! ## Pre-emption (R151, R235) -/

/-- What the search for a free block of a SAVE area comes to. -/
inductive BlockRes
  | found (block : Word)
  | none
  | wait
  deriving DecidableEq, Repr

/-- Whether the pages from an address on can be written without a fault: the page at each 4 KiB, n of them, the last at the
range's end. A compressed page is asked for and waited for (R122). -/
def pagesOk (job launch : Nat) (what : Waiting) (last : Word) : Nat → Word → State → BlockRes × State
  | 0, _, s => (.found 0, s)
  | n + 1, va, s =>
    match translate s unitLaunch job false (if n = 0 then last else va) .both with
    | (.ok x, s) =>
      if x.ty = 2 || (x.dev == s.fabric.self && !paOk s x.pa) then (.none, s)
      else pagesOk job launch what last n (va + 4096) s
    | (.zpage pte, s) => (.wait, s.askPage pte job va launch what)
    | _ => (.none, s)

/-- The lowest-numbered free block of a SAVE area (R235, R236), from block i on. -/
def findBlock (job launch : Nat) (save : Word) (what : Waiting) : Nat → Nat → State → BlockRes × State
  | 0, _, s => (.none, s)
  | n + 1, i, s =>
    let va := sext54 save + w64 (49856 * i)
    match unitRead s unitLaunch job false (va + 88) 8 with
    | .wait s => (.wait, s)
    | .zpage pte a s => (.wait, s.askPage pte job a launch what)
    | .fault _ _ _ s => findBlock job launch save what n (i + 1) s
    | .ok b s =>
      if bit (bytesNat b) 63 then findBlock job launch save what n (i + 1) s
      else match pagesOk job launch what (va + 49855) 14 va s with
        | (.none, s) => findBlock job launch save what n (i + 1) s
        | (.wait, s) => (.wait, s)
        | (.found _, s) => (.found va, s)

/-- The free block that a launch's next save takes; SAVE 0 names no area (R235). -/
def saveBlock (s : State) (launch : Nat) (what : Waiting) : BlockRes × State :=
  match s.launchAt launch with
  | .none => (.none, s)
  | some l => if l.save = 0 then (.none, s) else
      match findBlock l.job launch l.save what 256 0 s with
      | (.wait, s) => (.wait, s)
      | (r, s) => (r, s.dropUnitLines)

/-- Whether a pre-emption of a core is in progress (R151): of a slot, or of a task of it that is away (R153). -/
def preempting (c : Core) : Bool := c.slots.any (fun x => x.2.preempt) || c.away.any Task.pre

/-- Whether a slot may be a victim for a task of effective priority p (R151, R235, R414). -/
def victimOk (s : State) (k n : Nat) (sl : Slot) (p : Nat) (t : QTask) : Bool :=
  let c := s.coreAt k
  sl.st != .free && !sl.guest && !sl.task.spawned && !sl.intrap && n < 16 - c.guestSlots && !lmigHolds s k &&
  decide (sl.task.prio.toNat < p) && !preempting c && !(sl.task.ord && s.isSafe sl.task) &&
  (s.launchAt sl.task.launch).elim false (fun l => l.save != 0) &&
  (needRows t).all (fun r => (!(c.row r).pin || sl.task.pins.contains r) && !rowReserved c r &&
    !logRow s (s.partOf (packetLaunch t.pkt)) r) &&
  (needTable t == 0 || (tableSlot c t.job (needTable t)).isSome || (sl.task.tfmt != 0 &&
    (mget? c.tables sl.task.tfi).elim false (fun e => e.users == 1))) &&
  (!packetOrd t.pkt || decide (c.spec.length < 48))

/-- Whether a slot is parked on a waiter list or a fault. -/
def parkedHard (sl : Slot) : Bool :=
  match sl.st with
  | .waiting => true
  | .fault _ => true
  | _ => false

/-- Whether victim a is taken before victim b (R151): unparked first, then the lowest priority, the latest start, the
lowest core. -/
def victimBefore (a b : Nat × Nat × Slot) : Bool :=
  let (ka, _, x) := a
  let (kb, _, y) := b
  if parkedHard x != parkedHard y then parkedHard y
  else if x.task.prio != y.task.prio then decide (x.task.prio < y.task.prio)
  else if x.task.start != y.task.start then decide (y.task.start < x.task.start) else decide (ka < kb)

/-- Puts a victim in its place (R151). -/
def insVictim (v : Nat × Nat × Slot) : List (Nat × Nat × Slot) → List (Nat × Nat × Slot)
  | [] => [v]
  | x :: l => if victimBefore v x then v :: x :: l else x :: insVictim v l

/-- The victims that a waiting task may have, best first (R151). -/
def victimsFor (s : State) (cl : Nat) (t : QTask) : List (Nat × Nat × Slot) :=
  let ks := match t.st with
    | .saved k _ => [k]
    | _ => (List.range 16).map (clusterCore cl)
  (ks.flatMap (fun k => (s.coreAt k).slots.filterMap (fun x =>
    if victimOk s k x.1 x.2 (effPrio s t) t then some (k, x.1, x.2) else none))).foldl (fun l v => insVictim v l) []

/-- The first victim whose launch has a free block (R151, R235) is pre-empted. -/
def State.takeVictim (cl : Nat) (t : QTask) : List (Nat × Nat × Slot) → State → State
  | [], s => s
  | (k, n, sl) :: rest, s =>
    match saveBlock s sl.task.launch (.footprint cl t.id) with
    | (.none, s) => State.takeVictim cl t rest s
    | (.wait, s) => s
    | (.found _, s) =>
      let c := s.cluster cl
      (s.setCluster cl { c with preempt := c.preempt ++ [(t.id, k, n)] }).setSlot ⟨k, n⟩ { s.slotAt ⟨k, n⟩ with preempt := true }

/-- Whether the pre-emption that a task asked for is still in progress: its victim may have ended first. -/
def preemptLive (s : State) (p : Nat × Nat × Nat) : Bool :=
  (s.slotAt ⟨p.2.1, p.2.2⟩).preempt || (s.coreAt p.2.1).away.any Task.pre

/-- A candidate that fits no core asks for a pre-emption after PREDLY (R151). -/
def State.notFitting (s : State) (cl : Nat) (t : QTask) : State :=
  if t.cand = 0 then s.setTask cl { t with cand := s.now + 1 }
  else if s.work.predly = 0 || s.now + 1 - t.cand < s.work.predly * 1700 then s
  else
    let live := (s.cluster cl).preempt.filter (preemptLive s)
    let s := s.setCluster cl { s.cluster cl with preempt := live }
    if live.any (fun p => p.1 == t.id) || !queueOpen s cl then s else State.takeVictim cl t (victimsFor s cl t) s

/-- The loop of dispatch_step (R144). -/
def dispatchLoop (cl : Nat) : List QTask → State → State
  | [], s => s
  | t :: rest, s =>
    let part := s.partOf (packetLaunch t.pkt)
    let log (r : Nat) : Bool := packetOrd t.pkt && logRow s part r
    if throttled s cl t then dispatchLoop cl rest s
    else if t.task.isNone && (t.bad || footBad (t.foot.getD []) log) then s.failTask cl t
    else match chooseCore s cl t with
      | some k => s.beginChosen cl t k
      | none =>
        let s := s.notFitting cl t
        if effPrio s t = 3 && 4 * ageCycles s ≤ s.now - t.enq then s else dispatchLoop cl rest s

/-- DISPATCH_STEP (R144). -/
def execDispatchStep (cluster : Nat) (s : State) : Res := .next (dispatchLoop cluster (candidates s cluster) s)

end Sys2Proof.Machine
end

