-- ==== Sys2Proof/Machine/Saves.lean ====
section
/-! DEFINITION. Footprint fetch and start, saved contexts, pre-emption's saves, live migration
(spec 06 R140, R141, R151 to R156, 09 R235 to R237). -/

namespace Sys2Proof.Machine

open Sys2Proof

/-! ## Footprint fetch (R140 step 3) -/

/-- The queued task for which a slot is reserved. -/
def chosenFor (s : State) (id : SlotId) : Option QTask :=
  (s.cluster (clusterOf id.core)).queue.find? (fun t => match t.st with
    | .fetch k n => k == id.core && n == id.slot
    | .resume k n _ => k == id.core && n == id.slot
    | _ => false)

/-- The rows of a footprint in order: the row, and the source line when there is one. -/
def tileSteps (ts : List Tile) : List (Nat × Option Word) :=
  ts.flatMap (fun t => (List.range t.n).map (fun (i : Nat) =>
    (t.row + i, if t.va = 0 then none else some (t.va + BitVec.ofInt 64 ((i : Int) * t.stride)))))

/-- A stream that stands for a footprint fetch of the cluster copy engine (R140): no access of the task, so that the rules of
ordered tasks do not meet it. -/
def footStream (id : SlotId) (t : Task) : CpStream :=
  { core := id.core, slot := id.slot, job := t.job, launch := t.launch, ord := false, spec := t.spec,
    handler := t.handler, line := 0, cmd := 0, first := false, idx := 0, begun := false, seg := 0, owned := 0,
    row := 0, tag := 0, psn := false, fault := none, outstanding := 0, waitFor := none, user := true, ww := false,
    stop := false, fin := none }

/-- Pins a row; its tag is set as given. -/
def State.pinRow (s : State) (k r : Nat) (full : Bool) : State :=
  let c := s.coreAt k
  s.setCore k (c.setRow r { c.row r with pin := true, full := full })

/-- Loads a table image into a table-cache entry (R140, R255): the bytes, when they can be read. -/
def State.loadTable (s : State) (k e : Nat) (l : List Byte) : State :=
  let c := s.coreAt k
  match mget? c.tables e with
  | none => s
  | some x => s.setCore k { c with tables := mput c.tables e { x with data := l } }

/-- RUN (R140 step 4): the slot starts at ENTRY with g1 and g2 loaded. On a core that is being moved it is pre-empted too
(R155). -/
def State.runTask (s : State) (cl : Nat) (id : SlotId) (t : QTask) : State :=
  let task := (s.slotAt id).task
  let s := s.dropTask cl t.id
  let c := s.coreAt id.core
  let s := s.setCore id.core { c with recvN := c.recvN + 1 }
  let s := s.startThread id task (w64 (t.pkt.w2.toNat % 2 ^ 54)) [t.pkt.w6, t.pkt.w7] t.handler
  if lmigHolds s id.core then s.setSlot id { s.slotAt id with preempt := true } else s

/-- What loading the table image of a chosen task comes to: it is there, it is loaded, it is bad, or it waits. -/
inductive TableRes
  | ok (s : State)
  | bad (s : State)
  | wait (s : State)

/-- The table image of a chosen task (R140, R255). -/
def chosenTable (s : State) (cl : Nat) (id : SlotId) (t : QTask) : TableRes :=
  let task := (s.slotAt id).task
  if task.tfmt = 0 then .ok s
  else match mget? (s.coreAt id.core).tables task.tfi with
    | none => .ok s
    | some e =>
      if !e.data.isEmpty then .ok s
      else match unitRead s id.core t.job true task.tfmt 1344 with
        | .ok l s => if tblValid l then .ok (s.dropUnitLines.loadTable id.core task.tfi l) else .bad s
        | .wait s => .wait (s.after 16 (.footprintFetchDone id))
        | .zpage pte a s => .wait (s.askPage pte t.job a (packetLaunch t.pkt) (.footprint cl t.id))
        | .fault c lv a s => .wait (s.footFault cl t id.core id.slot c lv a)

/-- Enters the TILE rows of an ordered task into its write set and logs their images (R168). -/
def enterTiles (s : State) (task : Task) (rows : List Nat) (k : Nat) : LogRes :=
  match rows with
  | [] => .ok s
  | r :: rest =>
    if !task.ord then .ok s
    else match s.touchRow k task.spec r (s.partOf task.launch) true with
      | .ok s => enterTiles s task rest k
      | .unlogged s => enterTiles s task rest k
      | .wait s => .wait s

/-- Fetches the rows of a footprint that remain, in order. The Bool says that all are there. -/
def fetchRows (cl : Nat) (id : SlotId) (t : QTask) : List (Nat × Option Word) → State → State × Bool
  | [], s => (s, true)
  | (r, none) :: rest, s =>
    let t := { t with got := t.got + 1 }
    fetchRows cl id t rest ((s.pinRow id.core r false).setTask cl t)
  | (r, some va) :: rest, s =>
    match cpReadLine s cl (footStream id (s.slotAt id).task) va false with
    | .got l psn s =>
      let t := { t with got := t.got + 1 }
      fetchRows cl id t rest (((s.putRow id.core r l psn).pinRow id.core r true).setTask cl t)
    | .wait s => (s.after 16 (.footprintFetchDone id), false)
    | .fault c lv => (s.footFault cl t id.core id.slot c lv va, false)
    | .type => (s.footFault cl t id.core id.slot causeTypemis 0 va, false)
    | .order _ => (s, false)

/-! ## Saved contexts (R236, R237) -/

/-- Writes bytes of a slot's saved context at a virtual address, line by line (R152, R236): where the line lies in memory of
this module that nothing holds, at once, and else as posted writes that the slot counts until they are acknowledged. -/
def State.putSave (id : SlotId) (t : Task) : Nat → Word → List Byte → State → State
  | 0, _, _, s => s
  | fuel + 1, va, l, s =>
    if l.isEmpty then s
    else match translate s unitLaunch t.job false va .both with
      | (.ok x, s) =>
        let n := 64 - x.pa % 64
        let s := if saveNear s x then s.setMem ((s.heat x.pa).mem.write (s.accKey t.job va) x.pa (l.take n))
          else (s.setSlot id { s.slotAt id with posted := (s.slotAt id).posted + 1 }).unitSend x.dev
            (saveAccess s t [⟨gcid s id.core, id.slot, 1⟩] va x.pa (.line (some (l.take n))))
        State.putSave id t fuel (va + w64 n) (l.drop n) s
      | (_, s) => s

/-- The words of a saved context before its rows (R236), with V clear. -/
def contextBytes (s : State) (id : SlotId) (sl : Slot) : List Byte :=
  let t := sl.task
  let m := migrantOf s id { sl with p := [], plost := 0 } sl.pc 0 none
  let c := s.coreAt id.core
  let map (f : Nat → Bool) : Nat := (List.range 768).foldl (fun n r => if f r then n + 2 ^ r else n) 0
  let w (x : Word) : List Byte := natBytes 8 x.toNat
  w m.h0 ++ w m.h1 ++ w (m.t0 &&& ~~~(w64 (15 * 2 ^ 28))) ++ w m.t1 ++
  (List.range 4).flatMap (fun i => w (mget sl.p i 0)) ++
  w (w64 (t.tfmt.toNat % 2 ^ 54)) ++ w t.pkt.w0 ++ w t.pkt.w1 ++ w (w64 t.pins.length) ++ List.replicate 32 0 ++
  (List.range 32).flatMap (fun i => w (if i < t.nregs && (sl.cell i).full then sl.g i else 0)) ++
  natBytes 96 (map t.pins.contains) ++ natBytes 96 (map (fun r => t.pins.contains r && (c.row r).full)) ++
  natBytes 96 (map (fun r => t.pins.contains r && (c.row r).poison)) ++ List.replicate 32 0

/-- The pinned rows of a task in ascending order. -/
def pinnedRows (t : Task) : List Nat := (List.range 768).filter t.pins.contains

/-- Whether a slot's save belongs to a live migration (R155). -/
def lmigSave (s : State) (id : SlotId) : Bool := s.work.lmigStatus == 1 && id.core == s.work.lmigFrom

/-- SAVE (R152, R235): once no register write is pending and the posted count is zero, the context and the pinned rows
are written to the lowest free block of the SAVE area; a save for a live migration is streamed instead (R155). While the
area has no free block, another save has taken the last, the slot waits. -/
def execSave (id : SlotId) (s : State) : Res :=
  let sl := s.slotAt id
  let t := sl.task
  if sl.st != .saving none || sl.anyPend || !sl.late.isEmpty || sl.outst != 0 || sl.posted != 0 then .next s
  else
    let sl := sl.expireAll
    if lmigSave s id then .next ((s.setSlot id { sl with st := .saving (some (0, true)) }).after 3400 (.saveComplete id))
    else match saveBlock s t.launch (.thread id) with
      | (.found va, s) =>
        let rows := (pinnedRows t).flatMap (fun r => s.scrBytes id.core (64 * r) 64)
        let s := s.setSlot id { sl with st := .saving (some (va, false)) }
        let body := contextBytes s id sl ++ rows
        .next ((s.putSave id t 900 va body).after 3400 (.saveComplete id))
      | (_, s) => .next s

/-- The queue entry of a task that has been saved to a block (R154). -/
def savedTask (s : State) (id : SlotId) (t : Task) (block : Word) : QTask :=
  { id := s.work.nextTask, pkt := t.pkt, job := t.job, enq := t.enq, st := .saved id.core block, foot := some [], bad := false,
    asked := [], sat := [], got := 0, cand := 0, handler := t.handler, task := some { t with pre := false } }

/-- A slot's context has moved into its saved task's block: the task re-enters the queue, and the slot, its rows and its table
entry are free (R152 to R154). -/
def State.endSave (s : State) (id : SlotId) (block : Word) : State :=
  let t := (s.slotAt id).task
  let cl := clusterOf id.core
  let c := s.cluster cl
  let s := s.setCluster cl { c with
    queue := c.queue ++ [savedTask s id t block],
    preempt := c.preempt.filter (fun p => !(p.2.1 == id.core && p.2.2 == id.slot)) }
  let s := s.bumpTask
  ((((s.unpin id.core t.pins).dropTable id.core t).freeSlot id).post (.dispatchStep cl)).post (.overflowReturn cl)

/-- A slot of a core that moves has been saved; once all have, its rows are streamed (R155). -/
def State.lmigSlotDone (s : State) (id : SlotId) : State :=
  let s := s.setWork { s.work with lmigSaved := s.work.lmigSaved ++ [(id.slot, s.slotAt id)] }
  (s.setSlot id (s.slotAt id).freed).lmigCheck id.core

/-- SAVE_COMPLETE (R153): V is written last, once every other write of the context stands; then the waiting task may be chosen
at once. A save that has begun is not abandoned, so a task cancelled or rolled back meanwhile ends here (R152, R134, R237). -/
def execSaveComplete (id : SlotId) (s : State) : Res :=
  let sl := s.slotAt id
  match sl.st with
  | .saving (some (block, v)) =>
    if sl.doomed || (s.launchOf sl.task).any Launch.cancelled then
      let s := if block = 0 || !v then s else s.freeBlock sl.task block
      .next (if sl.doomed then s.dropThread id else s.killTask id)
    else if block = 0 then .next (s.lmigSlotDone id)
    else if sl.posted != 0 then .next (s.after 16 (.saveComplete id))
    else if v then .next (s.endSave id block)
    else
      let s := s.setSlot id { sl with st := .saving (some (block, true)) }
      let s := s.putSave id sl.task 2 (block + 88) (natBytes 8 (2 ^ 63 + sl.task.pins.length))
      .next (if (s.slotAt id).posted != 0 then s.after 16 (.saveComplete id) else s.endSave id block)
  | _ => .next s

/-- Restores a saved task from the bytes of its block, which is then free (R237). -/
def restoreTask (s : State) (id : SlotId) (x : Task) (l : List Byte) (block : Word) : State :=
  let w (i : Nat) : Word := wordAt l i
  let k := id.core
  let map (i : Nat) : Nat := bytesNat ((l.drop (8 * i)).take 96)
  let rows := (List.range 768).filter (fun r => bit (map 48) r)
  let s := ((List.range rows.length).zip rows).foldl (fun s y =>
    let s := s.scrPut k (64 * y.2) ((l.drop (704 + 64 * y.1)).take 64)
    let c := s.coreAt k
    s.setCore k (c.setRow y.2 ⟨bit (map 60) y.2, true, bit (map 72) y.2⟩)) s
  let sl := (s.slotAt id).freed
  let sl := (List.range 32).foldl (fun (a : Slot) i =>
    if i < x.nregs && bit (w 2).toNat (32 + i) then a.setG i (w (16 + i)) else a) sl
  let sl := { sl with
    st := .running, pc := (((w 0).truncate 54 : BitVec 54).signExtend 64), sup := bit (w 0).toNat 61,
    preempt := lmigHolds s id.core,
    p := (List.range 4).foldl (fun m i => mput m i (w (4 + i))) [], task := x, halted := stopped s x }
  (s.setSlot id sl).freeBlock x block

/-- The resume of a saved task once its slot is reserved (R237, R187). -/
def resumeStep (s : State) (cl : Nat) (id : SlotId) (t : QTask) (block : Word) : State :=
  let x := (s.slotAt id).task
  if x.ord && mget (s.coreAt id.core).gens x.spec 0 != x.sgen then
    ((((s.unpin id.core x.pins).dropTable id.core x).freeSlot id).freeBlock x block).dropTask cl t.id
  else match chosenTable s cl id t with
    | .wait s => s
    | .bad s => s.failTask cl t
    | .ok s =>
      match unitRead s unitLaunch t.job false block (704 + 64 * x.pins.length) with
      | .ok l s => (restoreTask s.dropUnitLines id x l block).dropTask cl t.id
      | .wait s => s.after 16 (.footprintFetchDone id)
      | .zpage pte a s => s.askPage pte t.job a (packetLaunch t.pkt) (.footprint cl t.id)
      | .fault c lv a s => s.footFault cl t id.core id.slot c lv a

/-- FOOTPRINT_FETCH_DONE (R140): the rows that remain are fetched and pinned, the table image is loaded, and the task
starts; an invalid image is an invalid footprint (R255). The event comes again while something is missing. -/
def execFootprintFetchDone (id : SlotId) (s : State) : Res :=
  let cl := clusterOf id.core
  match chosenFor s id with
  | none => .next s
  | some t =>
    if footWaits s cl t.id then .next s
    else match t.st with
      | .resume _ _ block => .next (resumeStep s cl id t block)
      | _ =>
        let task := (s.slotAt id).task
        let steps := tileSteps (tilesOf (t.foot.getD []))
        match enterTiles s task (if t.got = 0 then steps.map (·.1) else []) id.core with
        | .wait s => .next (s.after 16 (.footprintFetchDone id))
        | .unlogged s => .next (s.after 16 (.footprintFetchDone id))
        | .ok s =>
          match fetchRows cl id t (steps.drop t.got) s with
          | (s, false) => .next s
          | (s, true) =>
            match chosenTable s cl id t with
            | .wait s => .next s
            | .bad s => .next (s.failTask cl t)
            | .ok s => .next (s.runTask cl id t)

/-! ## Live migration (R155, R156) -/

/-- The refusals of a GO (R155). -/
def lmigRefused (s : State) (src dst : Nat) : Bool :=
  let d := s.coreAt dst
  let named (k : Nat) : Bool := s.work.lmigFwd.any (fun e =>
    bit e.2.toNat 0 && (bits e.2.toNat 63 48 == k || bits e.2.toNat 47 32 == k))
  let part := partOfCore s src
  !isTile s.part src || !isTile s.part dst || src == dst || part.isNone || part != partOfCore s dst ||
  d.slots.any (fun x => x.2.st != .free || x.2.reserved) || d.rows.any (fun r => r.2.pin) || !d.spawnws.isEmpty ||
  (s.cluster (clusterOf dst)).queue.any (fun t => match t.st with
    | .saved k _ => k == dst
    | .resume k _ _ => k == dst
    | .fetch k _ => k == dst
    | _ => false) ||
  d.tables.any (fun e => e.2.users != 0) || named src || named dst ||
  64 ≤ (s.work.lmigFwd.filter (fun e => bit e.2.toNat 0)).length

/-- LMIG_GO (R155): a write to LMIG_CTL. GO is ignored unless STATUS is 0, 3 or 4. -/
def execLmigGo (v : Word) (s : State) : Res :=
  let src := bits v.toNat 63 48
  let dst := bits v.toNat 47 32
  let s := s.setWork { s.work with lmigSrc := src, lmigDst := dst }
  if s.work.lmigStatus = 1 || s.work.lmigStatus = 2 || !bit v.toNat 0 then .next s
  else if lmigRefused s src dst then .next (s.setWork { s.work with lmigStatus := 4 })
  else
    let s := s.setWork { s.work with lmigFrom := src, lmigTo := dst, lmigStatus := 1, lmigQueue := [], lmigSaved := [] }
    let c := s.coreAt src
    let s := s.setCore src { c with slots := c.slots.map (fun (x : Nat × Slot) =>
      if x.2.st != .free && !x.2.guest then (x.1, { x.2 with preempt := true }) else x) }
    .next (s.lmigCheck src)

/-- The lowest free forwarding entry. -/
def freeFwd (s : State) : Nat :=
  ((List.range 64).find? (fun i => !bit (mget s.work.lmigFwd i 0).toNat 0)).getD 0

/-- Whether a physical address lies in a core's scratchpad. -/
def inScratch (k pa : Nat) : Bool := region pa == 3 && bits pa 31 16 == k

/-- The lines of a core's scratchpad that copy engines own, with their clusters, and those that peers hold: they are recalled
before the core moves (R155 step 2). -/
def lmigOwned (s : State) (k : Nat) : List (Nat × Nat) :=
  s.work.clusters.flatMap (fun c =>
    (c.2.copyLines.filter (fun o => o.dev == s.fabric.self && inScratch k (o.line * 64))).map (fun o => (c.1, o.line)))
def lmigPeers (s : State) (k : Nat) : List Nat := (s.mem.peers.map (·.1)).filter (fun l => inScratch k (l * 64))

/-- Whether something of a core is still under way that does not move: writes to its rows and c registers, its streams. -/
def lmigBusy (s : State) (k : Nat) : Bool :=
  let c := s.coreAt k
  !c.writes.isEmpty || !c.cWrites.isEmpty || !c.mx.isEmpty || (s.cluster (clusterOf k)).copies.any (fun x => x.2.core == k)

/-- A slot of the core that moved, at its new place. -/
def movedSlot (src dst : Nat) (id : SlotId) : SlotId := if id.core = src then ⟨dst, id.slot⟩ else id

/-- What waits for a slot of the core that moved waits for it at its new place. -/
def movedWaiting (src dst : Nat) (w : Waiting) : Waiting :=
  match w with
  | .thread id => .thread (movedSlot src dst id)
  | .launch id d desc graph => .launch (movedSlot src dst id) d desc graph
  | _ => w

/-- An event due for a slot of the core that moved. -/
def movedEv (src dst : Nat) (e : Ev) : Ev :=
  match e with
  | .multiRotationResult id => .multiRotationResult (movedSlot src dst id)
  | .migrantResend id => .migrantResend (movedSlot src dst id)
  | _ => e

/-- The saved tasks of the core that moved, among a queue's. -/
def savedOn (src : Nat) (t : QTask) : Bool :=
  match t.st with
  | .saved k _ => k == src
  | _ => false

/-- A saved task of the core that moved resumes on the target (R155 step 4). -/
def movedTask (dst : Nat) (re : Task → Task) (t : QTask) : QTask :=
  match t.st with
  | .saved _ b => { t with st := .saved dst b, task := t.task.map re }
  | _ => t

/-- The work of a core stands on its target (R155, R187): rows, tags, tables, c registers, GUESTS, speculation state, guests and
saved tasks, and whatever names its slots and scratchpad. -/
def State.moveCore (s : State) (src dst : Nat) : State :=
  let c := s.coreAt src
  let d := s.coreAt dst
  let re (t : Task) : Task := if t.dcore = gcid s src then { t with dcore := gcid s dst } else t
  let saved := s.work.lmigSaved.map (fun x => (x.1, { x.2 with st := SlotSt.running, preempt := false }))
  let slots := ((c.slots.filter (fun x => x.2.guest)) ++ saved).foldl (fun m x => mput m x.1 x.2) d.slots
  let moved : Core := { c with
    slots := slots, tvec := d.tvec, post := d.post,
    recvs := c.recvs.map (fun (r : RecvWait) => if r.core = src then { r with core := dst } else r) }
  let s := (s.setCore dst moved).setCore src { Core.reset with tvec := c.tvec, post := c.post, guests := c.guests }
  let s := { s with cores := s.cores.map (fun (x : Nat × Core) =>
    (x.1, { x.2 with slots := x.2.slots.map (fun (y : Nat × Slot) => (y.1, { y.2 with task := re y.2.task })) })) }
  let wait (r : Replay) : Replay := { r with what := movedWaiting src dst r.what }
  let s := s.setMem { s.mem with
    cells := setBytes s.mem.cells (scrPa dst 0) (bytesAt s.mem.cells (scrPa src 0) 49152),
    waiters := s.mem.waiters.map (fun (w : Waiter) =>
      if inScratch src w.acc.pa then { w with acc := { w.acc with pa := scrPa dst (w.acc.pa % 65536) } } else w),
    replay := s.mem.replay.map wait, stopped := s.mem.stopped.map wait }
  let s := s.setChurn { s.churn with zwait := s.churn.zwait.map (fun z => (z.1, wait z.2)) }
  let s := s.setSched { s.sched with
    timers := s.sched.timers.map (fun (t : Timer) => { t with ev := movedEv src dst t.ev }) }
  let from_ := s.cluster (clusterOf src)
  let s := s.setCluster (clusterOf src) { from_ with queue := from_.queue.filter (fun t => !savedOn src t) }
  let dest := s.cluster (clusterOf dst)
  let s := s.setCluster (clusterOf dst) { dest with
    queue := dest.queue ++ ((from_.queue.filter (savedOn src)).map (movedTask dst re)) }
  s.setWork { s.work with
    migrants := s.work.migrants.map (fun (h : HeldMigrant) => { h with task := re h.task }),
    lmigFwd := mput s.work.lmigFwd (freeFwd s) (w64 (src * 2 ^ 48 + dst * 2 ^ 32 + 1)), lmigStatus := 3,
    lmigGone := numDel s.work.lmigGone dst, lmigSaved := [] }

/-- LMIG_STREAM_DONE (R155 steps 2 and 4): once nothing holds a line of the source and nothing of it is under way, its work
stands on the target, the forwarding entry is installed, and the packets that waited go on in order. -/
def execLmigStreamDone (s : State) : Res :=
  if s.work.lmigStatus != 2 then .next s
  else
    let src := s.work.lmigFrom
    let dst := s.work.lmigTo
    let owned := lmigOwned s src
    let shared := lmigPeers s src
    let moving := ((s.cluster (clusterOf src)).queue.filter (savedOn src)).length
    if !owned.isEmpty || !shared.isEmpty then
      let s := owned.foldl (fun s x => s.post (.lineRecall x.1 x.2)) s
      .next ((shared.foldl State.recallPeers s).after 1 .lmigStreamDone)
    else if lmigBusy s src || (clusterOf src != clusterOf dst && 1024 < (s.cluster (clusterOf dst)).queue.length + moving) then
      .next (s.after 1 .lmigStreamDone)
    else
      let c := s.cluster (clusterOf src)
      let mine (x : Nat × Nat × SlotId × Words8) : Bool := x.1 == src
      let msgs := (c.holding.filter mine ++ c.heldMsgs.filter mine).map (fun x => Ev.messageArrival src x.2.1 x.2.2.1 x.2.2.2)
      let q := msgs ++ s.work.lmigQueue
      let s := s.setCluster (clusterOf src) { c with
        holding := c.holding.filter (fun x => !mine x), heldMsgs := c.heldMsgs.filter (fun x => !mine x) }
      let s := s.moveCore src dst
      let s := q.foldl (fun s ev => s.post ev) (s.setWork { s.work with lmigQueue := [] })
      .next ((s.post (.primarySlotFree dst)).post (.overflowReturn (clusterOf src)))

/-- LMIG_FWD_CLEAR (R156): V is cleared by writing 1; FROM and TO stay. The core that moved is then no place for packets
(notes/assumptions/94). -/
def execLmigFwdClear (i : Nat) (s : State) : Res :=
  let w := mget s.work.lmigFwd i 0
  if w.getLsbD 0 then .next (s.setWork { s.work with
    lmigFwd := mput s.work.lmigFwd i (w &&& ~~~1#64), lmigGone := numIns s.work.lmigGone (bits w.toNat 63 48) })
  else .next s

end Sys2Proof.Machine
end

