-- ==== Sys2Proof/Machine/Messages.lean ====
section
/-! DEFINITION. Mailboxes and the virtual-time instructions: SEND, RECV, RECVP, VTKEY, LEVEE, IRREV
(spec 06 R145, R146, 07 R178, 16 R401 to R404). -/

namespace Sys2Proof.Machine

open Sys2Proof

/-! ## Mailboxes -/

/-- The number of messages of a mailbox level (R145). -/
def mailDepth : Nat := 32

/-- The number of messages of a cluster's holding buffer (R146). -/
def holdingDepth : Nat := 64

/-- The eight words of a message in the order of RECV (R402). -/
def msgWords (m : Words8) : List Word := [m.w0, m.w1, m.w2, m.w3, m.w4, m.w5, m.w6, m.w7]

/-- A message from its core's post counter (R401): ORIGIN and SEQ, TIME 0, the payload. -/
def messageOf (origin seq : Nat) (p : List Word) : Words8 :=
  ⟨w64 (origin * 2 ^ 32 + seq % 2 ^ 32), 0, p.getD 0 0, p.getD 1 0, p.getD 2 0, p.getD 3 0, p.getD 4 0, p.getD 5 0⟩

/-- SEND (R401, R146). -/
def execSend (a b : Reg) (sa : Bool) (s : State) : Res :=
  issueAfter s [s.ordTrap 5] ⟨some (a.toNat, sa), none, none, regRun b.toNat 6, []⟩ (fun x => targetTrap s x.a)
    (fun v sl =>
      if s.acqWait || 16 ≤ sl.unackMsg then .next s
      else
        let target := bits v.a.toNat 29 0
        let level := bits v.a.toNat 63 62
        let c := s.coreAt s.here
        let m := messageOf (gcid s s.here) c.post.toNat v.run
        let s := s.setCore s.here { c with post := c.post + 1, sentN := c.sentN + 1 }
        let s := s.retire { sl with unackMsg := sl.unackMsg + 1 }
        .next (if modOf target = s.fabric.self then
            s.send (srcKey s.here s.sched.cur.slot) (coreOf target) (.messageArrival (coreOf target) level s.sched.cur m)
          else s.ask 6 (modOf target) 0 s.here s.sched.cur.slot (s.partOfTask sl.task) sl.task.launch
            (.message (coreOf target) level s.sched.cur m)))

/-- Whether a waiting RECV or RECVP accepts a level (R402). -/
def RecvWait.accepts (r : RecvWait) (level : Nat) : Bool := r.level.elim true (· == level)

/-- The eight registers of a RECV become full at once (R402). -/
def State.giveMessage (s : State) (r : RecvWait) (m : Words8) : State :=
  let id : SlotId := ⟨r.core, r.slot⟩
  let s := ((List.range 8).zip (msgWords m)).foldl (fun s x => s.unitResult id (r.d + x.1) x.2) s
  s.setSlot id { s.slotAt id with recvs := (s.slotAt id).recvs - 1 }

/-- A message is placed (R146): the core's count of messages received, and MSGACK. -/
def State.placedMessage (s : State) (k : Nat) (src : SlotId) (m : Words8) : State :=
  let c := s.coreAt k
  (s.setCore k { c with recvN := c.recvN + 1 }).ackMsg (originMod m) src 0 false

/-- A message at its core (R145, R146, R402): to the oldest waiting request that accepts its level, else to its level,
else to the holding buffer, else it stays in the message class. -/
def State.takeMessage (s : State) (k level : Nat) (src : SlotId) (m : Words8) : State :=
  let c := s.coreAt k
  let cl := clusterOf k
  match c.recvs.find? (fun r => r.accepts level) with
  | some r => ((s.setCore k { c with recvs := c.recvs.erase r }).giveMessage r m).placedMessage k src m
  | none =>
    let h := (s.cluster cl).holding
    let l := mget c.mail level []
    if l.length < mailDepth && !h.any (fun x => x.1 == k && x.2.1 == level) then
      (s.setCore k { c with mail := mput c.mail level (l ++ [m]) }).placedMessage k src m
    else if h.length < holdingDepth then
      s.setCluster cl { s.cluster cl with holding := h ++ [(k, level, src, m)] }
    else s.setCluster cl { s.cluster cl with heldMsgs := (s.cluster cl).heldMsgs ++ [(k, level, src, m)] }

/-- MESSAGE_ARRIVAL (R145, R146): a message for a core under live migration waits or is re-addressed (R155, R156). -/
def execMessageArrival (core level : Nat) (src : SlotId) (msg : Words8) (s : State) : Res :=
  let s := s.arrive (.messageArrival core level src msg)
  let k := s.forwarded core
  if lmigHolds s k then .next (s.lmigHold (.messageArrival core level src msg))
  else if (s.cluster (clusterOf k)).heldMsgs.isEmpty then .next (s.takeMessage k level src msg)
  else
    let cl := clusterOf k
    .next (s.setCluster cl { s.cluster cl with heldMsgs := (s.cluster cl).heldMsgs ++ [(k, level, src, msg)] })

/-- The messages that wait in the message class enter, in order, while the holding buffer has room (R146). -/
def State.admitMessages (cl : Nat) : Nat → State → State
  | 0, s => s
  | n + 1, s =>
    let c := s.cluster cl
    match c.heldMsgs with
    | [] => s
    | y :: rest =>
      if holdingDepth ≤ c.holding.length then s
      else State.admitMessages cl n ((s.setCluster cl { c with heldMsgs := rest }).takeMessage y.1 y.2.1 y.2.2.1 y.2.2.2)

/-- MESSAGE_PLACEMENT (R146): the oldest held message of a level that has room is placed; those that wait in the message
class then enter the holding buffer. -/
def execMessagePlacement (core level : Nat) (s : State) : Res :=
  let cl := clusterOf core
  let c := s.coreAt core
  let h := (s.cluster cl).holding
  let mine (x : Nat × Nat × SlotId × Words8) : Bool := x.1 == core && x.2.1 == level
  match h.find? mine with
  | none => .next s
  | some x =>
    if mailDepth ≤ (mget c.mail level []).length then .next s
    else
      let s := s.setCluster cl { s.cluster cl with holding := h.eraseP mine }
      let s := (s.setCore core { c with mail := mput c.mail level (mget c.mail level [] ++ [x.2.2.2]) }).placedMessage core
        x.2.2.1 x.2.2.2
      let s := s.admitMessages cl (s.cluster cl).heldMsgs.length
      .next (s.post (.messagePlacement core level))

/-- The highest non-empty level of a mailbox (R145). -/
def topLevel (c : Core) : Option Nat := [3, 2, 1, 0].find? (fun l => !(mget c.mail l []).isEmpty)

/-- RECV and RECVP (R402): the oldest message of a level at the dispatching core, at once or when one comes. -/
def recvForm (d : Nat) (src : Option (Nat × Bool)) (level : Vals → Option Nat) (s : State) : Res :=
  issueAfter s [s.ordTrap 1] ⟨src, none, none, [], regRun d 8⟩ (fun _ => if d = 0 then some s.badOperand else none)
    (fun v sl =>
      if s.acqWait then .next s
      else
        let pended : Slot := (regRun d 8).foldl (fun (a : Slot) r => a.pendG r) { sl with recvs := sl.recvs + 1 }
        let s1 := s.retire pended
        if modOf sl.task.dcore != s.fabric.self then
          .next (s.askHome (pended.advance s.sched.ir))
        else
          let k := coreOf sl.task.dcore
          let c := s1.coreAt k
          let r : RecvWait := ⟨s.here, s.sched.cur.slot, d, level v⟩
          match (match level v with
            | some l => if (mget c.mail l []).isEmpty then none else some l
            | none => topLevel c) with
          | none => .next (s1.setCore k { c with recvs := c.recvs ++ [r] })
          | some l => match mget c.mail l [] with
            | [] => .next (s1.setCore k { c with recvs := c.recvs ++ [r] })
            | m :: rest =>
              .next (((s1.setCore k { c with mail := mput c.mail l rest }).giveMessage r m).post (.messagePlacement k l)))

/-- RECV (R401, R402). -/
def execRecv (d : Reg) (s : State) : Res := recvForm d.toNat none (fun _ => none) s

/-- RECVP (R401, R402). -/
def execRecvp (d b : Reg) (sb : Bool) (s : State) : Res :=
  recvForm d.toNat (some (b.toNat, sb)) (fun v => some (bits v.a.toNat 1 0)) s

/-! ## VTKEY, LEVEE (R403) -/

/-- An instruction that writes an even register pair (R403). -/
def pairForm (d : Reg) (f : Slot → Word × Word) (s : State) : Res :=
  issueAfter s [] { noDemand with dests := regRun d.toNat 2 } (fun _ => if d.toNat % 2 = 1 then some s.badOperand else none)
    (fun _ sl => .next (s.retire (s.writeG (s.writeG sl d.toNat (f sl).1) (d.toNat + 1) (f sl).2)))

/-- VTKEY (R403): the key of the task; a plain task's TIME is 0. -/
def execVtkey (d : Reg) (s : State) : Res :=
  pairForm d (fun sl => (sl.task.pkt.w0, if sl.task.ord then sl.task.pkt.w1 else 0)) s

/-- The levee as last published at the core where a thread runs (R182, R403). -/
def State.leveeHere (s : State) (sl : Slot) : Nat :=
  match s.orderedOf (s.partOfTask sl.task) with
  | none => 0
  | some o => ((if isTile s.part s.here then (s.coreAt s.here).levee else o.dockLevee)).getD 0

/-- LEVEE (R403). -/
def execLevee (d : Reg) (s : State) : Res :=
  pairForm d (fun sl => (w64 (s.leveeHere sl), w64 (s.leveeHere sl / 2 ^ 64))) s

/-! ## IRREV (R178, R404) -/

/-- Appends an IRREV record to a task's current entry, or to a new one (R173). -/
def appendIrrev (s : State) (k spec : Nat) (o : Ordered) (r : Word × Word × Word × Word) : LogRes :=
  let mine := (s.coreAt k).log.filter (fun e => e.spec == spec && (match e.kind with
    | .irrev _ => true
    | _ => false))
  match mine.getLast? with
  | some e =>
    match e.kind with
    | .irrev l =>
      if l.length < 2 then .ok (s.logStore k o { e with kind := .irrev (l ++ [r]) }) else s.takeLog k o spec (.irrev [r])
    | _ => s.takeLog k o spec (.irrev [r])
  | none => s.takeLog k o spec (.irrev [r])

/-- The illegal-operand trap of an IRREV record (R178, R404). -/
def irrevBad (s : State) (w0 w1 : Option Word) : Option Trap :=
  w0.bind (fun w =>
    let kind := bits w.toNat 63 56
    if kind != 1 && kind != 3 then some s.badOperand
    else if kind = 3 then
      w1.bind (fun a => if !canonical a.toNat || a.toNat % 8 != 0 then some s.badOperand else none)
    else none)

/-- IRREV (R404): logged in an ordered task; in a plain task it acts once the posted count is zero. -/
def execIrrev (a : Reg) (s : State) : Res :=
  issueAfter s [] ⟨none, none, none, regRun a.toNat 4, []⟩
    (fun x => irrevBad s (x.run.getD 0 none) (x.run.getD 1 none))
    (fun v sl =>
      let w (i : Nat) : Word := v.run.getD i 0
      if s.acqWait then .next s
      else if s.ordered then
        if modOf sl.task.dcore != s.fabric.self then
          .next (s.askHome (sl.parkFor s.sched.ir 0))
        else match s.orderedOf (s.partOf sl.task.launch) with
          | none => .next (s.retire sl)
          | some o => match appendIrrev s (coreOf sl.task.dcore) sl.task.spec o (w 0, w 1, w 2, w 3) with
            | .ok s => .next (s.retire sl)
            | .wait s => .next s
            | .unlogged s => .next s
      else if sl.posted != 0 then .next s
      else if bits (w 0).toNat 63 56 = 1 then .next ((s.retire sl).event 6 sl.task.job (w 0) (w 1) (w 2) (w 3))
      else globalAccess s sl (w 1) 0 (.fill (w 2)))

end Sys2Proof.Machine
end

