-- ==== Sys2Proof/Machine/Units.lean ====
section
/-! DEFINITION. How the hub's units read and write memory (spec 05 R111 to R114, 08 R216): an operation of a unit reads
first and then makes all its writes at once; a fault leaves it without effect until it is replayed
(notes/assumptions/22). -/

namespace Sys2Proof.Machine

open Sys2Proof

/-- For whom a unit works: the unit, the job, whether at user level. -/
structure Client where
  loc : Nat
  job : Nat
  user : Bool
  deriving DecidableEq, Repr

/-- What a unit's operation comes to: its value; a fault; a compressed page; a line that is not there yet; an end with a
status of its own. -/
inductive UOut (α : Type)
  | ok (a : α) (s : State)
  | fault (cause level access : Nat) (va : Word)
  | zpage (pte : Nat) (va : Word)
  | wait (s : State)
  | stop (n : Nat)

/-- An operation of a unit that reads. -/
abbrev UM (α : Type) := State → UOut α

/-- An operation that gives a value. -/
def uret {α : Type} (a : α) : UM α := fun s => .ok a s

/-- An operation that ends with a status. -/
def ustop {α : Type} (n : Nat) : UM α := fun _ => .stop n

/-- One operation, then another. -/
def ubind {α β : Type} (m : UM α) (f : α → UM β) : UM β := fun s =>
  match m s with
  | .ok a s => f a s
  | .fault c l a v => .fault c l a v
  | .zpage p v => .zpage p v
  | .wait s => .wait s
  | .stop n => .stop n

/-- Reads n bytes at a virtual address. -/
def uread (x : Client) (va : Word) (n : Nat) : UM (List Byte) := fun s =>
  match unitRead s x.loc x.job x.user va n with
  | .ok l s => .ok l s
  | .fault c lv v _ => .fault c lv accLoad v
  | .zpage p v _ => .zpage p v
  | .wait s => .wait s

/-- The number in n bytes at a virtual address. -/
def unum (x : Client) (va : Word) (n : Nat) : UM Nat := ubind (uread x va n) (fun l => uret (bytesNat l))

/-- Runs an operation on each element of a list and keeps the results in order. -/
def ueach {α β : Type} (f : α → UM β) : List α → UM (List β)
  | [] => uret []
  | a :: l => ubind (f a) (fun b => ubind (ueach f l) (fun bs => uret (b :: bs)))

/-- Goes on with an accumulator. -/
def ufold {α β : Type} (f : β → α → UM β) : List α → β → UM β
  | [], b => uret b
  | a :: l, b => ubind (f b a) (ufold f l)

/-- A write of a unit: at a virtual address, or at a physical address of this module; whether its word is made full. -/
structure UWrite where
  phys : Bool
  va : Word
  data : List Byte
  full : Bool
  deriving DecidableEq, Repr

/-- A write of bytes at a virtual address. -/
def wbytes (va : Word) (l : List Byte) : UWrite := ⟨false, va, l, false⟩

/-- The pieces of a write, none across a line. -/
def piecesOf : Nat → UWrite → List UWrite
  | 0, _ => []
  | fuel + 1, w =>
    if w.data.isEmpty then []
    else
      let n := 64 - w.va.toNat % 64
      { w with data := w.data.take n } :: piecesOf fuel { w with va := w.va + w64 n, data := w.data.drop n }

/-- The pieces of a list of writes. -/
def allPieces (l : List UWrite) : List UWrite := l.flatMap (fun w => piecesOf (w.data.length / 64 + 2) w)

/-- A unit's access as its home sees it: of no launch, with the unit as originator (R262, R445). -/
def unitAccess (s : State) (x : Client) (va : Word) (pa : Nat) (how : Perform) : Access :=
  { srcs := [], org := gcid s x.loc * 16, va := va, pa := pa, pc := 0, job := x.job, launch := 65536,
    part := (mget? s.work.jobs x.job).elim 0 Job.part, user := x.user, ord := false, handler := false, release := false,
    dst := 0, how := how }

/-- What a home in this module says to a write of a unit; the other homes are asked when it is made. -/
def checkHome (s : State) (x : Client) (w : UWrite) (va : Word) (pa : Nat) : UOut Unit :=
  if !paOk s pa then .fault causePhysaddr 0 accStore w.va
  else if 4 ≤ region pa then .ok () s
  else match homeCheck s (unitAccess s x va pa (if w.full then .fill 0 else .store 8 0)) with
    | some c => .fault c 0 accStore w.va
    | none => match lineBusy s pa true with
      | some s => .wait s
      | none => .ok () s

/-- Whether a piece can be written. -/
def checkPiece (s : State) (x : Client) (w : UWrite) : UOut Unit :=
  if w.phys then checkHome s x w 0 w.va.toNat
  else match translate s x.loc x.job x.user w.va .write with
    | (.fault c lv, _) => .fault c lv accStore w.va
    | (.zpage p, _) => .zpage p w.va
    | (.ok y, s) =>
      if y.ty = 2 then .fault causePerm 0 accStore w.va
      else if y.dev != s.fabric.self then .ok () s
      else checkHome s x w w.va y.pa

/-- Whether every piece can be written. -/
def checkPieces (x : Client) : List UWrite → UM Unit
  | [] => uret ()
  | w :: l => fun s => match checkPiece s x w with
    | .ok _ s => checkPieces x l s
    | r => r

/-- Eight-byte stores that make a write at a home elsewhere. -/
def storesOf (s : State) (x : Client) (va : Word) (pa : Nat) : Nat → List Byte → List Access
  | 0, _ => []
  | fuel + 1, l =>
    if l.isEmpty then []
    else
      let n := 8 - pa % 8
      unitAccess s x va pa (.store (min n l.length) (w64 (bytesNat (l.take n)))) ::
        storesOf s x (va + w64 n) (pa + n) fuel (l.drop n)

/-- Writes a piece at a physical address of a module; its home counts it (R115). -/
def State.writeAt (s : State) (x : Client) (w : UWrite) (va : Word) (dev pa : Nat) : State :=
  if dev = s.fabric.self && region pa < 4 then
    let a := unitAccess s x va pa (.store 8 0)
    let s := s.heat pa
    let s := if region pa = 3 then s.scrPut (bits pa 31 16) (pa % 65536) w.data else s.putHome a w.data
    if w.full then s.setFull pa true else s
  else
    let l := if w.full then [unitAccess s x va pa (.fill (w64 (bytesNat w.data)))] else storesOf s x va pa 16 w.data
    l.foldl (fun s a => s.unitSend dev a) s

/-- Makes one piece. -/
def State.writePiece (s : State) (x : Client) (w : UWrite) : State :=
  if w.phys then s.writeAt x w 0 s.fabric.self w.va.toNat
  else match translate s x.loc x.job x.user w.va .write with
    | (.ok y, s) => s.writeAt x w w.va y.dev y.pa
    | _ => s

/-- Makes all writes of an operation, or none of them. -/
def uwrite (x : Client) (l : List UWrite) : UM Unit := fun s =>
  match checkPieces x (allPieces l) s with
  | .ok _ s => .ok () ((allPieces l).foldl (fun s w => s.writePiece x w) s)
  | r => r

/-- The fault record of a unit (R112): engine 6 is the token engine, 7 the future table. -/
def unitFault (s : State) (engine unit job cause level access : Nat) (va : Word) : FaultRec :=
  { engine := engine, cause := cause, job := job, place := gcid s unit, va := va, access := access, size := 3,
    spec := false, slot := 0, cmd := 0, level := level, token := 0 }

end Sys2Proof.Machine
end

