-- ==== Sys2Proof/Machine/Futures.lean ====
section
/-! DEFINITION. The future table: CALLT, WAITF, POLLF, CANF, the routing of calls, replies, time-outs, the context queues
of the tool cluster (spec 08 R195 to R207, 16 R406, R407, 04 R97 to R101). -/

namespace Sys2Proof.Machine

open Sys2Proof

/-! ## Entries (R195, R196) -/

/-- A free index from a place on, in ring order. -/
def freeFutureFrom (s : State) : Nat → Nat → Option Nat
  | _, 0 => none
  | i, n + 1 => if (s.futureAt (i % 65536)).st = 0 then some (i % 65536) else freeFutureFrom s (i + 1) n

/-- The entry the next call takes: the spec does not say which free one (notes/assumptions/23). -/
def State.freeFutureIndex (s : State) : Option Nat := freeFutureFrom s (s.pick Config.useFuture % 65536) 65536

/-- A handle (R195). -/
def handleOf (gen i : Nat) : Nat := gen * 65536 + i

/-- Takes an entry in OPEN. -/
def State.openFuture (s : State) (i : Nat) (f : Future) : State :=
  s.setFuture i { f with st := 1, gen := (s.futureAt i).gen }

/-- A context's queue. -/
def State.ctx (s : State) (c : Nat) : CtxQ := mget s.agents.ctxs c ⟨[], [], [], 0, []⟩

/-- Replaces a context's queue. -/
def State.setCtx (s : State) (c : Nat) (q : CtxQ) : State :=
  s.setAgents { s.agents with ctxs := mput s.agents.ctxs c q }

/-- The number of tool contexts of a part (R23, R207). -/
def toolContexts : Part → Nat
  | .ny7740 => 4096
  | .ny7720 => 2048
  | .ny7710 => 0

/-- Word w of an entry of the local tool table (R207). -/
def localWord (s : State) (i w : Nat) : Nat := (mget s.agents.localTool (2 * i + w) 0).toNat

/-- Word w of an entry of the remote-tool table (R98). -/
def remoteWord (s : State) (i w : Nat) : Nat := (mget s.agents.remoteTool (4 * i + w) 0).toNat

/-- Whether a call is denied (R201, R205): outside the ranges of R197, an invalid entry, another job's, no context. -/
def callDenied (s : State) (tool job : Nat) : Bool :=
  if tool = 0xFFFF then false
  else if tool < 0x1000 then
    s.part == .ny7710 || !bit (localWord s tool 1) 0 || bits (localWord s tool 0) 63 48 != job ||
    toolContexts s.part ≤ bits (localWord s tool 0) 11 0
  else if 0x8000 ≤ tool && tool < 0x8400 then
    s.part == .ny7710 || !bit (remoteWord s (tool - 0x8000) 3) 0 || bits (remoteWord s (tool - 0x8000) 2) 15 0 != job
  else true

/-- The future enters CALLED: its deadline starts (R196). The scanner reaches it within 8 µs of the deadline. -/
def State.enterCalled (s : State) (h : Nat) : State :=
  match s.byHandle h with
  | none => s
  | some f =>
    let i := h % 65536
    let s1 := s.setFuture i { f with
      st := 2, sent := s.now, deadline := if f.dlus = 0 then 2 ^ 64 - 1 else s.now + 1700 * f.dlus }
    if f.dlus = 0 then s1 else s1.after (1700 * f.dlus + s.pick Config.useTimeout % 13601) (.futureTimeout i)

/-- A handle leaves the queues of the contexts; a place that frees goes to a waiting call (R200, R207). -/
def State.leaveContexts (s : State) (h : Nat) : State :=
  (s.agents.ctxs.filter (fun c => c.2.queue.contains h || c.2.waiting.contains h || c.2.taken.contains h)).foldl (fun s c =>
    let q := s.ctx c.1
    let s1 := s.setCtx c.1 { q with queue := q.queue.erase h, waiting := q.waiting.erase h, taken := q.taken.erase h }
    if q.queue.contains h then s1.post (.futureQueueEntry c.1) else s1) s

/-- The result word of WAITF and POLLF (R205). -/
def waitWord (status replen : Nat) : Word := w64 (replen * 2 ^ 32 + status)

/-- The answer to a request on q5 (R406). -/
def State.q5Answer (s : State) (id : SlotId) (d : Nat) (v : Word) : State :=
  (s.setSlot id { s.slotAt id with q5 := (s.slotAt id).q5 - 1 }).unitResult id d v

/-- The status of a future that has ended (R205). -/
def Future.status (f : Future) : Nat := if f.st = 3 then 0 else f.reason

/-- The waiting WAITF completes and frees the future; later ones find a stale handle (R204, R205). -/
def State.wakeWait (s : State) (h : Nat) : State :=
  match s.byHandle h with
  | none => s
  | some f =>
    match f.watch with
    | [] => s
    | (id, d) :: rest =>
      let s := (s.freeFuture h).q5Answer id d (waitWord f.status f.replen)
      rest.foldl (fun s x => s.q5Answer x.1 x.2 (waitWord 0xFF 0)) s

/-- A future leaves OPEN or CALLED as RESOLVED (3) or FAILED (4) (R196, R202, R204). -/
def State.endCall (s : State) (h st reason replen : Nat) : State :=
  match s.byHandle h with
  | none => s
  | some f =>
    if f.st != 1 && f.st != 2 then s
    else
      let i := h % 65536
      let s := s.setFuture i { f with st := st, reason := reason, replen := replen }
      let s := (s.leaveContexts h).untimer (.futureTimeout i)
      let s := s.setAgents { s.agents with futOps := s.agents.futOps.filter (fun o => o.2.h != h) }
      if f.sb then s.post (.injection i) else s.wakeWait h

/-! ## Work on a future (R197, R199, R114) -/

/-- Adds work of the future table on a future. -/
def State.addFutOp (s : State) (o : FutOp) : State :=
  s.setAgents { s.agents with futOps := mput s.agents.futOps s.agents.nextOp o, nextOp := s.agents.nextOp + 1 }

/-- Drops work. -/
def State.dropFutOp (s : State) (n : Nat) : State :=
  s.setAgents { s.agents with futOps := mdel s.agents.futOps n }

/-- Work waits on a fault or is tried again. -/
def State.stallFutOp (s : State) (n : Nat) (b : Bool) : State :=
  match mget? s.agents.futOps n with
  | none => s
  | some o => s.setAgents { s.agents with futOps := mput s.agents.futOps n { o with stalled := b } }

/-- The header of a call message (R99). -/
def callHeader (s : State) (h : Nat) (f : Future) : List Byte :=
  natBytes 8 (h * 2 ^ 32 + 1 * 2 ^ 24 + 1 * 2 ^ 16 + (f.tool - 0x8000)) ++ natBytes 8 (f.arglen * 2 ^ 32) ++
  natBytes 8 (if f.dlus = 0 then 2 ^ 64 - 1 else f.dlus) ++ natBytes 8 (s.fabric.self * 2 ^ 50)

/-- Sends a remote call (R98, R99). -/
def State.sendCall (s : State) (h : Nat) (f : Future) (args : List Byte) : State :=
  let i := f.tool - 0x8000
  (s.emit (.uetCall h (BitVec.ofNat 128 (remoteWord s i 1 * 2 ^ 64 + remoteWord s i 0)) (bits (remoteWord s i 2) 63 40)
    (bits (remoteWord s i 2) 39 28) (bits (remoteWord s i 2) 27 16) (callHeader s h f ++ args))).enterCalled h

/-- A call enters its context's queue, or waits for room (R207). -/
def State.queueCall (s : State) (h c : Nat) : State :=
  let q := s.ctx c
  if q.queue.length < 64 && q.waiting.isEmpty then (s.setCtx c { q with queue := q.queue ++ [h] }).enterCalled h
  else s.setCtx c { q with waiting := q.waiting ++ [h] }

/-- A unit's fault parks its work (R111, R114): the record is delivered, and the work waits for the replay. While the
replay queues are full it is tried again. -/
def State.unitPark (s : State) (f : FaultRec) (launch : Nat) (handler : Bool) (what : Waiting) : Option State :=
  s.raiseFault f launch handler what

/-- The client for which a future's buffers are read and written. -/
def Future.client (f : Future) : Client := ⟨unitFuture, f.job, f.user⟩

/-- Tries a piece of work of the future table. -/
def State.serveFutOp (s : State) (n : Nat) : State :=
  match mget? s.agents.futOps n with
  | none => s
  | some o =>
    if o.stalled then s
    else match s.byHandle o.h with
      | none => s.dropFutOp n
      | some f =>
        let park (c lv acc : Nat) (va : Word) : State :=
          ((s.unitPark (unitFault s 7 unitFuture f.job c lv acc va) f.launch false (.future n)).map
            (fun s => s.stallFutOp n true)).getD s
        let page (p : Nat) (va : Word) : State := (s.askPage p f.job va f.launch (.future n)).stallFutOp n true
        match o.work with
        | .send =>
          if f.st != 1 then s.dropFutOp n
          else match uread f.client f.argva f.arglen s with
            | .ok l s => ((s.dropUnitLines).dropFutOp n).sendCall o.h f l
            | .wait s => s
            | .fault c lv a va => park c lv a va
            | .zpage p va => page p va
            | .stop _ => s
        | .reply reason data =>
          if f.st != 2 then s.dropFutOp n
          else match uwrite f.client [wbytes f.repva data] s with
            | .ok _ s => (s.dropFutOp n).endCall o.h (if reason = 0 then 3 else 4) reason data.length
            | .wait s => s
            | .fault c lv a va => park c lv a va
            | .zpage p va => page p va
            | .stop _ => s
        | .route =>
          if f.st != 1 then s.dropFutOp n
          else if callDenied s f.tool f.job then park causeTooldeny 0 accLoad o.va
          else
            let s := s.dropFutOp n
            if f.tool = 0xFFFF then s.enterCalled o.h
            else if f.tool < 0x1000 then s.queueCall o.h (bits (localWord s f.tool 0) 11 0)
            else match uread f.client f.argva f.arglen s with
              | .ok l s => (s.dropUnitLines).sendCall o.h f l
              | _ => s.addFutOp ⟨o.h, .send, 0, false⟩

/-- Routes a call that is not denied (R197). -/
def State.routeCall (s : State) (h : Nat) : State :=
  match s.byHandle h with
  | none => s
  | some f =>
    if f.tool = 0xFFFF then s.enterCalled h
    else if f.tool < 0x1000 then s.queueCall h (bits (localWord s f.tool 0) 11 0)
    else
      let n := s.agents.nextOp
      (s.addFutOp ⟨h, .send, 0, false⟩).serveFutOp n

/-- Routes a sequence's call (R201): a denied one enters CALLED and fails at once with reason 10. -/
def State.routeSeqCall (s : State) (h : Nat) : State :=
  match s.byHandle h with
  | none => s
  | some f => if callDenied s f.tool f.job then (s.enterCalled h).endCall h 4 10 0 else s.routeCall h

/-- Routes the call of an ordered task when its record is released (R206). -/
def State.routeReleased (s : State) (h : Nat) (desc : Word) : State :=
  let n := s.agents.nextOp
  (s.addFutOp ⟨h, .route, desc, false⟩).serveFutOp n

/-- Whether a reply to a future is already being written. -/
def replying (s : State) (h : Nat) : Bool :=
  s.agents.futOps.any (fun o => o.2.h == h && (match o.2.work with
    | .reply _ _ => true
    | _ => false))

/-- The scanner at an entry past its deadline (R196): reason 3. A future whose reply is being written has its outcome. -/
def State.scanFuture (s : State) (i : Nat) : State :=
  let f := s.futureAt i
  let h := handleOf f.gen i
  if f.st = 2 && f.deadline ≤ s.now && !replying s h then s.endCall h 4 3 0 else s

/-- FUTURE_TIMEOUT (R196). -/
def execFutureTimeout (idx : Nat) (s : State) : Res := .next (s.scanFuture idx)

/-- The scanner comes before a reply of the same cycle (R196). -/
def State.scanFirst (s : State) (i : Nat) : State :=
  if s.sched.timers.any (fun t => t.ev == .futureTimeout i && decide (t.due ≤ s.now)) then s.scanFuture i else s

/-- Whether a reply to a handle is accepted (R199). -/
def State.accepts (s : State) (h job : Nat) : Bool :=
  (s.byHandle h).elim false (fun f => f.st == 2 && f.job == job) && !replying s h

/-- An accepted reply (R199): its bytes are written, or it is too long and the future fails with reason 8. -/
def State.putReply (s : State) (h reason : Nat) (data : List Byte) : State :=
  match s.byHandle h with
  | none => s
  | some f =>
    if f.repcap < data.length then s.endCall h 4 8 0
    else
      let n := s.agents.nextOp
      (s.addFutOp ⟨h, .reply reason data, 0, false⟩).serveFutOp n

/-- FUTURE_QUEUE_ENTRY (R207): the oldest waiting call enters the queue. -/
def execFutureQueueEntry (ctx : Nat) (s : State) : Res :=
  let q := s.ctx ctx
  match q.waiting with
  | [] => .next s
  | h :: rest =>
    if 64 ≤ q.queue.length then .next s
    else .next (((s.setCtx ctx { q with queue := q.queue ++ [h], waiting := rest }).enterCalled h).post (.futureQueueEntry ctx))

/-! ## The instructions (R205, R206, R406, R407) -/

/-- An agent instruction (R407): first the steps of a release at core scope, then at most 8 unanswered requests on its
port; the slot goes on. -/
def agentForm (s : State) (pre : List (Option Trap)) (m : Demand) (q d : Nat) (k : State → Vals → Slot → State) : Res :=
  issueAfter s pre m noChecks (fun v sl =>
    if !s.coreRelease || s.acqWait || 8 ≤ sl.portCount q then .next s
    else
      let sl1 := sl.pendG d
      let sl1 := if q = 4 then { sl1 with q4 := sl1.q4 + 1 } else { sl1 with q5 := sl1.q5 + 1 }
      if modOf sl.task.dcore != s.fabric.self then .next (s.askHome (sl1.advance s.sched.ir))
      else .next (k (s.retire sl1) v sl))

/-- The result word of CALLT. -/
def calltWord (h status : Nat) : Word := w64 (h * 2 ^ 32 + status)

/-- A CALLT ends with its result (R205); a slot parked at it goes on. -/
def State.finishCall (s : State) (n : Nat) (v : Word) : State :=
  match mget? s.agents.calls n with
  | none => s
  | some o =>
    let s := s.setAgents { s.agents with calls := mdel s.agents.calls n }
    let sl := s.slotAt o.id
    if sl.st == .waiting then
      s.setSlot o.id { sl.setG o.d v with st := .running, pc := sl.next, fell := sl.nextFell, entry := false }
    else s.q5Answer o.id o.d v

/-- A CALLT waits on a fault, or goes on. -/
def State.stallCall (s : State) (n : Nat) (b : Bool) : State :=
  match mget? s.agents.calls n with
  | none => s
  | some o => s.setAgents { s.agents with calls := mput s.agents.calls n { o with stalled := b } }

/-- The future of a CALLT (R205). -/
def callFuture (o : CallOp) (w : Word × Word × Word × Word) : Future :=
  { Future.empty 1 with
    job := o.job, launch := o.launch, tool := bits w.1.toNat 63 48, caller := o.dcore, cslot := o.id.slot,
    dlus := bits w.1.toNat 31 0, argva := (w.2.1.truncate 54 : BitVec 54).signExtend 64, arglen := bits w.2.2.1.toNat 63 32,
    repcap := bits w.2.2.1.toNat 31 0, repva := (w.2.2.2.truncate 54 : BitVec 54).signExtend 64, user := o.user,
    descva := o.va }

/-- Whether a part lacks the unit that a tool number names (R22). -/
def toolAbsent (p : Part) (tool : Nat) : Bool := p == .ny7710 && (tool < 0x1000 || (0x8000 ≤ tool && tool < 0x8400))

/-- A slot as it was before an instruction that parked it and has no effect after all: the registers that it emptied are full
again, and its lines are not counted (R22). -/
def Slot.undone (sl before : Slot) : Slot :=
  { sl with st := .running, lines := before.lines, quietBad := before.quietBad, regs := before.regs.foldl (fun m x =>
    if x.2.full && !(sl.cell x.1).full && !(sl.cell x.1).pend then mput m x.1 x.2 else m) sl.regs }

/-- A CALLT whose descriptor has been read (R205, R206, R22). -/
def State.callWith (s : State) (n : Nat) (o : CallOp) (w : Word × Word × Word × Word) : State :=
  let f := callFuture o w
  if toolAbsent s.part f.tool then
    let s := s.setAgents { s.agents with calls := mdel s.agents.calls n }
    let sl := s.slotAt o.id
    (s.setSlot o.id (sl.undone o.before)).raise o.id ⟨trapAbsent, 0, o.word, sl.pc⟩
  else if 65536 < f.arglen || 65536 < f.repcap then s.finishCall n (calltWord 0 2)
  else if !o.ord && callDenied s f.tool f.job then
    ((s.unitPark (unitFault s 7 unitFuture o.job causeTooldeny 0 accLoad o.va) o.launch o.handler (.call n)).map (fun s =>
      s.setAgents { s.agents with calls := mput s.agents.calls n { o with got := some w, denied := true, stalled := true } })).getD s
  else match s.freeFutureIndex with
    | none => s.finishCall n (calltWord 0 1)
    | some i =>
      let h := handleOf (s.futureAt i).gen i
      if !o.ord then ((s.openFuture i f).routeCall h).finishCall n (calltWord h 0)
      else match s.orderedOf (s.partOf o.launch) with
        | none => (s.openFuture i f).finishCall n (calltWord h 0)
        | some od => match appendIrrev s (coreOf o.dcore) o.spec od (w64 (2 * 2 ^ 56), w64 h, 0, 0) with
          | .ok s => (s.openFuture i f).finishCall n (calltWord h 0)
          | .wait s => s
          | .unlogged s => s

/-- Four words of a list of bytes. -/
def fourWords (l : List Byte) : Word × Word × Word × Word := (wordAt l 0, wordAt l 1, wordAt l 2, wordAt l 3)

/-- Tries a CALLT: its descriptor is read as a load of the calling slot (R205). -/
def State.serveCall (s : State) (n : Nat) : State :=
  match mget? s.agents.calls n with
  | none => s
  | some o =>
    if o.stalled then s
    else match o.got with
      | some w => s.callWith n o w
      | none => match uread ⟨unitFuture, o.job, o.user⟩ o.va 32 s with
        | .ok l s => (s.dropUnitLines).callWith n o (fourWords l)
        | .wait s => s
        | .fault c lv a va =>
          ((s.unitPark { unitFault s 7 unitFuture o.job c lv a va with slot := o.id.slot, size := 5 } o.launch o.handler
            (.call n)).map (fun s => s.stallCall n true)).getD s
        | .zpage p va => (s.askPage p o.job va o.launch (.call n)).stallCall n true
        | .stop _ => s

/-- The request of a CALLT, with the slot before it issued. -/
def callRequest (id : SlotId) (d : Nat) (va word : Word) (sl before : Slot) : CallOp :=
  { id := id, d := d, va := va, got := none, job := sl.task.job, launch := sl.task.launch, handler := sl.task.handler,
    user := !sl.sup, ord := sl.task.ord, spec := sl.task.spec, dcore := sl.task.dcore, word := word, before := before,
    denied := false, stalled := false }

/-- A CALLT reaches the future table. -/
def State.beginCall (s : State) (o : CallOp) : State :=
  let n := s.agents.nextOp
  (s.setAgents { s.agents with calls := mput s.agents.calls n o, nextOp := n + 1 }).serveCall n

/-- CALLT (R205, R206); on the NY-7710 the slot parks at it until the descriptor has been read (R22). -/
def execCallt (o : OpsDA) (s : State) : Res :=
  if s.part = .ny7710 then
    issueAfter s [] (daDemand o) noChecks (fun v sl =>
      if !s.coreRelease || s.acqWait || 8 ≤ sl.q5 then .next s
      else if modOf sl.task.dcore != s.fabric.self then .next (foreignRequest s sl o.d.toNat)
      else .next ((s.setMe (sl.parkFor s.sched.ir o.d.toNat)).beginCall (callRequest s.sched.cur o.d.toNat v.a s.irWord sl s.me)))
  else agentForm s [] (daDemand o) 5 o.d.toNat (fun s v sl =>
    s.beginCall (callRequest s.sched.cur o.d.toNat v.a s.irWord sl sl))

/-- The future that WAITF and POLLF may name (R205): a thread future of the job. -/
def State.threadFuture (s : State) (h job : Nat) : Option Future :=
  (s.byHandle h).bind (fun f => if f.job = job && !f.sb then some f else none)

/-- WAITF (R205): an ordered task takes subcode 6. -/
def execWaitf (o : OpsDA) (s : State) : Res :=
  agentForm s [s.ordTrap 6] (daDemand o) 5 o.d.toNat (fun s v sl =>
    let h := v.a.toNat % 2 ^ 32
    let id := s.sched.cur
    match s.threadFuture h sl.task.job with
    | none => s.q5Answer id o.d.toNat (waitWord 0xFF 0)
    | some f =>
      if 3 ≤ f.st then (s.freeFuture h).q5Answer id o.d.toNat (waitWord f.status f.replen)
      else s.setFuture (h % 65536) { f with watch := f.watch ++ [(id, o.d.toNat)] })

/-- POLLF (R205). -/
def execPollf (o : OpsDA) (s : State) : Res :=
  agentForm s [s.ordTrap 6] (daDemand o) 5 o.d.toNat (fun s v sl =>
    let h := v.a.toNat % 2 ^ 32
    let id := s.sched.cur
    match s.threadFuture h sl.task.job with
    | none => s.q5Answer id o.d.toNat (waitWord 0xFF 0)
    | some f =>
      if 3 ≤ f.st then (s.freeFuture h).q5Answer id o.d.toNat (waitWord f.status f.replen)
      else s.q5Answer id o.d.toNat (waitWord 0xFE 0))

/-- CANF at a future (R200): the state, and the status. -/
def State.cancelFuture (s : State) (h job : Nat) : State × Nat :=
  match s.byHandle h with
  | none => (s, 0xFF)
  | some f =>
    if f.job != job then (s, 0xFF)
    else if f.sb then (if 3 ≤ f.st then (s, 1) else (s.endCall h 4 5 0, 0))
    else
      let s := (s.leaveContexts h).untimer (.futureTimeout (h % 65536))
      let s := s.freeFuture h
      (f.watch.foldl (fun s x => s.q5Answer x.1 x.2 (waitWord 5 0)) s, if 3 ≤ f.st then 1 else 0)

/-- CANF (R200, R205). -/
def execCanf (o : OpsDA) (s : State) : Res :=
  agentForm s [] (daDemand o) 5 o.d.toNat (fun s v sl =>
    let (s, st) := (s.scanFirst (v.a.toNat % 65536)).cancelFuture (v.a.toNat % 2 ^ 32) sl.task.job
    s.q5Answer s.sched.cur o.d.toNat (w64 st))

/-! ## Remote tools (R100, R101) -/

/-- UET_REPLY_ARRIVAL (R99, R100, R199): a reply is checked and passed to the future table; a dropped one is counted. -/
def execUetReplyArrival (r : UetReply) (s : State) : Res :=
  let h := bits r.w0.toNat 63 32
  let status := bits r.w0.toNat 15 0
  let len := bits r.w1.toNat 63 32
  let s := s.scanFirst (h % 65536)
  let f := s.futureAt (h % 65536)
  let i := f.tool - 0x8000
  let cur := f.gen == bits h 31 16 && f.st != 0
  let from_ := r.addr == BitVec.ofNat 128 (remoteWord s i 1 * 2 ^ 64 + remoteWord s i 0) &&
    r.ujob == bits (remoteWord s i 2) 63 40 && r.pid == bits (remoteWord s i 2) 39 28
  let form := bits r.w0.toNat 31 24 == 1 && bits r.w0.toNat 23 16 == 2 && decide (status ≤ 2) && len == r.data.length
  if !form || (cur && (f.tool < 0x8000 || 0x8400 ≤ f.tool || !from_ || bits (remoteWord s i 3) 63 48 * 1024 < len)) then .next (s.countErr errUet)
  else if !cur then .next (s.countErr errStale)
  else if !s.accepts h f.job then .next (s.countErr errLate)
  else .next (s.putReply h status r.data)

/-- UET_UNDELIVERABLE (R101): the future fails with reason 4. -/
def execUetUndeliverable (handle : BitVec 32) (s : State) : Res :=
  let s := s.scanFirst (handle.toNat % 65536)
  if (s.byHandle handle.toNat).elim false (fun f => f.st == 2) && !replying s handle.toNat then
    .next (s.endCall handle.toNat 4 4 0)
  else .next s

end Sys2Proof.Machine
end

