-- ==== Sys2Proof/Machine/Tokens.lean ====
section
/-! DEFINITION. The token engine: sequence records, UTF-8, pre-split, BPE, the constraint automaton and the mask delta,
calls gathered from tokens, TOKC, TOKENC, TOKDEC, MASKQ, injections (spec 08 R190 to R194, R201 to R203, R205, R206,
R212 to R219). -/

namespace Sys2Proof.Machine

open Sys2Proof

/-! ## Sequence records (R190, R191) -/

/-- The twenty words of a record that the units use. -/
abbrev Rec := List Nat

/-- Word i of a record. -/
def Rec.w (r : Rec) (i : Nat) : Nat := r.getD i 0

/-- Replaces word i of a record. -/
def Rec.set_ (r : Rec) (i v : Nat) : Rec := List.set r i (v % 2 ^ 64)

/-- Bits hi to lo of word i. -/
def Rec.f (r : Rec) (i hi lo : Nat) : Nat := bits (r.w i) hi lo

/-- Replaces bits hi to lo of word i. -/
def Rec.put (r : Rec) (i hi lo v : Nat) : Rec :=
  let m := 2 ^ (hi + 1 - lo)
  r.set_ i (r.w i - bits (r.w i) hi lo * 2 ^ lo + v % m * 2 ^ lo)

/-- A 54-bit address field as a virtual address. -/
def vaField (n : Nat) : Word := (BitVec.ofNat 54 n).signExtend 64

-- States of a record (R191).
def seqDecode : Nat := 2
def seqCalling : Nat := 3
def seqWaiting : Nat := 4
def seqDone : Nat := 5
def seqEvicted : Nat := 6
def seqPrefill : Nat := 1

/-- The physical address of a record. -/
def recPa (s : State) (i : Nat) : Nat := s.agents.seqBase + 256 * i

/-- The client of the token engine for a request. -/
def TokOp.client (o : TokOp) : Client := ⟨unitToken, o.job, o.user⟩

/-- Reads a record at its home under the job's key. -/
def readRec (x : Client) (i : Nat) : UM Rec := fun s =>
  let pa := recPa s i
  match homeCheck s (unitAccess s x 0 pa (.load 3)) with
  | some c => .fault c 0 accLoad (w64 pa)
  | none => match lineBusy s pa false with
    | some s => .wait s
    | none => .ok ((List.range 20).map (fun j => bytesNat (s.mem.read (s.keyOf x.job) (pa + 8 * j) 8))) s

/-- The write of a record. -/
def recWrite (s : State) (i : Nat) (r : Rec) : UWrite :=
  ⟨true, w64 (recPa s i), r.flatMap (natBytes 8), false⟩

/-! ## Tokeniser images (R212) -/

/-- A tokeniser image: its base, its header, and the tables that are read whole. -/
structure Image where
  base : Word
  nvocab : Nat
  classes : List Byte
  split : List Byte
  byteTok : List Byte
  mrg : Nat
  log2nb : Nat
  t2b : Nat
  pool : Nat
  deriving DecidableEq, Repr

/-- The status of a stream fault (R212). -/
def streamFault : Nat := 7

/-- Reads an image; one that breaks a limit ends with a stream fault. -/
def readImage (x : Client) (va : Word) : UM Image :=
  ubind (uread x va 64) (fun h =>
    let w (i : Nat) : Nat := (wordAt h i).toNat
    let nv := bits (w 0) 31 0
    let lg := bits (w 5) 5 0
    if va.toNat % 64 != 0 || nv < 257 || 262144 < nv || lg < 4 || 22 < lg ||
        [1, 2, 3, 4, 6, 7].any (fun i => w i % 64 != 0) then ustop streamFault
    else ubind (uread x (va + w64 (w 1)) 256) (fun cls => ubind (uread x (va + w64 (w 2)) 256) (fun spl =>
      ubind (uread x (va + w64 (w 3)) 1024) (fun byt =>
        uret ⟨va, nv, cls, spl, byt, w 4, lg, w 6, w 7⟩))))

/-- The byte token of a byte. -/
def Image.byteId (m : Image) (b : Byte) : Nat := bits (bytesNat ((m.byteTok.drop (4 * b.toNat)).take 4)) 17 0

/-- The split entry of a state and a byte: the next state, and whether a chunk breaks before it. -/
def Image.splitAt (m : Image) (st : Nat) (b : Byte) : Nat × Bool :=
  let cls := bits (m.classes.getD b.toNat 0).toNat 3 0
  let e := (m.split.getD (16 * st + cls) 0).toNat
  (bits e 3 0, bit e 4)

/-- The bytes of a token (R212, R217): a length of 0 breaks a limit. -/
def tokenBytes (x : Client) (m : Image) (t : Nat) : UM (List Byte) :=
  ubind (unum x (m.base + w64 (m.t2b + 8 * t)) 8) (fun e =>
    let n := bits e 47 32
    if n = 0 then ustop streamFault else uread x (m.base + w64 (m.pool + bits e 31 0)) n)

/-- A merge: its result and its rank. -/
structure Merge where
  result : Nat
  rank : Nat
  deriving DecidableEq, Repr

/-- Looks a pair up from a bucket on (R212). -/
def mergeFrom (x : Client) (m : Image) (l r : Nat) : Nat → Nat → UM (Option Merge)
  | _, 0 => uret none
  | h, n + 1 =>
    ubind (uread x (m.base + w64 (m.mrg + 16 * (h % 2 ^ m.log2nb))) 16) (fun e =>
      let w0 := (wordAt e 0).toNat
      let w1 := (wordAt e 1).toNat
      if !bit w1 0 then uret none
      else if bits w0 63 46 = l && bits w0 45 28 = r then uret (some ⟨bits w1 63 46, bits w1 45 22⟩)
      else mergeFrom x m l r (h + 1) n)

/-- The merge of a pair (R212). -/
def lookupMerge (x : Client) (m : Image) (l r : Nat) : UM (Option Merge) :=
  mergeFrom x m l r ((l * 2 ^ 18 + r) * 0x9E3779B97F4A7C15 % 2 ^ 64 / 2 ^ (64 - m.log2nb)) (2 ^ m.log2nb)

/-- The leftmost merge of lowest rank in a token list (R213). -/
def bestMerge (x : Client) (m : Image) : Nat → List Nat → Option (Nat × Merge) → UM (Option (Nat × Merge))
  | i, a :: b :: l, best =>
    ubind (lookupMerge x m a b) (fun r =>
      bestMerge x m (i + 1) (b :: l) (match r, best with
        | some y, none => some (i, y)
        | some y, some (j, z) => if y.rank < z.rank then some (i, y) else some (j, z)
        | none, _ => best))
  | _, _, best => uret best

/-- Merges until no pair merges (R213). -/
def bpeLoop (x : Client) (m : Image) : Nat → List Nat → UM (List Nat)
  | 0, l => uret l
  | n + 1, l =>
    ubind (bestMerge x m 0 l none) (fun r => match r with
      | none => uret l
      | some (i, y) => bpeLoop x m n (l.take i ++ y.result :: l.drop (i + 2)))

/-- BPE of a chunk (R213). -/
def bpe (x : Client) (m : Image) (c : List Byte) : UM (List Nat) := bpeLoop x m c.length (c.map m.byteId)

/-! ## UTF-8 (R214) -/

/-- What stands at the front of a byte list: a character of n bytes, an ill-formed maximal subpart of n bytes, or a
valid beginning of a character that the list cuts off. -/
inductive Utf8
  | char (n : Nat)
  | bad (n : Nat)
  | more
  deriving DecidableEq, Repr

/-- The length of the character that a lead byte begins, and the limits of its second byte. -/
def leadOf (b : Nat) : Option (Nat × Nat × Nat) :=
  if 0xC2 ≤ b && b ≤ 0xDF then some (2, 0x80, 0xBF)
  else if b = 0xE0 then some (3, 0xA0, 0xBF)
  else if b = 0xED then some (3, 0x80, 0x9F)
  else if 0xE1 ≤ b && b ≤ 0xEF then some (3, 0x80, 0xBF)
  else if b = 0xF0 then some (4, 0x90, 0xBF)
  else if 0xF1 ≤ b && b ≤ 0xF3 then some (4, 0x80, 0xBF)
  else if b = 0xF4 then some (4, 0x80, 0x8F)
  else none

/-- Whether a byte continues a character. -/
def isCont (b : Byte) : Bool := 0x80 ≤ b.toNat && b.toNat ≤ 0xBF

/-- The front of a byte list. -/
def utf8Front : List Byte → Utf8
  | [] => .more
  | b :: l =>
    if b.toNat < 0x80 then .char 1
    else match leadOf b.toNat with
      | none => .bad 1
      | some (n, lo, hi) => match l with
        | [] => .more
        | c :: l =>
          if c.toNat < lo || hi < c.toNat then .bad 1
          else if n = 2 then .char 2
          else match l with
            | [] => .more
            | c :: l =>
              if !isCont c then .bad 2
              else if n = 3 then .char 3
              else match l with
                | [] => .more
                | c :: _ => if isCont c then .char 4 else .bad 3

/-- A buffer after validation: its characters, the replacements made, the bytes kept pending, and the offset of an
invalid byte at which a strict record stops. -/
structure Valid where
  chars : List (List Byte)
  nrepl : Nat
  pend : List Byte
  bad : Option Nat
  deriving DecidableEq, Repr

/-- U+FFFD. -/
def replacement : List Byte := [0xEF, 0xBF, 0xBD]

/-- Validates a byte list from an offset (R214). -/
def validate (strict final : Bool) : Nat → Nat → List Byte → Valid → Valid
  | 0, _, _, v => v
  | fuel + 1, off, l, v =>
    if l.isEmpty then v
    else match utf8Front l with
      | .char n => validate strict final fuel (off + n) (l.drop n) { v with chars := v.chars ++ [l.take n] }
      | .bad n =>
        if strict then { v with bad := some off }
        else validate strict final fuel (off + n) (l.drop n)
          { v with chars := v.chars ++ [replacement], nrepl := v.nrepl + 1 }
      | .more =>
        if !final then { v with pend := l }
        else if strict then { v with bad := some off }
        else { v with chars := v.chars ++ [replacement], nrepl := v.nrepl + 1 }

/-- Validates pending bytes and a buffer. The offset of an invalid byte is counted in the buffer (R214). -/
def validBuffer (strict final : Bool) (pend buf : List Byte) : Valid :=
  let v := validate strict final (pend.length + buf.length) 0 (pend ++ buf) ⟨[], 0, [], none⟩
  { v with bad := v.bad.map (fun o => o - pend.length) }

/-! ## Pre-split and encoding (R213) -/

/-- The chunks of a list of characters: the split state, the chunk under way, the chunks ended. -/
def chunksOf (m : Image) : List (List Byte) → Nat → List Byte → List (List Byte) → List (List Byte)
  | [], _, cur, acc => if cur.isEmpty then acc else acc ++ [cur]
  | c :: l, st, cur, acc =>
    let cut := !cur.isEmpty && ((m.splitAt st (c.headD 0)).2 || decide (256 < cur.length + c.length))
    let st := c.foldl (fun st b => (m.splitAt st b).1) st
    if cut then chunksOf m l st c (acc ++ [cur]) else chunksOf m l st (cur ++ c) acc

/-- The tokens of a list of characters. -/
def encodeChars (x : Client) (m : Image) (cs : List (List Byte)) : UM (List Nat) :=
  ubind (ueach (bpe x m) (chunksOf m cs 0 [] [])) (fun ts => uret ts.flatten)

/-! ## The prefill queue (R194) -/

/-- The writes that append tokens, and the record with PQLEN and TRUNC: an append that does not fit is cut. -/
def appendTokens (r : Rec) (ts : List Nat) : List UWrite × Rec × Nat :=
  let cap := r.f 3 63 32
  let head := r.f 3 31 0
  let len := r.f 4 31 0
  let n := min ts.length (cap - len)
  let ws := ((List.range n).zip ts).map (fun x =>
    wbytes (vaField (r.f 2 53 0) + w64 (4 * ((head + len + x.1) % cap))) (natBytes 4 x.2))
  let r := if n < ts.length then r.put 0 57 57 1 else r
  (ws, r.put 4 31 0 (len + n), n)

/-- The pending bytes of a record (R191 word 17). -/
def recPend (r : Rec) : List Byte := (natBytes 3 (r.f 17 23 0)).take (r.f 17 25 24)

/-- Stores the pending bytes of a record. -/
def setPend (r : Rec) (l : List Byte) : Rec := (r.put 17 23 0 (bytesNat l)).put 17 25 24 l.length

/-- Counts replacements in a record (R214): NREPL saturates. -/
def addRepl (r : Rec) (n : Nat) : Rec :=
  if n = 0 then r else (r.put 17 63 32 (min (r.f 17 63 32 + n) (2 ^ 32 - 1))).put 0 56 56 1

/-! ## The automaton and the mask (R218, R219) -/

/-- A state of a constraint automaton as read: its transitions, its default, its bans, its forced token. -/
structure AutoState where
  count : Nat
  trans : List (Nat × Nat)
  dflt : Nat
  bans : List Nat
  force : Option Nat
  deriving DecidableEq, Repr

/-- Whether a list rises strictly. -/
def rising : List Nat → Bool
  | a :: b :: l => decide (a < b) && rising (b :: l)
  | _ => true

/-- Reads a state of an automaton; none when the image breaks a rule of R218. -/
def readAuto (x : Client) (va : Word) (st : Nat) : UM (Option AutoState) :=
  ubind (uread x va 16) (fun h =>
    let ns := bits (wordAt h 0).toNat 31 0
    if ns = 0 || 65536 < ns || ns ≤ st then uret none
    else ubind (uread x (va + 16 + w64 (32 * st)) 32) (fun e =>
      let w (i : Nat) : Nat := (wordAt e i).toNat
      let nb := bits (w 1) 31 0
      if bits (w 0) 63 32 % 8 != 0 || bits (w 1) 63 32 % 4 != 0 || 262144 < nb then uret none
      else ubind (uread x (va + w64 (bits (w 0) 63 32)) (8 * bits (w 0) 31 16)) (fun tl =>
        ubind (uread x (va + w64 (bits (w 1) 63 32)) (4 * nb)) (fun bl =>
          let trans := (List.range (bits (w 0) 31 16)).map (fun i =>
            (bits (wordAt tl i).toNat 63 46, bits (wordAt tl i).toNat 15 0))
          let bans := (List.range nb).map (fun i => bits (bytesNat ((bl.drop (4 * i)).take 4)) 17 0)
          if rising (trans.map (·.1)) && rising bans then
            uret (some ⟨ns, trans, bits (w 0) 15 0, bans, if bit (w 2) 63 then some (bits (w 2) 17 0) else none⟩)
          else uret none))))

/-- The state of a record's automaton: none without a constraint, some none when it is in error. -/
def recAuto (x : Client) (r : Rec) : UM (Option (Option AutoState)) :=
  if r.f 6 53 0 = 0 then uret none
  else ubind (readAuto x (vaField (r.f 6 53 0)) (r.f 7 15 0)) (fun a => uret (some a))

/-- Whether a token is banned or not the forced one (R218). -/
def AutoState.violates (a : AutoState) (t : Nat) : Bool :=
  match a.force with
  | some f => t != f
  | none => a.bans.contains t

/-- The next state (R218). -/
def AutoState.stepOn (a : AutoState) (t : Nat) : Nat :=
  ((a.trans.find? (fun y => y.1 == t)).map (·.2)).getD a.dflt

/-- Word 0 of a mask record (R219). -/
def maskWord (r : Rec) (kind n : Nat) : Word :=
  w64 (r.w 1 % 2 ^ 32 * 2 ^ 32 + kind * 2 ^ 24 + n * 2 ^ 16 + r.f 7 15 0)

/-- The bans of a mask record, two to a word (R219). -/
def banWords (l : List Nat) : List Byte := (List.range 32).flatMap (fun i => natBytes 4 (l.getD i 0))

/-- The overflow bitmap (R219): bit t is set when t is banned. -/
def banBitmap (l : List Nat) : List Byte :=
  natBytes 32768 (l.foldl (fun n t => n + 2 ^ t) 0)

/-- The writes of a mask record, word 0 last and made full; and word 0 (R219). -/
def maskWrites (r : Rec) (kind n arg : Nat) (bans : List Nat) (before : List UWrite) : List UWrite × Word :=
  let va := vaField (r.f 8 53 0)
  (before ++ [wbytes (va + 8) (natBytes 8 arg ++ banWords bans), ⟨false, va, natBytes 8 (maskWord r kind n).toNat, true⟩],
   maskWord r kind n)

/-- The mask of a record for the state it stands in (R219). -/
def maskOfRec (r : Rec) (a : Option (Option AutoState)) : List UWrite × Word :=
  match a with
  | none => maskWrites r 0 0 0 [] []
  | some none => maskWrites r 4 0 0 [] []
  | some (some st) => match st.force with
    | some f => maskWrites r 2 0 f [] []
    | none =>
      if st.bans.isEmpty then maskWrites r 0 0 0 [] []
      else if st.bans.length ≤ 32 then maskWrites r 1 st.bans.length 0 st.bans []
      else if r.f 9 53 0 = 0 then maskWrites r 4 0 0 [] []
      else maskWrites r 3 0 (r.f 9 53 0) [] [wbytes (vaField (r.f 9 53 0)) (banBitmap st.bans)]

/-! ## Calls gathered from tokens (R201) -/

/-- The future of a sequence's call (R201). -/
def seqFuture (o : TokOp) (r : Rec) : Future :=
  { Future.empty 1 with
    job := o.job, launch := o.launch, tool := r.f 14 63 48, sb := true, seqi := o.seq, dlus := r.f 14 31 0,
    argva := vaField (r.f 12 53 0), arglen := r.f 13 31 0, repva := vaField (r.f 18 53 0), repcap := r.f 19 31 0,
    user := o.user }

/-- Closing a call (R201): the record's changes, and what the future table then does. -/
def closeCall (x : Client) (o : TokOp) (r : Rec) : UM (Rec × (State → State)) := fun s =>
  let tooLong := s.agents.callOver.contains o.seq
  let badM : UM Bool :=
    if r.f 17 31 31 = 1 && !tooLong then
      ubind (uread x (vaField (r.f 12 53 0)) (r.f 13 31 0)) (fun l => uret (validBuffer true true [] l).bad.isSome)
    else uret false
  match badM s with
  | .ok bad s =>
    let r := r.put 0 59 59 0
    match s.freeFutureIndex with
    | none => .ok (r.put 0 63 60 seqWaiting, fun s =>
        s.setAgents { s.agents with waitingSeqs := s.agents.waitingSeqs ++ [(o.seq, o.job)] }) s
    | some i =>
      let h := handleOf (s.futureAt i).gen i
      .ok ((r.put 0 63 60 seqCalling).put 0 31 0 h, fun s =>
        let s := s.setAgents { s.agents with callOver := s.agents.callOver.filter (fun q => q != o.seq) }
        let s := s.openFuture i (seqFuture o r)
        if tooLong then (s.enterCalled h).endCall h 4 8 0
        else if bad then (s.enterCalled h).endCall h 4 9 0
        else s.routeSeqCall h) s
  | .fault c l a v => .fault c l a v
  | .zpage p v => .zpage p v
  | .wait s => .wait s
  | .stop n => .stop n

/-- Gathers bytes of a call (R201): those beyond CALLCAP are dropped and remembered. -/
def gatherBytes (o : TokOp) (r : Rec) (l : List Byte) : List UWrite × Rec × (State → State) :=
  let cap := r.f 13 63 32
  let len := r.f 13 31 0
  let n := min l.length (cap - len)
  ([wbytes (vaField (r.f 12 53 0) + w64 len) (l.take n)], r.put 13 31 0 (len + n),
   fun s => if n < l.length && !s.agents.callOver.contains o.seq then
     s.setAgents { s.agents with callOver := s.agents.callOver ++ [o.seq] } else s)

/-! ## The operations (R205) -/

/-- What an operation of the engine comes to: its writes, what is then done, its result. -/
structure TokRes where
  writes : List UWrite
  after : State → State
  result : Word

/-- An operation that changes nothing. -/
def tokNothing (v : Nat) : TokRes := ⟨[], id, w64 v⟩

/-- The checks that every request meets (R205): the index, SEQCFG.EN, the record's job; then what depends on the record. -/
def withRec (o : TokOp) (bad : Nat → Nat) (k : Rec → UM TokRes) : UM TokRes := fun s =>
  if 16384 ≤ o.seq then .ok (tokNothing (bad 4)) s
  else if !s.agents.seqEn then .ok (tokNothing (bad 1)) s
  else ubind (readRec o.client o.seq) (fun r =>
    if r.f 0 55 40 != o.job then uret (tokNothing (bad 3)) else k r) s

/-- The automaton's step on a committed token, and the mask for the next one (R205, R218, R219): a next state that breaks a
rule of R218 leaves CSTATE as it was, and the record has KIND 4. -/
def commitMask (x : Client) (r : Rec) (a : Option (Option AutoState)) (t : Nat) : UM (Rec × List UWrite) :=
  let mask (r : Rec) (a : Option (Option AutoState)) : Rec × List UWrite :=
    (r, if r.f 8 53 0 = 0 then [] else (maskOfRec r a).1)
  match a with
  | some (some st) =>
    let r1 := r.put 7 15 0 (st.stepOn t)
    if st.count ≤ st.stepOn t then uret (mask r (some none))
    else if r.f 8 53 0 = 0 then uret (mask r1 a)
    else ubind (recAuto x r1) (fun a1 => uret (if a1 = some none then mask r a1 else mask r1 a1))
  | _ => uret (mask r a)

/-- TOKC (R205). VIOL in a state that breaks a rule of R218 is a free value (notes/assumptions/24). -/
def tokCommit (o : TokOp) : UM TokRes :=
  withRec o id (fun r =>
    let x := o.client
    let t := o.b.toNat
    if r.f 0 63 60 != seqDecode then uret (tokNothing 1)
    else ubind (readImage x (vaField (r.f 5 53 0))) (fun m =>
      if m.nvocab ≤ t then uret (tokNothing 2)
      else ubind (recAuto x r) (fun a => fun s =>
        let viol := match a with
          | none => false
          | some none => s.choice (Config.useViol)
          | some (some st) => st.violates t
        ubind (commitMask x (r.set_ 1 (r.w 1 + 1)) a t) (fun rm =>
          let r := rm.1
          let mw := rm.2
          let gath := r.f 0 59 59 = 1
          let fin (ws : List UWrite) (r : Rec) (f : State → State) (v : Nat) : UM TokRes := fun s =>
            .ok ⟨ws ++ [recWrite s o.seq r] ++ mw, fun s => (f s).countLife (lifeEnergy + 1) 64 1, w64 (v + b2n viol * 256)⟩ s
          if t = r.f 10 27 10 then
            fin [] ((r.put 0 59 59 0).put 0 63 60 seqDone)
              (fun s => s.setAgents { s.agents with callOver := s.agents.callOver.filter (fun q => q != o.seq) }) 1024
          else if gath && t = r.f 10 45 28 then
            ubind (closeCall x o r) (fun y => fin [] y.1 y.2 512)
          else if gath then
            ubind (tokenBytes x m t) (fun l =>
              let y := gatherBytes o r l
              fin y.1 y.2.1 y.2.2 0)
          else if t = r.f 10 63 46 then
            fin [] ((r.put 0 59 59 1).put 13 31 0 0)
              (fun s => s.setAgents { s.agents with callOver := s.agents.callOver.filter (fun q => q != o.seq) }) 512
          else fin [] r id 0) s)))

/-- TOKENC (R205, R213, R214). -/
def tokEncode (o : TokOp) : UM TokRes :=
  withRec o id (fun r =>
    let x := o.client
    if r.f 0 63 60 = 0 || r.f 0 63 60 = seqDone then uret (tokNothing 1)
    else ubind (uread x o.b 16) (fun d =>
      let va := wordAt d 0
      let len := bits (wordAt d 1).toNat 31 0
      let final := bit (wordAt d 1).toNat 32
      let strict := r.f 17 31 31 = 1
      ubind (readImage x (vaField (r.f 5 53 0))) (fun m =>
        ubind (uread x va len) (fun buf =>
          let v := validBuffer strict final (recPend r) buf
          ubind (encodeChars x m v.chars) (fun ts => fun s =>
            let r := setPend (addRepl r v.nrepl) (if v.bad.isSome then [] else v.pend)
            let y := appendTokens r ts
            let status := match v.bad with
              | some off => 5 + off % 2 ^ 32 * 256
              | none => 0
            .ok ⟨y.1 ++ [recWrite s o.seq y.2.1], id, w64 (y.2.2 % 2 ^ 24 * 2 ^ 40 + status)⟩ s)))))

/-- The bytes of the tokens that fit (R217): those written and the status. -/
def decodeTokens (x : Client) (m : Image) (cap : Nat) : List Nat → List Byte → UM (List Byte × Nat)
  | [], acc => uret (acc, 0)
  | t :: l, acc =>
    if m.nvocab ≤ t then uret (acc, 2)
    else ubind (tokenBytes x m t) (fun b =>
      if cap < acc.length + b.length then uret (acc, 6) else decodeTokens x m cap l (acc ++ b))

/-- TOKDEC (R205, R217). -/
def tokDecode (o : TokOp) : UM TokRes :=
  withRec o id (fun r =>
    let x := o.client
    ubind (uread x o.b 32) (fun d =>
      let n := bits (wordAt d 1).toNat 31 0
      ubind (readImage x (vaField (r.f 5 53 0))) (fun m => ubind (uread x (wordAt d 0) (4 * n)) (fun l =>
        let ts := (List.range n).map (fun i => bits (bytesNat ((l.drop (4 * i)).take 4)) 17 0)
        ubind (decodeTokens x m (bits (wordAt d 3).toNat 31 0) ts []) (fun y =>
          uret ⟨[wbytes (wordAt d 2) y.1], id, w64 (y.1.length * 2 ^ 32 + y.2)⟩)))))

/-- A refusal of MASKQ (R205). -/
def maskRefusal (n : Nat) : Nat := 0xFF * 2 ^ 24 + n

/-- The result of MASKQ is not there yet (R205): the request is tried again. -/
def tokLater : Nat := 256

/-- Changes a request. -/
def State.setTokOp (s : State) (n : Nat) (o : TokOp) : State :=
  s.setAgents { s.agents with tokOps := mput s.agents.tokOps n o }

/-- The tag of word 0 of a mask record (R205): one in another module is asked for at its home, once. -/
def maskFull (n : Nat) (o : TokOp) (va : Word) : UM Bool := fun s =>
  match translate s o.client.loc o.job o.user va .read with
  | (.fault c lv, _) => .fault c lv accLoad va
  | (.zpage p, _) => .zpage p va
  | (.ok y, s) =>
    if y.dev = s.fabric.self then .ok (s.isFull y.pa) s
    else if o.asked then .ok o.seen s
    else .wait ((s.setTokOp n { o with asked := true }).unitSend y.dev
      { unitAccess s o.client va y.pa .await with pc := w64 n })

/-- MASKQ (R205, R219): regenerates when asked to, then waits until word 0 is full. -/
def tokMask (n : Nat) (o : TokOp) : UM TokRes :=
  withRec o maskRefusal (fun r =>
    let x := o.client
    let va := vaField (r.f 8 53 0)
    if r.f 8 53 0 = 0 then uret (tokNothing (maskRefusal 5))
    else if o.b = 1 && !o.derived then
      ubind (recAuto x r) (fun a => uret ⟨(maskOfRec r a).1, id, (maskOfRec r a).2⟩)
    else ubind (maskFull n o va) (fun full =>
      if full then ubind (unum x va 8) (fun w => uret (tokNothing w)) else ustop tokLater))

/-- The length of a template, 0 when it is empty or its header too long (R203). -/
def templateLen (h : Nat) : Nat := if 4088 < bits h 15 0 then 0 else bits h 15 0

/-- Reads a template (R203): its bytes, and whether its header was too long. -/
def readTemplate (x : Client) (f : Nat) : UM (List Byte × Bool) :=
  if f = 0 then uret ([], false)
  else ubind (unum x (vaField f) 8) (fun h =>
    ubind (uread x (vaField f + 8) (templateLen h)) (fun l => uret (l, decide (4088 < bits h 15 0))))

/-- The address of the template of a future's outcome (R202); 0 when none is used. -/
def templateOf (r : Rec) (f : Future) : Nat :=
  if f.st = 3 then 0 else if f.reason = 3 then r.f 15 53 0 else r.f 16 53 0

/-- The reply bytes of a future's outcome (R202). -/
def outcomeReply (x : Client) (f : Future) : UM (List Byte) :=
  if f.st = 3 || f.reason = 1 || f.reason = 2 then uread x f.repva f.replen else uret []

/-- The tokens of an injected text with its frame (R202): a strict record whose reply is invalid encodes the failure
template in its place, unchecked (R214). -/
def injectTokens (x : Client) (r : Rec) (m : Image) (text tpl : List Byte) : UM (List Nat × Nat) :=
  let strict := r.f 17 31 31 = 1
  let v := validBuffer strict true (recPend r) text
  let cs : List (List Byte) := if v.bad.isSome then tpl.map (fun b => [b]) else v.chars
  ubind (encodeChars x m cs) (fun ts =>
    uret (if r.f 11 27 27 = 1 then r.f 11 63 46 :: ts ++ [r.f 11 45 28] else ts, if v.bad.isSome then 0 else v.nrepl))

/-- The record after an injection (R193, R202). -/
def injectedRec (r : Rec) : Rec :=
  let r := if r.f 0 63 60 = seqCalling then r.put 0 63 60 seqPrefill
    else if r.f 0 63 60 = seqEvicted then r.put 0 58 58 1 else r
  r.put 0 31 0 0

/-- An injection (R202, R203). `noTpl` says that a read of its template was aborted. -/
def tokInject (o : TokOp) (f : Future) (h : Nat) : UM TokRes := fun s =>
  let x := o.client
  let run : UM TokRes := ubind (readRec x o.seq) (fun r =>
    ubind (if o.noTpl then uret ([], false) else readTemplate x (templateOf r f)) (fun tp =>
      ubind (outcomeReply x f) (fun reply => ubind (readImage x (vaField (r.f 5 53 0))) (fun m =>
        ubind (if r.f 17 31 31 = 1 && f.st = 3 && !o.noTpl && (validBuffer true true (recPend r) reply).bad.isSome
            then readTemplate x (r.f 16 53 0) else uret (tp.1, false)) (fun alt =>
          ubind (injectTokens x r m (tp.1 ++ reply) alt.1) (fun y => fun s =>
            let z := appendTokens (setPend (addRepl r y.2) []) y.1
            .ok ⟨z.1 ++ [recWrite s o.seq (injectedRec z.2.1)], fun s =>
              (if tp.2 || alt.2 then s.countErr errToken else s).freeFuture h, 0⟩ s))))))
  run s

/-- An injection whose image is bad or whose read was aborted (R202): nothing is appended, TRUNC is set. -/
def tokInjectBad (o : TokOp) (h : Nat) : UM TokRes :=
  ubind (readRec o.client o.seq) (fun r => fun s =>
    .ok ⟨[recWrite s o.seq (injectedRec (r.put 0 57 57 1))], fun s => (s.countErr errToken).freeFuture h, 0⟩ s)

/-- The call of a sequence that left WAITING (R192, R193): made only from WAITING. -/
def tokCall (o : TokOp) : UM TokRes :=
  ubind (readRec o.client o.seq) (fun r =>
    if r.f 0 63 60 != seqWaiting || r.f 0 55 40 != o.job then uret (tokNothing 0)
    else ubind (closeCall o.client o r) (fun y => fun s => .ok ⟨[recWrite s o.seq y.1], y.2, 0⟩ s))

/-- An operation of the engine. -/
def tokRun (n : Nat) (o : TokOp) : UM TokRes := fun s =>
  match o.kind with
  | .commit | .commitAtRelease => tokCommit o s
  | .encode => tokEncode o s
  | .decode => tokDecode o s
  | .mask => tokMask n o s
  | .call => tokCall o s
  | .inject =>
    match s.byHandle o.b.toNat with
    | none => .ok (tokNothing 0) s
    | some f => match tokInject o f o.b.toNat s with
      | .stop _ => tokInjectBad o o.b.toNat s
      | r => r

/-! ## Serving requests in order (R215, R216) -/

/-- Whether requests of a kind to one sequence are applied in arrival order (R215). -/
def TokKind.ordered : TokKind → Bool
  | .decode => false
  | .mask => false
  | _ => true

/-- Whether an earlier request to the same sequence is not complete. -/
def tokBehind (s : State) (n : Nat) (o : TokOp) : Bool :=
  o.kind.ordered && s.agents.tokOps.any (fun x => decide (x.1 < n) && x.2.seq == o.seq && x.2.kind.ordered)

/-- A request ends with a result (R388). -/
def State.finishTok (s : State) (n : Nat) (v : Word) : State :=
  match mget? s.agents.tokOps n with
  | none => s
  | some o =>
    let s := s.setAgents { s.agents with tokOps := mdel s.agents.tokOps n }
    match o.id with
    | none => s
    | some (id, d) => (s.setSlot id { s.slotAt id with q4 := (s.slotAt id).q4 - 1 }).unitResult id d v

/-- The result of a request that ends with a stream fault (R205). -/
def streamResult (k : TokKind) : Word :=
  match k with
  | .mask => w64 (maskRefusal streamFault)
  | _ => w64 streamFault

/-- Whether a fault was met in the template of an injection (R203): its address lies in it. -/
def faultInTemplate (s : State) (o : TokOp) (va : Word) : Bool :=
  match o.kind, s.byHandle o.b.toNat, readRec o.client o.seq s with
  | .inject, some f, .ok r _ =>
    let at_ (t : Nat) : Bool := t != 0 && (vaField t).toNat / 4096 ≤ va.toNat / 4096 &&
      va.toNat < (vaField t).toNat + 4096
    !o.noTpl && (at_ (templateOf r f) || (f.st == 3 && r.f 17 31 31 == 1 && at_ (r.f 16 53 0)))
  | _, _, _ => false

/-- Tries a request of the engine; one whose access faults waits, and has had no effect (R216, R114). -/
def State.serveTok (s : State) (n : Nat) : State :=
  match mget? s.agents.tokOps n with
  | none => s
  | some o =>
    if o.stalled || tokBehind s n o then s
    else
      let run : UM TokRes := ubind (tokRun n o) (fun r => ubind (uwrite o.client r.writes) (fun _ => uret r))
      match run s with
      | .ok r s =>
        if o.kind = .mask && o.b = 1 && !o.derived && r.writes != [] then
          (s.dropUnitLines).setTokOp n { o with derived := true }
        else (r.after s.dropUnitLines).finishTok n r.result
      | .wait s => s
      | .stop m => if m = tokLater then s else s.finishTok n (streamResult o.kind)
      | .fault c lv a va =>
        ((s.unitPark (unitFault s 6 unitToken o.job c lv a va) o.launch o.handler (.token n)).map (fun s =>
          s.setTokOp n { o with stalled := true, inTpl := faultInTemplate s o va })).getD s
      | .zpage p va => (s.askPage p o.job va o.launch (.token n)).setTokOp n { o with stalled := true }

/-- A request reaches the engine. -/
def State.beginTok (s : State) (o : TokOp) : State :=
  let n := s.agents.nextOp
  let s := (s.setAgents { s.agents with tokOps := mput s.agents.tokOps n o, nextOp := n + 1 }).serveTok n
  if o.kind = .mask then s.serveTok n else s

/-- Every request that waits is tried again in order of arrival; so are the future table's. -/
def State.pollUnits (s : State) : State :=
  let s := (s.agents.tokOps.map (·.1)).foldl State.serveTok s
  let s := (s.agents.calls.map (·.1)).foldl State.serveCall s
  (s.agents.futOps.map (·.1)).foldl State.serveFutOp s

/-- A request of a slot. -/
def tokRequest (kind : TokKind) (id : SlotId) (d : Nat) (seq b : Word) (sl : Slot) : TokOp :=
  { kind := kind, seq := seq.toNat, b := b, job := sl.task.job, launch := sl.task.launch, handler := sl.task.handler,
    user := !sl.sup, id := some (id, d), noTpl := false, inTpl := false, stalled := false, derived := false, asked := false, seen := false }

/-- The demand of a request with two operands. -/
def dabDemand (o : OpsDAB) : Demand := ⟨some (o.a.toNat, o.sa), some (o.b.toNat, o.sb), none, [], [o.d.toNat]⟩

/-- The shared form of the token-engine instructions. -/
def tokForm (kind : TokKind) (o : OpsDAB) (s : State) : Res :=
  agentForm s [s.q4Trap 4] (dabDemand o) 4 o.d.toNat (fun s v sl =>
    s.beginTok (tokRequest kind s.sched.cur o.d.toNat v.a v.b sl))

/-- TOKC (R205, R206): in an ordered task the commit is recorded and made at release. -/
def execTokc (o : OpsDAB) (s : State) : Res :=
  if !s.ordered || s.part = .ny7710 then tokForm .commit o s
  else issueAfter s [] (dabDemand o) noChecks (fun v sl =>
    if !s.coreRelease || s.acqWait || 8 ≤ sl.q4 then .next s
    else
      let sl1 := { sl.pendG o.d.toNat with q4 := sl.q4 + 1 }
      if modOf sl.task.dcore != s.fabric.self then
        .next (s.askHome (sl1.advance s.sched.ir))
      else
        let done (s : State) : State := s.retire (s.writeG sl o.d.toNat 0x80)
        match s.orderedOf (s.partOf sl.task.launch) with
        | none => .next (done s)
        | some od =>
          match appendIrrev s (coreOf sl.task.dcore) sl.task.spec od (w64 (4 * 2 ^ 56), v.a, v.b, 0) with
          | .ok s => .next (done s)
          | .wait s => .next s
          | .unlogged s => .next s)

/-- TOKENC (R205). -/
def execTokenc (o : OpsDAB) (s : State) : Res := tokForm .encode o s

/-- TOKDEC (R205). -/
def execTokdec (o : OpsDAB) (s : State) : Res := tokForm .decode o s

/-- MASKQ (R205). -/
def execMaskq (o : OpsDAB) (s : State) : Res := tokForm .mask o s

/-- A request of the engine's own for a sequence. -/
def ownRequest (kind : TokKind) (seq : Nat) (b : Word) (job launch : Nat) (user : Bool) : TokOp :=
  { kind := kind, seq := seq, b := b, job := job, launch := launch, handler := false, user := user, id := none,
    noTpl := false, inTpl := false, stalled := false, derived := false, asked := false, seen := false }

/-- INJECTION (R202): a sequence-bound future has left CALLED. -/
def execInjection (idx : Nat) (s : State) : Res :=
  let f := s.futureAt idx
  if !f.sb || f.st < 3 then .next s
  else .next (s.beginTok (ownRequest .inject f.seqi (w64 (handleOf f.gen idx)) f.job f.launch f.user))

/-- WAITING_TO_CALLING (R192): a future entry has freed, and the oldest WAITING sequence makes its call. -/
def execWaitingToCalling (s : State) : Res :=
  match s.agents.waitingSeqs with
  | [] => .next s
  | (q, job) :: rest =>
    if s.freeFutureIndex.isNone then .next s
    else
      let s := (s.setAgents { s.agents with waitingSeqs := rest }).beginTok (ownRequest .call q 0 job 65536 true)
      .next (if rest.isEmpty then s else s.post .waitingToCalling)

end Sys2Proof.Machine
end

