-- ==== Sys2Proof/Machine/Harts.lean ====
section
/-! DEFINITION. Tool harts: their CSRs, translation and capabilities, how they take and leave exceptions, and the exceptions
that end a context's calls (spec 08 R207 to R210, 11 R279). R207 names RV64IMAFDC, V, Zicsr, Zifencei, Sv48 and the three
modes; what those words mean is taken from the RISC-V manuals (notes/assumptions/25). -/

namespace Sys2Proof.Machine

open Sys2Proof

/-! ## Harts -/

/-- A tool hart with nothing loaded. -/
def Hart.empty : Hart :=
  { pc := 0, x := [], ctx := 0, mMode := false, userMode := true, capBase := [], capCtl := [], satp := 0, stall := none, f := [], csr := [] }

/-- A tool hart. -/
def State.hartAt (s : State) (n : Nat) : Hart := mget s.agents.harts n Hart.empty

/-- Replaces a tool hart. -/
def State.setHart (s : State) (n : Nat) (h : Hart) : State :=
  s.setAgents { s.agents with harts := mput s.agents.harts n h }

/-- A register of a hart; x0 reads zero. -/
def Hart.r (h : Hart) (i : Reg) : Word := if i = 0 then 0 else mget h.x i.toNat 0

-- CSR numbers of the base instruction set.
def csrFcsr : Nat := 0x003
def csrStvec : Nat := 0x105
def csrSepc : Nat := 0x141
def csrScause : Nat := 0x142
def csrStval : Nat := 0x143
def csrMstatus : Nat := 0x300
def csrMedeleg : Nat := 0x302
def csrMideleg : Nat := 0x303
def csrMie : Nat := 0x304
def csrMtvec : Nat := 0x305
def csrMcounteren : Nat := 0x306
def csrScounteren : Nat := 0x106
def csrMepc : Nat := 0x341
def csrMcause : Nat := 0x342
def csrMtval : Nat := 0x343
def csrMip : Nat := 0x344

/-- A CSR as it is held; one that nothing has written is zero. -/
def Hart.reg (h : Hart) (n : Nat) : Nat := (mget h.csr n 0).toNat

/-- Replaces a CSR. -/
def Hart.setReg (h : Hart) (n v : Nat) : Hart := { h with csr := mput h.csr n (w64 v) }

/-- The privilege level: 0 user, 1 supervisor, 3 machine. -/
def Hart.level (h : Hart) : Nat := if h.mMode then 3 else if h.userMode then 0 else 1

/-- The hart at a privilege level. -/
def Hart.atLevel (h : Hart) (l : Nat) : Hart := { h with mMode := l == 3, userMode := l == 0 }

/-- A number with bits hi down to lo replaced. -/
def putBits (x hi lo v : Nat) : Nat := x - bits x hi lo * 2 ^ lo + v % 2 ^ (hi + 1 - lo) * 2 ^ lo

/-- The hart as its loads and stores are checked: under MPRV at the level of MPP. -/
def Hart.data (h : Hart) : Hart :=
  if h.mMode && bit (h.reg csrMstatus) 17 then h.atLevel (bits (h.reg csrMstatus) 12 11) else h

/-- Where a trap goes for a vector register: interrupts by their number when the register says so. -/
def trapPc (tvec cause : Nat) (intr : Bool) : Word :=
  w64 (tvec / 4 * 4 + if intr && tvec % 4 = 1 then 4 * cause else 0)

/-- Trap entry of the base instruction set: at S-level when it is delegated, else at M-level. -/
def Hart.enter (h : Hart) (cause : Nat) (tval : Word) (intr : Bool) : Hart :=
  let st := h.reg csrMstatus
  let code := cause + if intr then 2 ^ 63 else 0
  if !h.mMode && bit (h.reg (if intr then csrMideleg else csrMedeleg)) cause then
    let st := putBits (putBits (putBits st 8 8 h.level) 5 5 (bits st 1 1)) 1 1 0
    let h1 := (((h.setReg csrMstatus st).setReg csrSepc h.pc.toNat).setReg csrScause code).setReg csrStval tval.toNat
    { h1.atLevel 1 with pc := trapPc (h.reg csrStvec) cause intr }
  else
    let st := putBits (putBits (putBits st 12 11 h.level) 7 7 (bits st 3 3)) 3 3 0
    let h1 := (((h.setReg csrMstatus st).setReg csrMepc h.pc.toNat).setReg csrMcause code).setReg csrMtval tval.toNat
    { h1.atLevel 3 with pc := trapPc (h.reg csrMtvec) cause intr }

/-- MRET: the level of MPP, and control at mepc. -/
def Hart.mret (h : Hart) : Hart :=
  let st := h.reg csrMstatus
  let l := bits st 12 11
  let st := putBits (putBits (putBits st 3 3 (bits st 7 7)) 7 7 1) 12 11 0
  let st := if l = 3 then st else putBits st 17 17 0
  { (h.setReg csrMstatus st).atLevel l with pc := w64 (h.reg csrMepc) }

/-- SRET: the level of SPP, and control at sepc. -/
def Hart.sret (h : Hart) : Hart :=
  let st := h.reg csrMstatus
  let l := bits st 8 8
  let st := putBits (putBits (putBits (putBits st 1 1 (bits st 5 5)) 5 5 1) 8 8 0) 17 17 0
  { (h.setReg csrMstatus st).atLevel l with pc := w64 (h.reg csrSepc) }

/-- The interrupt that a hart takes before its next instruction, by its priority: only its own writes to mip make one
pending, for the spec gives a tool core no timer and no interrupt controller. -/
def Hart.interrupt (h : Hart) : Option Nat :=
  let pend := h.reg csrMip &&& h.reg csrMie
  let st := h.reg csrMstatus
  let on (i : Nat) : Bool := bit pend i &&
    (if bit (h.reg csrMideleg) i then h.level < 1 || (h.level == 1 && bit st 1) else h.level < 3 || bit st 3)
  [11, 3, 7, 9, 1, 5].find? on

/-- A custom instruction writes its result and the hart goes on (R211). -/
def State.hartDone (s : State) (n : Nat) (rd : Reg) (v : Word) : State :=
  let h := s.hartAt n
  s.setHart n { h with x := if rd = 0 then h.x else mput h.x rd.toNat v, pc := h.pc + 4 }

/-! ## Capabilities and translation (R208, R209) -/

/-- What an access of a hart needs: 0 load, 1 store, 2 AMO, 3 fetch. -/
inductive HartNeed | load | store | amo | fetch
  deriving DecidableEq, Repr

/-- The access-fault cause of an access (R209). -/
def HartNeed.accessCause : HartNeed → Nat
  | .fetch => 1
  | .load => 5
  | .store | .amo => 7

/-- The page-fault cause of an access. -/
def HartNeed.pageCause : HartNeed → Nat
  | .fetch => 12
  | .load => 13
  | .store | .amo => 15

/-- Whether a capability word grants an access. -/
def capGrants (ctl : Nat) : HartNeed → Bool
  | .load => bit ctl 1
  | .store => bit ctl 2
  | .amo => bit ctl 1 && bit ctl 2
  | .fetch => bit ctl 3

/-- Whether capability i covers a physical range. -/
def Hart.covers (h : Hart) (i pa n : Nat) : Bool :=
  let ctl := (mget h.capCtl i 0).toNat
  let base := (mget h.capBase i 0).toNat
  bit ctl 0 && decide (base ≤ pa) && decide (pa + n ≤ base + bits ctl 63 16)

/-- Whether one capability covers a range and grants the access (R209). -/
def Hart.allowed (h : Hart) (need : HartNeed) (pa n : Nat) : Bool :=
  h.mMode || (List.range 16).any (fun i => h.covers i pa n && capGrants (mget h.capCtl i 0).toNat need)

/-- Whether a tool core reaches n bytes at a physical address: populated memory of regions 0x0 and 0x1 (R209,
notes/assumptions/25). -/
def hartReach (s : State) (pa n : Nat) : Bool := pa < 2 ^ 52 && region pa ≤ 1 && paOk s pa && paOk s (pa + n - 1)

/-- The entry of a hart's table for an address at a level. -/
def hartPte (s : State) (va level table : Nat) : Nat :=
  bytesNat (s.mem.read 0 (table + 8 * (va / 2 ^ (12 + 9 * level) % 512)) 8)

/-- Whether a page-table entry permits an access at the level of a hart. -/
def Hart.mayUse (h : Hart) (pte : Nat) (need : HartNeed) : Bool :=
  (match need with
    | .load => bit pte 1 || (bit (h.reg csrMstatus) 19 && bit pte 3)
    | .store | .amo => bit pte 2 && bit pte 7
    | .fetch => bit pte 3) && bit pte 6 &&
  (bit pte 4 == h.userMode || (bit pte 4 && bit (h.reg csrMstatus) 18 && need != .fetch))

/-- The Sv48 walk of a hart (notes/assumptions/25): the physical address, or none for a page fault. -/
def sv48 (s : State) (h : Hart) (va : Nat) (need : HartNeed) : Nat → Nat → Nat → Option Nat
  | 0, _, _ => none
  | fuel + 1, level, table =>
    let pte := hartPte s va level table
    let leaf := bit pte 1 || bit pte 3
    if !bit pte 0 || (!bit pte 1 && bit pte 2) || bits pte 63 54 != 0 then none
    else if !leaf then (if level = 0 then none else sv48 s h va need fuel (level - 1) (bits pte 53 10 * 4096))
    else
      let ok := h.mayUse pte need
      let size := 2 ^ (12 + 9 * level)
      if !ok || bits pte 53 10 * 4096 % size != 0 then none else some (bits pte 53 10 * 4096 + va % size)

/-- The physical address of an access of a hart, or none for a page fault. -/
def hartPa (s : State) (h : Hart) (va : Nat) (need : HartNeed) : Option Nat :=
  if h.mMode || bits h.satp.toNat 63 60 = 0 then some va
  else if bits h.satp.toNat 63 60 != 9 || (va / 2 ^ 47 != 0 && va / 2 ^ 47 != 2 ^ 17 - 1) then none
  else sv48 s h va need 4 3 (bits h.satp.toNat 43 0 * 4096)

/-- Whether a walk of a hart meets a table that a tool core does not reach: an access fault. -/
def walkLost (s : State) (va : Nat) : Nat → Nat → Nat → Bool
  | 0, _, _ => false
  | fuel + 1, level, table =>
    let pte := hartPte s va level table
    if !hartReach s (table + 8 * (va / 2 ^ (12 + 9 * level) % 512)) 8 then true
    else if !bit pte 0 || bit pte 1 || bit pte 3 || level = 0 then false
    else walkLost s va fuel (level - 1) (bits pte 53 10 * 4096)

/-- What an access of a hart meets: its physical address, or the cause of its exception (R209). A page fault takes
precedence. Tool cores reach regions 0x0 and 0x1 (notes/assumptions/25). -/
def hartAccess (s : State) (h : Hart) (va n : Nat) (need : HartNeed) : Nat ⊕ Nat :=
  match hartPa s h va need with
  | none =>
    if bits h.satp.toNat 63 60 == 9 && walkLost s va 4 3 (bits h.satp.toNat 43 0 * 4096) then .inr need.accessCause
    else .inr need.pageCause
  | some pa => if !hartReach s pa n || !h.allowed need pa n then .inr need.accessCause else .inl pa

/-- Reads bytes one by one; a fault names its cause and the first faulting byte. -/
def hartRead (s : State) (h : Hart) : Nat → Nat → List Byte ⊕ (Nat × Nat)
  | _, 0 => .inl []
  | va, n + 1 =>
    match hartAccess s h va 1 .load with
    | .inr c => .inr (c, va)
    | .inl pa => match hartRead s h (va + 1) n with
      | .inl l => .inl (s.mem.readByte 0 pa :: l)
      | .inr f => .inr f

/-- The first byte of a run that cannot be stored, with its cause. -/
def hartStoreFault (s : State) (h : Hart) : Nat → Nat → Option (Nat × Nat)
  | _, 0 => none
  | va, n + 1 =>
    match hartAccess s h va 1 .store with
    | .inr c => some (c, va)
    | .inl _ => hartStoreFault s h (va + 1) n

/-- Stores one byte of a hart. -/
def State.hartPut (s : State) (h : Hart) (va : Nat) (b : Byte) : State :=
  match hartAccess s h va 1 .store with
  | .inr _ => s
  | .inl pa => s.setMem (s.mem.write 0 pa [b])

/-- Stores a run of bytes of a hart. -/
def State.hartStore (s : State) (h : Hart) : Nat → List Byte → State
  | _, [] => s
  | va, b :: l => (s.hartPut h va b).hartStore h (va + 1) l

/-! ## Exceptions of a context (R210) -/

/-- Ends the calls of a context with a reason, but for those whose reply is being written. -/
def State.failCalls (s : State) (l : List Nat) (reason : Nat) : State :=
  l.foldl (fun s h => if replying s h then s else s.endCall h 4 reason 0) s

/-- The context's calls fail, its queue is cleared, and it restarts from its entry image (R210). -/
def State.failContext (s : State) (c reason : Nat) : State :=
  let q := s.ctx c
  let s := (s.failCalls q.taken reason).failCalls q.queue reason
  s.setAgents { s.agents with harts := s.agents.harts.map (fun (x : Nat × Hart) =>
    if x.2.ctx = c && x.2.userMode then (x.1, { x.2 with pc := q.imgPc, x := q.imgX, stall := none }) else x) }

/-- TOOL_ACCESS_FAULT (R210): from U-mode the context's calls fail with reason 6. -/
def execToolAccessFault (hart _cause : Nat) (_va : Word) (s : State) : Res :=
  let h := s.hartAt hart
  if h.userMode && !h.mMode then .next (s.failContext h.ctx 6) else .next s

/-- TOOL_EXCEPTION (R210): served, and the context goes on; else its calls fail with reason 11. -/
def execToolException (hart _cause : Nat) (served : Bool) (s : State) : Res :=
  let h := s.hartAt hart
  if served || !h.userMode || h.mMode then .next s else .next (s.failContext h.ctx 11)

/-- A hart's instruction takes an exception. Those of U-mode go to the tool supervisor (R210), which serves page faults or not;
those of S-mode and M-mode enter the handler of the base instruction set. -/
def hartTrap (s : State) (n cause va : Nat) : Res :=
  let h := s.hartAt n
  if !h.userMode || h.mMode then .next (s.setHart n (h.enter cause (w64 va) false))
  else if cause = 1 || cause = 5 || cause = 7 then .next (s.post (.toolAccessFault n cause (w64 va)))
  else .next (s.post (.toolException n cause ((cause == 12 || cause == 13 || cause == 15) && s.choice Config.useTool)))

end Sys2Proof.Machine
end

