-- ==== Sys2Proof/Machine/Tools.lean ====
section
/-! DEFINITION. The custom-0 instructions of the tool cores, the writes to their capability registers and the accesses of
their caches (spec 08 R208 to R211, 11 R276, R279). -/

namespace Sys2Proof.Machine

open Sys2Proof

/-- A write to CAPBASEn, CAPCTLn or CTXID (R208). -/
def execCapCsrWrite (hart csr : Nat) (mMode : Bool) (v : Word) (s : State) : Res :=
  let h := s.hartAt hart
  if h.userMode && !mMode then .next (s.post (.toolException hart 2 false))
  else if csr = 0x5E0 then .next (s.setHart hart { h with ctx := bits v.toNat 11 0 })
  else if csr < 0x5C0 || 0x5DF < csr then .next s
  else
    let i := (csr - 0x5C0) / 2
    if !mMode && bit (mget h.capCtl i 0).toNat 4 then .next s
    else if csr % 2 = 0 then .next (s.setHart hart { h with capBase := mput h.capBase i (w64 (bits v.toNat 51 0)) })
    else .next (s.setHart hart { h with capCtl := mput h.capCtl i (w64 (bits v.toNat 63 16 * 2 ^ 16 + bits v.toNat 4 0)) })

/-- TOOL_CORE_ACCESS (R209, R276, R279): checked, then performed at the home; a store or AMO leaves the value it
carries. -/
def execToolCoreAccess (hart : Nat) (va : Word) (size : Nat) (k : ToolAccess) (s : State) : Res :=
  let h := s.hartAt hart
  let need : HartNeed := match k with
    | .load => .load
    | .store _ => .store
    | .amo _ => .amo
    | .fetch => .fetch
  match hartAccess s h va.toNat size need with
  | .inr c => hartTrap s hart c va.toNat
  | .inl pa => match lineBusy s pa (need == .store || need == .amo) with
    | some s => .next (s.after 1 (.toolCoreAccess hart va size k))
    | none => match k with
      | .load | .fetch => .next (s.heat pa)
      | .store v | .amo v =>
        let s := s.heat pa
        .next (s.setMem (clearPoison (s.mem.write 0 pa (natBytes size v.toNat)) pa size))

/-! ## fut.arg, fut.resolve, fut.fail, cap.probe (R211) -/

/-- fut.arg selector 0: takes the oldest queued call. -/
def execFutArgTake (_rs2 _rs1 rd : Reg) (s : State) : Res :=
  let n := s.sched.hart
  let c := (s.hartAt n).ctx
  let q := s.ctx c
  match q.queue with
  | [] => .next (s.hartDone n rd 0)
  | h :: rest =>
    let s := s.setCtx c { q with queue := rest, taken := q.taken ++ [h] }
    .next ((s.hartDone n rd (w64 h)).post (.futureQueueEntry c))

/-- The future of a handle that the hart's context holds. -/
def State.held (s : State) (n : Nat) (h : Word) : Option Future :=
  if (s.ctx (s.hartAt n).ctx).taken.contains h.toNat then s.byHandle h.toNat else none

/-- A selector that shows a field of a held handle; 1 for any other handle. -/
def futArgForm (rs1 rd : Reg) (f : Future → Word) (s : State) : Res :=
  let n := s.sched.hart
  .next (s.hartDone n rd (((s.held n ((s.hartAt n).r rs1)).map f).getD 1))

/-- fut.arg selector 1: ARGLEN. -/
def execFutArgLen (_rs2 rs1 rd : Reg) (s : State) : Res := futArgForm rs1 rd (fun f => w64 f.arglen) s

/-- fut.arg selector 2: whole µs left before DEADLINE. -/
def execFutArgDeadline (_rs2 rs1 rd : Reg) (s : State) : Res :=
  futArgForm rs1 rd (fun f => if f.dlus = 0 then -1 else w64 ((f.deadline - s.now) / 1700)) s

/-- fut.arg selector 3: TOOL. -/
def execFutArgTool (_rs2 rs1 rd : Reg) (s : State) : Res := futArgForm rs1 rd (fun f => w64 f.tool) s

/-- fut.arg selector 4: copies the argument bytes. Of a copy that faults, the bytes before the fault may be written. -/
def execFutArgCopy (rs2 rs1 rd : Reg) (s : State) : Res :=
  let n := s.sched.hart
  let h := s.hartAt n
  match s.held n (h.r rs1) with
  | none => .next (s.hartDone n rd 1)
  | some f =>
    match uread f.client f.argva f.arglen s with
    | .wait s => .next s
    | .stop _ => .next s
    | .zpage p va =>
      let s := s.setHart n { h with stall := some s.mem.nextToken }
      .next (s.askPage p f.job va f.launch (.hart n (h.r rs1).toNat))
    | .fault c lv a va =>
      match s.unitPark (unitFault s 7 unitFuture f.job c lv a va) f.launch false (.hart n (h.r rs1).toNat) with
      | none => .next s
      | some s' => .next (s'.setHart n { h with stall := some s.mem.nextToken })
    | .ok l s =>
      let s := s.dropUnitLines
      let va := (h.r rs2).toNat
      match hartStoreFault s h va l.length with
      | none => .next ((s.hartStore h va l).hartDone n rd (w64 l.length))
      | some (c, bad) =>
        hartTrap (if s.choice Config.useTool then s.hartStore h va (l.take (bad - va)) else s) n c bad

/-- fut.resolve (R211): the descriptor, then LEN, then the reply bytes. -/
def execFutResolve (rs2 rs1 rd : Reg) (s : State) : Res :=
  let n := s.sched.hart
  let h := s.hartAt n
  let k := (h.r rs1).toNat
  match s.held n (h.r rs1) with
  | none => .next (s.hartDone n rd 1)
  | some f =>
    match hartRead s h (h.r rs2).toNat 16 with
    | .inr (c, va) => hartTrap s n c va
    | .inl d =>
      let len := bits (wordAt d 1).toNat 31 0
      if bits (localWord s f.tool 1) 63 48 * 1024 < len || f.repcap < len then
        .next (if s.accepts k f.job then (s.endCall k 4 8 0).hartDone n rd 2 else s.hartDone n rd 1)
      else match hartRead s h (wordAt d 0).toNat len with
        | .inr (c, va) => hartTrap s n c va
        | .inl l =>
          let s := s.scanFirst (k % 65536)
          .next (if s.accepts k f.job then (s.putReply k 0 l).hartDone n rd 0 else s.hartDone n rd 1)

/-- fut.fail (R211). -/
def execFutFail (rs2 rs1 rd : Reg) (s : State) : Res :=
  let n := s.sched.hart
  let h := s.hartAt n
  let k := (h.r rs1).toNat
  let reason := bits (h.r rs2).toNat 7 0
  match s.held n (h.r rs1) with
  | none => .next (s.hartDone n rd 1)
  | some f =>
    if reason != 1 && reason != 2 then .next (s.hartDone n rd 3)
    else
      let s := s.scanFirst (k % 65536)
      .next (if s.accepts k f.job then (s.endCall k 4 reason 0).hartDone n rd 0 else s.hartDone n rd 1)

/-- The pages of a range: the address and length of its part in each. -/
def pagesOf : Nat → Nat → Nat → List (Nat × Nat)
  | 0, _, _ => []
  | fuel + 1, va, n => if n = 0 then [] else
      let m := min n (4096 - va % 4096)
      (va, m) :: pagesOf fuel (va + m) (n - m)

/-- cap.probe (R211): the lowest capability that covers a range with all the kinds asked for; never faults. -/
def execCapProbe (rs2 rs1 rd : Reg) (s : State) : Res :=
  let n := s.sched.hart
  let h := s.hartAt n
  let va := (h.r rs1).toNat
  let w := (h.r rs2).toNat
  let len := if bits w 63 16 = 0 then 1 else bits w 63 16
  let pages := (pagesOf (len / 4096 + 2) va len).map (fun p => (hartPa s h p.1 .load).map (fun pa => (pa, p.2)))
  let grants (i : Nat) : Bool :=
    let ctl := (mget h.capCtl i 0).toNat
    (!bit w 0 || bit ctl 1) && (!bit w 1 || bit ctl 2) && (!bit w 2 || bit ctl 3)
  let ok (i : Nat) : Bool := grants i && pages.all (fun p => p.elim false (fun x => h.covers i x.1 x.2))
  .next (s.hartDone n rd (((List.range 16).find? ok).elim (-1) w64))

end Sys2Proof.Machine
end

