-- ==== Sys2Proof/Machine/Levee.lean ====
section
/-! DEFINITION. Rollback, anti-messages, the levee sweep, commit, completion sweeps
(spec 07 R166, R169 to R176, R179 to R188, R448). -/

namespace Sys2Proof.Machine

open Sys2Proof

/-! ## Rollback (R170, R171) -/

/-- The tasks whose sets meet a victim's writes at a higher key. -/
def meets (c : Core) (v : List Nat) (x : Nat × SpecEnt) : Bool :=
  !v.contains x.1 && v.any (fun z => match mget? c.spec z with
    | none => false
    | some e => decide (e.key < x.2.key) && ((x.2.rset ||| x.2.wset) &&& e.wset) != 0)

/-- The closure of a set of tasks on a core (R170). -/
def closure (c : Core) : Nat → List Nat → List Nat
  | 0, v => v
  | n + 1, v =>
    let more := (c.spec.filter (meets c v)).map (·.1)
    if more.isEmpty then v else closure c n (v ++ more)

/-- Whether a task is that of a speculation entry of a core. -/
def ofEntry (s : State) (k y : Nat) (t : Task) : Bool :=
  t.ord && t.dcore == gcid s k && t.spec == y && t.sgen == mget (s.coreAt k).gens y 0

/-- The slots of the module that hold the thread of an entry, and not a request of it. -/
def threadsOf (s : State) (k y : Nat) : List SlotId :=
  s.cores.flatMap (fun c => (c.2.slots.filter (fun x => x.2.st != .free && !x.2.reserved && x.2.serving.isNone && ofEntry s k y x.2.task)).map
    (fun x => (⟨c.1, x.1⟩ : SlotId)))

/-- A waiting fault is withdrawn (R171): its token becomes stale, and its record goes if its writing to the ring has not begun
(notes/assumptions/95). -/
def State.withdraw (s : State) (tok : Nat) : State :=
  let s := s.setMem { s.mem with replay := s.mem.replay.filter (fun r => r.token != tok) }
  s.setWork { s.work with launches := s.work.launches.map (fun (l : Nat × Launch) => (l.1, { l.2 with
    stalled := l.2.stalled.filter (fun w => !(w.1 == 0 && w.2.2.2.2 == w64 tok)) })) }

/-- Whether a victim's thread is stopped at once: on its own core, and anywhere while it is parked on a fault or waits on a
trap (R171). -/
def stopsNow (k : Nat) (id : SlotId) (st : SlotSt) : Bool :=
  match st with
  | .away => false
  | .fault _ | .trapHeld _ => true
  | _ => id.core == k

/-- Stops one thread of a victim (R171): one that is away is killed at its next issue. -/
def State.stopThread (s : State) (k : Nat) (id : SlotId) : State :=
  let sl := s.slotAt id
  if stopsNow k id sl.st then
    let s := if id.core = k then (s.unpin k sl.task.pins).dropTable k sl.task else s
    let s := match sl.st with
      | .fault tok => s.withdraw tok
      | _ => s
    let cl := clusterOf k
    let c := s.cluster cl
    (s.setCluster cl { c with preempt := c.preempt.filter (fun p => !(p.2.1 == id.core && p.2.2 == id.slot)) }).dropThread id
  else
    s.setSlot id { sl with doomed := true }

/-- The queue entry of a victim that has been saved, or whose footprint is being fetched, is taken back (R171). -/
def State.stopQueued (s : State) (k y : Nat) : State :=
  let cl := clusterOf k
  ((s.cluster cl).queue.filter (fun q => match q.st with
    | .fetch kk n => kk == k && ofEntry s k y (s.slotAt ⟨kk, n⟩).task
    | .saved kk _ => kk == k && q.task.any (ofEntry s k y)
    | .resume kk _ _ => kk == k && q.task.any (ofEntry s k y)
    | _ => false)).foldl (fun s q =>
      let s := (s.mem.replay.filter (fun r => r.what == .footprint cl q.id)).foldl (fun s r => s.withdraw r.token) s
      let t := q.task.getD Task.reset
      let s := match q.st with
        | .fetch kk n =>
          let sl := s.slotAt ⟨kk, n⟩
          ((s.unpin kk sl.task.pins).dropTable kk sl.task).freeSlot ⟨kk, n⟩
        | .saved _ b => s.freeBlock t b
        | .resume kk n b =>
          let sl := s.slotAt ⟨kk, n⟩
          (((s.unpin kk sl.task.pins).dropTable kk sl.task).freeSlot ⟨kk, n⟩).freeBlock t b
        | _ => s
      s.dropTask cl q.id) s

/-- What a core keeps of a victim that runs in another module is given back; the modules are told to kill it at its next issue
(R171, notes/assumptions/95). -/
def State.stopAway (s : State) (k y : Nat) : State :=
  let c := s.coreAt k
  let mine := c.away.filter (ofEntry s k y)
  let s := s.setCore k { c with away := c.away.filter (fun t => !ofEntry s k y t) }
  mine.foldl (fun s t => ((s.unpin k t.pins).dropTable k t).askAll 1 k (s.partOf t.launch)
    (.doomed t.dcore t.launch t.spec t.sgen.toNat)) s

/-- DOOMED of another module (R171): its task's thread here is killed at its next issue. -/
def execDoomedArrival (dcore launch spec sgen : Nat) (s : State) : Res :=
  .next { s with cores := s.cores.map (fun (c : Nat × Core) => (c.1, { c.2 with
    slots := c.2.slots.map (fun (x : Nat × Slot) =>
      let t := x.2.task
      (x.1, if x.2.st != .free && t.ord && t.dcore == dcore && t.launch == launch && t.spec == spec && t.sgen.toNat == sgen
        then { x.2 with doomed := true } else x.2)) })) }

/-- Stops a victim (R171). The pins of one that is away in this module go with those of its task. -/
def State.stopVictim (s : State) (k y : Nat) : State :=
  let ts := threadsOf s k y
  let s := ((s.stopQueued k y).stopAway k y)
  let gone := ts.filter (fun id => id.core != k || (s.slotAt id).st == .away)
  let s := (gone.take 1).foldl (fun s id => (s.unpin k (s.slotAt id).task.pins).dropTable k (s.slotAt id).task) s
  ts.foldl (fun s id => s.stopThread k id) s

/-- The anti-message of a posted child (R175). -/
def antiOf (p : Words8) : Words8 := { p with w2 := p.w2 ||| w64 (2 ^ 57) }

/-- Sends an anti-message (R175, R179). -/
def State.sendAnti (s : State) (k : Nat) (p : Words8) (target : Nat) : State :=
  let part := s.partOf (packetLaunch p)
  let colour := s.colourAt k part
  let s := s.countSent k part (keyOfPacket p)
  let cl := clusterOf (coreOf target)
  if modOf target = s.fabric.self then s.send (2 ^ 27 + k) cl (.antiMessageArrival cl colour (antiOf p))
  else s.ask 6 (modOf target) 0 k 15 part (packetLaunch p) (.anti cl colour (antiOf p))

/-- Restores a row from its image (R170, R173). Writes on their way to it are dropped. -/
def State.restoreRow (s : State) (k row : Nat) (image : List Byte) (fe psn : Bool) : State :=
  let c := s.coreAt k
  let c := { c with writes := c.writes.filter (fun w => w.off / 64 != row && (w.off + w.data.length - 1) / 64 != row) }
  let s := (s.setCore k c).scrPut k (64 * row) image
  let c := s.coreAt k
  let s := s.setCore k (c.setRow row { c.row row with poison := psn })
  s.setFull (scrPa k (64 * row)) fe

/-- Undoes one log entry (R170). -/
def State.undoEntry (s : State) (k : Nat) (e : LogEnt) : State :=
  match e.kind with
  | .rowImg row image fe psn => s.restoreRow k row image fe psn
  | .child p target => s.sendAnti k p target
  | _ => s

/-- A victim goes back to its queue with its key and its enqueue STAMP, or is gone (R166, R170, R184). -/
def State.requeue (s : State) (k y : Nat) (e : SpecEnt) : State :=
  let s := s.freeSpec k y
  let launch := packetLaunch e.pkt
  if e.annihilated || (s.launchAt launch).elim true Launch.cancelled then s.lowerCount launch
  else
    let t := { newQTask s e.pkt false with enq := e.enq }
    s.bumpTask.enqueue (clusterOf k) t

/-- Whether a stream of a stopped ordered task of a core still runs its current command (R171). -/
def ordStreams (s : State) (k : Nat) : Bool :=
  (s.coreAt k).mx.any (fun m => m.ord && m.stop) ||
  (s.cluster (clusterOf k)).copies.any (fun x => x.2.core == k && x.2.ord && x.2.stop)

/-- ROLL_BACK (R170): the closure is stopped; once its streams have stopped (R171) its log is undone in descending order and
its tasks are queued again. -/
def execRollBack (core : Nat) (victims : List Nat) (s : State) : Res :=
  let c := s.coreAt core
  let v := victims.filter (fun y => (mget? c.spec y).isSome)
  if v.isEmpty then .next s
  else
    let v := closure c 48 v
    let s := v.foldl (fun s y => s.stopVictim core y) s
    if ordStreams s core then .next (s.after 1 (.rollBack core v))
    else
    let s := (s.setCore core { s.coreAt core with rolls := (s.coreAt core).rolls + 1 }).countLife (lifeRollback + coreDie core) 48 1
    let es := ((s.coreAt core).log.filter (fun e => v.contains e.spec)).reverse
    let s := es.foldl (fun s e => s.undoEntry core e) s
    .next (v.foldl (fun s y => match mget? (s.coreAt core).spec y with
      | none => s
      | some e => s.requeue core y e) s)

/-! ## Anti-messages (R176) -/

/-- Whether a queue entry is the positive of an anti-message and has not begun to run. -/
def isPositive (hdr : Words8) (t : QTask) : Bool := matchesAnti t.pkt hdr && t.st == .waitw

/-- The entry of a cluster's cores that runs or holds the positive. -/
def runningPositive (s : State) (cl : Nat) (hdr : Words8) : Option (Nat × Nat) :=
  ((List.range 16).flatMap (fun n =>
    let k := clusterCore cl n
    ((s.coreAt k).spec.filter (fun e => matchesAnti e.2.pkt hdr)).map (fun e => (k, e.1)))).head?

/-- ANTI_MESSAGE_ARRIVAL (R176, R156). -/
def execAntiMessageArrival (cluster : Nat) (colour : Bool) (hdr : Words8) (s : State) : Res :=
  let s := s.arrive (.antiMessageArrival cluster colour hdr)
  let affc := clusterCore cluster (bits hdr.w3.toNat 35 32)
  let k := if bit hdr.w2.toNat 58 then s.forwarded affc else affc
  let cl := if k = affc then cluster else clusterOf k
  let launch := packetLaunch hdr
  let c := s.cluster cl
  let took (s : State) : State := s.countRecv (clusterCore cl 0) (s.partOf launch) colour
  match (c.queue ++ c.ring).find? (isPositive hdr) with
  | some t =>
    let s := (took s).setCluster cl (
      let c := (took s).cluster cl
      { c with queue := c.queue.filter (fun x => x.id != t.id), ring := c.ring.filter (fun x => x.id != t.id) })
    let s := s.setMem { s.mem with waiters := s.mem.waiters.filter (fun w =>
      !(w.acc.how == .await && w.acc.pc == w64 t.id && clusterOf (coreOf (w.acc.org / 16)) == cl)) }
    .next ((s.lowerCount launch).post (.overflowReturn cl))
  | none =>
    match runningPositive s cl hdr with
    | some (k, y) =>
      let c := s.coreAt k
      let s := match mget? c.spec y with
        | some e => s.setCore k { c with spec := mput c.spec y { e with annihilated := true } }
        | none => s
      .next ((took s).post (.rollBack k [y]))
    | none =>
      if queueFull s cl then
        .next (s.setCluster cl { c with blocked := c.blocked ++ [(⟨2 ^ 20, 0⟩, colour, hdr)] })
      else
        let t := { newQTask s { hdr with w2 := hdr.w2 &&& ~~~(w64 (2 ^ 57)) } false with st := .anti }
        .next (took (s.bumpTask.enqueue cl t))

/-! ## Commit (R183, R186) -/

/-- Sends a released store to its home, a posted write of the slot that ran its task (R65, R183, R344): a fault has ACCESS 9
and waits. -/
def State.releaseStore (s : State) (id : SlotId) (job launch : Nat) (va : Word) (how : Perform) : State :=
  let a (pa : Nat) : Access :=
    { srcs := [⟨gcid s id.core, id.slot, 1⟩], org := gcid s id.core * 16 + id.slot, va := va, pa := pa, pc := 0, job := job,
      launch := launch, part := s.partOf launch, user := false, ord := false, handler := false, release := true, dst := 0,
      how := how }
  let s := s.setSlot id { s.slotAt id with posted := (s.slotAt id).posted + 1 }
  match translate s id.core job false va .write with
  | (.ok x, s) =>
    let s := s.flushOwn id.core x.dev (x.pa / 64)
    if x.dev = s.fabric.self then s.send (srcKey id.core 15) (homeOf x.pa) (.homeAccess (a x.pa))
    else s.askAccess x.dev (a x.pa) (s.accKey job va)
  | (.zpage pte, s) => s.askPage pte job va launch (.access (a 0))
  | (.fault c lv, s) =>
    s.faultOrStop
      { engine := 0, cause := c, job := job, place := gcid s id.core, va := recordVa c va, access := accDeferred,
        size := log2Size (opSize how), spec := false, slot := id.slot, cmd := 0, level := lv, token := 0 } launch false
      (.access (a 0))

/-- Releases a DSTORE record (R173). -/
def State.releaseDstore (s : State) (id : SlotId) (job launch : Nat) (r : Word × Word) : State :=
  s.releaseStore id job launch (sext54 r.1) (.store (2 ^ bits r.1.toNat 63 61) r.2)

/-- Releases an IRREV record to its unit (R178, R183, R206). -/
def State.releaseIrrev (s : State) (id : SlotId) (job launch : Nat) (r : Word × Word × Word × Word) : State :=
  let kind := bits r.1.toNat 63 56
  if kind = 1 then s.event 6 job r.1 r.2.1 r.2.2.1 r.2.2.2
  else if kind = 2 then
    let h := r.2.1.toNat
    s.routeReleased h ((s.byHandle h).elim 0 Future.descva)
  else if kind = 3 then s.releaseStore id job launch r.2.1 (.fill r.2.2.1)
  else s.beginTok (ownRequest .commitAtRelease r.2.1.toNat r.2.2.1 job launch true)

/-- Whether a task has IRREV records (R178). -/
def hasIrrev (c : Core) (y : Nat) : Bool := c.log.any (fun x => x.spec == y && (match x.kind with
  | .irrev _ => true
  | _ => false))

/-- The stores that a task's DSTORE entries hold. -/
def storesHeld (c : Core) (y : Nat) : Nat :=
  (c.log.map (fun x => if x.spec != y then 0 else match x.kind with
    | .dstore l => l.length
    | _ => 0)).foldl (· + ·) 0

/-- The first step of a commit (R183): the DSTORE records are released as posted writes. -/
def State.commitStores (s : State) (k y : Nat) (e : SpecEnt) : State :=
  let launch := packetLaunch e.pkt
  let job := (s.launchAt launch).elim 0 Launch.job
  let c := s.coreAt k
  let s := s.setCore k { c with spec := mput c.spec y { e with st := .committing } }
  (c.log.filter (fun x => x.spec == y)).foldl (fun s x => match x.kind with
    | .dstore l => l.foldl (fun s r => s.releaseDstore ⟨k, e.slot⟩ job launch r) s
    | _ => s) s

/-- The other steps of a commit (R183, R184): the IRREV records go to their units, the log and the entry are freed, and COUNT
falls. -/
def State.commitRest (s : State) (k y : Nat) (e : SpecEnt) : State :=
  let launch := packetLaunch e.pkt
  let job := (s.launchAt launch).elim 0 Launch.job
  let s := ((s.coreAt k).log.filter (fun x => x.spec == y)).foldl (fun s x => match x.kind with
    | .irrev l => l.foldl (fun s r => s.releaseIrrev ⟨k, e.slot⟩ job launch r) s
    | _ => s) s
  let s := s.clearTags k y
  let c := s.coreAt k
  ((s.setCore k { c with spec := mdel c.spec y, log := c.log.filter (fun x => x.spec != y) }).countLife
    (lifeEnergy + 2) 64 1).lowerCount launch

/-- A commit that waits goes on later. -/
def State.commitLater (s : State) (k : Nat) : State :=
  if s.sched.timers.any (fun t => t.ev == .commitGo k) then s else s.after 16 (.commitGo k)

/-- Inserts an entry by ascending key. -/
def insEntry (x : Nat × SpecEnt) : List (Nat × SpecEnt) → List (Nat × SpecEnt)
  | [] => [x]
  | y :: l => if x.2.key < y.2.key then x :: y :: l else y :: insEntry x l

/-- The HELD tasks of a core below a key, in ascending key order (R183). -/
def heldBelow (c : Core) (key : Nat) : List (Nat × SpecEnt) :=
  (c.spec.filter (fun e => e.2.st != .running && decide (e.2.key < key))).foldl (fun l e => insEntry e l) []

/-- Whether a partition is stopped for debug: no task commits (R188). -/
def partStopped (s : State) (part : Nat) : Bool := s.work.stops.any (fun g => g.part == part && g.launch.isNone)

/-- Commits tasks one after the other (R183). A task whose stores the slot's posted count has no room for waits (R65); so does
one with IRREV records until its stores are acknowledged, which the posted count of its slot shows (R281). -/
def State.commitAll (s : State) (k : Nat) : List (Nat × SpecEnt) → State
  | [] => s
  | (y, e) :: l =>
    let posted := (s.slotAt ⟨k, e.slot⟩).posted
    let n := storesHeld (s.coreAt k) y
    if e.st = .committing then
      if posted != 0 then s.commitLater k else (s.commitRest k y e).commitAll k l
    else if posted != 0 && 1023 < posted + n then s.commitLater k
    else
      let s := s.commitStores k y e
      if n != 0 && hasIrrev (s.coreAt k) y then s.commitLater k else (s.commitRest k y e).commitAll k l

/-- The tasks of a core whose keys are below its levee commit, unless the partition is stopped for debug (R183, R188). -/
def State.commitCore (s : State) (k : Nat) : State :=
  match (s.coreAt k).levee with
  | none => s
  | some key => s.commitAll k ((heldBelow (s.coreAt k) key).filter (fun e =>
      e.2.st == .committing || !partStopped s (s.partOf (packetLaunch e.2.pkt))))

/-- A commit that waited goes on (R183, R281). -/
def execCommitGo (core : Nat) (s : State) : Res := .next (s.commitCore core)

/-- The levee reaches a core (R182, R183). -/
def State.leveeAt (s : State) (key k : Nat) : State := (s.setCore k { s.coreAt k with levee := some key }).commitCore k

/-- The held traps of tasks that have become the safe task are delivered (R186). -/
def State.deliverHeld (s : State) : State :=
  (s.cores.flatMap (fun c => (c.2.slots.filter (fun x => x.2.serving.isNone)).filterMap (fun x => match x.2.st with
    | .trapHeld t => some ((⟨c.1, x.1⟩ : SlotId), t)
    | _ => none))).foldl (fun s x => if s.isSafe (s.slotAt x.1).task then s.takeTrap x.1 x.2 else s) s

/-- Whether a levee message of another module is for a launch that this module has reserved and not yet fetched: the hub
keeps it until then (R75, R76). -/
def State.joinsLater (s : State) (m : SweepMsg) : Bool :=
  m.src == hubNode && s.fabric.preps.any (fun p => p.part == m.part && p.st < 3)

/-- LEVPUB (R180, R182, R183): at a cluster, at the dock groups, or at the hub of another module. -/
def execLevpub (m : SweepMsg) (s : State) : Res :=
  let s := s.arrive (.levpub m)
  match s.orderedOf m.part with
  | none => .next (if s.joinsLater m then s.after 1 (.levpub m) else s)
  | some o =>
    if m.src = hubNode then .next (s.levelDown m.part o.launch 3 m Ev.levpub)
    else if m.src = dockNode then
      .next ((s.setWork { s.work with ordered := mput s.work.ordered m.part { o with dockLevee := some m.key.toNat } }).deliverHeld)
    else
      .next (((List.range 16).foldl (fun s n => s.leveeAt m.key.toNat (clusterCore m.src n)) s).deliverHeld)

/-! ## Sweeps (R180, R181) -/

/-- LEVEE_SWEEP_START (R180): the sweep flips the colour when the one before it was accepted. -/
def execLeveeSweepStart (part : Nat) (s : State) : Res :=
  match s.orderedOf part with
  | none => .next s
  | some o =>
    if o.sweeping then .next s
    else
      let colour := if o.accepted then !o.colour else o.colour
      let o1 := { o with sweeping := true, num := (o.num + 1) % 2 ^ 32, got := [], began := s.now, colour := colour }
      let s := s.setWork { s.work with ordered := mput s.work.ordered part o1 }
      .next (s.levelDown part o.launch 1
        { sweepMsg part o1.num 0 with colour := colour, flip := o.accepted } Ev.sweep)

/-- The keys of a cluster's tasks of a launch that count for MINK: queued, RUNNING and waiting (R180). -/
def liveKeys (s : State) (cl launch : Nat) : List Nat :=
  let c := s.cluster cl
  ((c.queue ++ c.ring).filter (fun t => packetLaunch t.pkt == launch && packetOrd t.pkt && t.st != .anti)).map
    (fun t => keyOfPacket t.pkt) ++
  (List.range 16).flatMap (fun n => ((s.coreAt (clusterCore cl n)).spec.filter (fun e =>
    e.2.st == .running && packetLaunch e.2.pkt == launch)).map (fun e => e.2.key))

/-- Whether a cluster has no task of a launch in any state and no anti-message waiting (R180). -/
def clusterIdle (s : State) (cl launch : Nat) : Bool :=
  let c := s.cluster cl
  !(c.queue ++ c.ring).any (fun t => packetLaunch t.pkt == launch) &&
  !(List.range 16).any (fun n =>
    let k := s.coreAt (clusterCore cl n)
    k.spec.any (fun e => packetLaunch e.2.pkt == launch) ||
    k.slots.any (fun x => x.2.st != .free && x.2.task.launch == launch))

/-- The count of a colour. -/
def countOf (p : Nat × Nat) (colour : Bool) : Nat := if colour then p.2 else p.1

/-- Sends a report up the tree. -/
def State.sendReport (s : State) (node : Nat) (m : SweepMsg) : State :=
  s.send (2 ^ 28 + node) (2 ^ 28 + m.part) (.report { m with src := node })

/-- SWEEP (R180): the colour flips at the cluster or dock groups, which report the old colour's counts, MINK and IDLE; at
the hub of another module the sweep goes on down. -/
def execSweep (m : SweepMsg) (s : State) : Res :=
  let s := s.arrive (.sweep m)
  match s.orderedOf m.part with
  | none => .next (if s.joinsLater m then s.after 1 (.sweep m) else s)
  | some o =>
    if m.src = hubNode then
      let s := s.setWork { s.work with
        ordered := mput s.work.ordered m.part { o with sweeping := true, num := m.num, got := [], colour := m.colour } }
      .next (s.levelDown m.part o.launch 1 m Ev.sweep)
    else if m.src = dockNode then
      let o := if m.flip then { o with dockColour := m.colour, dockMin := 2 ^ 128 - 1 } else o
      let s := s.setWork { s.work with ordered := mput s.work.ordered m.part o }
      .next (s.sendReport dockNode { m with
        colour := !o.dockColour, idle := true, sent := countOf o.dockSent (!o.dockColour),
        recv := countOf o.dockRecv (!o.dockColour), key := BitVec.ofNat 128 o.dockMin })
    else
      let c := s.cluster m.src
      let c := if m.flip then { c with colour := m.colour, minSent := 2 ^ 128 - 1 } else c
      let s := s.setCluster m.src c
      let mink := (liveKeys s m.src o.launch).foldl min (min c.minSent (2 ^ 128 - 1))
      .next (s.sendReport m.src { m with
        colour := !c.colour, idle := clusterIdle s m.src o.launch, sent := countOf c.sent (!c.colour),
        recv := countOf c.recv (!c.colour), key := BitVec.ofNat 128 mink })

/-- Combines reports (R180 step 3). -/
def combine (part num : Nat) (l : List SweepMsg) : SweepMsg :=
  { sweepMsg part num 0 with
    idle := l.all (·.idle), fail := l.any (·.fail), sent := (l.map (·.sent)).foldl (· + ·) 0 % 2 ^ 64,
    recv := (l.map (·.recv)).foldl (· + ·) 0 % 2 ^ 64,
    key := l.foldl (fun k m => if m.key < k then m.key else k) (BitVec.ofNat 128 (2 ^ 128 - 1)) }

/-- The number under which another module's report counts. -/
def moduleNode (m : Nat) : Nat := 2048 + m

/-- The end of an ordered launch (R185). -/
def State.endOrdered (s : State) (launch : Nat) : State :=
  match s.launchAt launch with
  | none => s
  | some l => s.endLaunch launch (if l.cancelled then 4 else if l.fail then 5 else 3)

/-- The root takes a combined report (R180 step 4, R185). -/
def State.rootReport (s : State) (part : Nat) (o : Ordered) (r : SweepMsg) : State :=
  let ok := r.sent == r.recv
  let idles := if ok && r.idle then o.idles + 1 else 0
  let levee := if ok then max o.levee r.key.toNat else o.levee
  let s := s.setWork { s.work with
    ordered := mput s.work.ordered part { o with sweeping := false, accepted := ok, idles := idles, levee := levee, got := [] } }
  if 2 ≤ idles then s.endOrdered o.launch
  else
    let s := if ok then s.levelDown part o.launch 3 { sweepMsg part o.num 0 with key := BitVec.ofNat 128 levee } Ev.levpub else s
    s.after (o.began + o.period * 1700 - s.now) (.leveeSweepStart part)

/-- REPORT (R180 steps 3 and 4): the hub combines its module's reports; the initiator's hub is the root. -/
def execReport (m : SweepMsg) (s : State) : Res :=
  let s := s.arrive (.report m)
  match s.orderedOf m.part with
  | none => .next s
  | some o =>
    if !o.sweeping || m.num != o.num || o.got.any (fun g => g.src == m.src) then .next s
    else
      let got := o.got ++ [m]
      let s := s.setWork { s.work with ordered := mput s.work.ordered m.part { o with got := got } }
      let l := s.launchAt o.launch
      let init := l.elim s.fabric.self Launch.init
      let local_ := partClusters s m.part ++ [dockNode]
      let mods := if init = s.fabric.self then
          ((l.elim [] Launch.modules).filter (fun x => x != s.fabric.self)).map moduleNode else []
      if !(local_ ++ mods).all (fun n => got.any (fun g => g.src == n)) then .next s
      else if init = s.fabric.self then .next (s.rootReport m.part o (combine m.part o.num got))
      else
        let s := s.setWork { s.work with ordered := mput s.work.ordered m.part { o with sweeping := false, got := [] } }
        .next (s.ask 1 init 0 unitLaunch 0 m.part o.launch (.sweep 2 { combine m.part o.num got with src := moduleNode s.fabric.self }))

/-! ## Completion sweeps (R448) -/

/-- The completion sweep of a launch at its initiator. -/
def State.csweepOf (s : State) (i : Nat) : Option CSweep := mget? s.work.csweeps i

/-- The launch that a completion sweep of an initiator names (R132, R448): its index is the same in every module. -/
def sweptLaunch (s : State) (init idx : Nat) : Option Nat :=
  if (s.launchAt idx).any (fun l => l.init == init && l.multi) then some idx else none

/-- CSWEEP_START (R448): a sweep goes to the hub node of every module of the launch. -/
def execCsweepStart (idx : Nat) (s : State) : Res :=
  match s.csweepOf idx, s.launchAt idx with
  | some c, some l =>
    if c.sweeping then .next s
    else
      let colour := if c.accepted then !c.colour else c.colour
      let c1 := { c with sweeping := true, num := (c.num + 1) % 2 ^ 32, got := [], began := s.now, colour := colour }
      let s := s.setWork { s.work with csweeps := mput s.work.csweeps idx c1 }
      let m : SweepMsg :=
        { sweepMsg l.part c1.num s.fabric.self with colour := colour, flip := c.accepted, key := BitVec.ofNat 128 idx }
      .next (l.modules.foldl (fun s mo =>
        if mo = s.fabric.self then s.send (2 ^ 24 + unitLaunch) (2 ^ 28) (.csweep m) else s.ask 1 mo 0 unitLaunch 0 l.part idx (.sweep 4 m)) s)
  | _, _ => .next s

/-- CSWEEP (R448): the module flips its colour for the launch and answers. The message's source is the initiator; its
key holds the initiator's launch index. -/
def execCsweep (m : SweepMsg) (s : State) : Res :=
  let s := s.arrive (.csweep m)
  let answer (s : State) (r : SweepMsg) : State :=
    let r := { r with src := moduleNode s.fabric.self }
    if m.src = s.fabric.self then s.send (2 ^ 28 + hubNode) (2 ^ 24 + unitLaunch) (.creport r) else s.ask 1 m.src 0 unitLaunch 0 m.part m.key.toNat (.sweep 5 r)
  match (sweptLaunch s m.src m.key.toNat).bind (fun i => (s.launchAt i).map (fun l => (i, l))) with
  | none => .next (answer s { m with colour := !m.colour, idle := true })
  | some (i, l) =>
    let colour := if m.flip then m.colour else l.colour
    let s := s.setLaunch i (fun l => { l with colour := colour })
    .next (answer s { m with
      colour := !colour, idle := l.count == 0, fail := l.fail, sent := countOf l.sent (!colour), recv := countOf l.recv (!colour) })

/-- CREPORT (R448): two accepted sweeps in a row with every module idle end the launch. -/
def execCreport (m : SweepMsg) (s : State) : Res :=
  let s := s.arrive (.creport m)
  let idx := m.key.toNat
  match s.csweepOf idx, s.launchAt idx with
  | some c, some l =>
    if !c.sweeping || m.num != c.num || c.got.any (fun g => g.src == m.src) then .next s
    else
      let got := c.got ++ [m]
      if !l.modules.all (fun mo => got.any (fun g => g.src == moduleNode mo)) then
        .next (s.setWork { s.work with csweeps := mput s.work.csweeps idx { c with got := got } })
      else
        let r := combine m.part c.num got
        let ok := r.sent == r.recv
        let idles := if ok && r.idle then c.idles + 1 else 0
        if 2 ≤ idles then
          let s := s.setWork { s.work with csweeps := mdel s.work.csweeps idx }
          .next (s.endLaunch idx (if l.cancelled then 4 else if l.fail || r.fail then 5 else 3))
        else
          let s := s.setWork { s.work with
            csweeps := mput s.work.csweeps idx { c with sweeping := false, accepted := ok, idles := idles, got := [] } }
          .next (s.after (c.began + 27200 - s.now) (.csweepStart idx))
  | _, _ => .next s

end Sys2Proof.Machine
end

