-- ==== Sys2Proof/Machine/Host.lean ====
section
/-! DEFINITION. The host port and pool memory: the mailbox and its messages, jobs, host translation, host and pool
accesses (spec 04 R80 to R96, 01 R18, R20, R25). -/

namespace Sys2Proof.Machine

open Sys2Proof

/-! ## The mailbox (R81 to R87) -/

/-- The number of messages of the H2D queue (R82). -/
def h2dDepth : Nat := 512

/-- Fields of a message header (R86). -/
def msgType (m : Words8) : Nat := bits m.w0.toNat 63 56
def msgCode (m : Words8) : Nat := bits m.w0.toNat 55 48
def msgJob (m : Words8) : Nat := bits m.w0.toNat 47 32
def msgSeq (m : Words8) : Nat := bits m.w0.toNat 31 0

/-- The event that takes a message of the host (R87). -/
def h2dEvent (m : Words8) : Ev :=
  let t := msgType m
  if m.w1 != 0 then .h2dBadType m
  else if t = 1 then .jobstart m
  else if t = 2 then .jobcancel m
  else if t = 3 then .futres m
  else if t = 0x10 then
    (match msgCode m with
     | 1 => .mgmtReadCounters m
     | 2 => .mgmtAttest m
     | 3 => .mgmtLoadKey m
     | 4 => .mgmtSetPowerCap m
     | 5 => .mgmtFirmwareImage m
     | _ => .h2dBadType m)
  else .h2dBadType m

/-- The ACK of a message (R82, R87). -/
def State.ack (s : State) (m : Words8) (status : Nat) : State := s.toHost 0x80 status (msgJob m) (msgSeq m) 0 0 0 0

/-- A management reply (R87): vector 2 signals it (R83). -/
def State.mgmtReply (s : State) (m : Words8) (n : Nat) : State :=
  (s.toHost 0x90 (msgCode m) (msgJob m) (msgSeq m) (w64 n) (w64 s.now) 0 0).irq 2

/-- The event of the message at the head of the H2D queue is due, when it is not already. -/
def State.postHead (s : State) : State :=
  match s.host.h2d with
  | [] => s
  | n :: _ => if s.host.h2dDue then s else (s.setHost { s.host with h2dDue := true }).post (h2dEvent n)

/-- Whether a message can be taken now: there is room for its ACK (R83), and messages other than management's wait until
boot has completed (R84). -/
def mayTake (s : State) (mgmt : Bool) : Bool :=
  decide (s.host.d2h.length < 1024) && s.host.held.isEmpty && (s.host.ready || mgmt)

/-- Whether an event of a message is that of the head of the queue. -/
def headDue (s : State) (m : Words8) : Bool := s.host.h2dDue && s.host.h2d.head? == some m

/-- The head of the H2D queue leaves it. -/
def State.popHead (s : State) (head : Bool) : State :=
  if head then s.setHost { s.host with h2d := s.host.h2d.drop 1, h2dDue := false } else s

/-- A message enters the H2D queue; one that finds it full is dropped and counted in BADW (R82). -/
def State.h2dPut (s : State) (m : Words8) : State :=
  if s.host.h2d.length < h2dDepth then s.setHost { s.host with h2d := s.host.h2d ++ [m] }
  else s.setHost { s.host with badw := min (s.host.badw + 1) 65535 }

/-- Messages are taken in order of arrival (R82): one that arrives behind others, or that cannot be taken, waits. When boot
has failed, management messages are answered with a boot-failure status, which is not stated, and the others go
unanswered (R20, notes/assumptions/26). -/
def h2dTake (m : Words8) (mgmt : Bool) (k : State → State) (s : State) : Res :=
  let head := headDue s m
  if !(head || s.host.h2d.isEmpty) then .next (s.h2dPut m)
  else if s.mgmt.bootFailed && !mgmt then .next (s.popHead head).postHead
  else if mayTake s mgmt then
    let s := s.popHead head
    .next (if s.mgmt.bootFailed then s.ack m (s.pick Config.useAbsent % 256) else k s).postHead
  else if head then .next (s.setHost { s.host with h2dDue := false })
  else .next (s.h2dPut m)

/-- H2D_BAD_TYPE (R87): ACK status 1. A MGMT message whose CODE is none of 1 to 5 is answered the same way, which the spec
does not say (DESIGN CHOICE, notes/assumptions/26). -/
def execH2dBadType (m : Words8) (s : State) : Res := h2dTake m (msgType m == 0x10) (fun s => s.ack m 1) s

/-- H2D_ENQUEUE_DROP (R82): a malformed write is dropped and counted. -/
def execH2dEnqueueDrop (s : State) : Res :=
  .next (s.setHost { s.host with badw := min (s.host.badw + 1) 65535 })

/-- The oldest message queued since vector 0 last fired, once those before it have been read, and its timer (R85). -/
def State.rearm (s : State) : State :=
  match s.host.irqArmed with
  | none => s
  | some t => match s.host.d2h.find? (fun m => t ≤ m.w1.toNat) with
    | none => (s.setHost { s.host with irqArmed := none }).untimer .mboxIrqTimeout
    | some m =>
      if m.w1.toNat = t then s
      else ((s.setHost { s.host with irqArmed := some m.w1.toNat }).untimer .mboxIrqTimeout).after (m.w1.toNat + 34000 - s.now)
        .mboxIrqTimeout

/-- D2H_DEQUEUE (R83): the oldest message leaves; notices that waited at their source enter; the device goes on taking
messages. -/
def execD2hDequeue (s : State) : Res :=
  match s.host.d2h with
  | [] => .next (s.emit (.hostMsg zeroPacket))
  | m :: rest =>
    let s := ((s.setHost { s.host with d2h := rest }).emit (.hostMsg m)).rearm
    .next (match s.host.held with
      | [] => s
      | n :: more => (s.setHost { s.host with held := more }).d2hPut n).postHead

/-- MBOX_IRQ_TIMEOUT (R85): the oldest message queued since vector 0 last fired has waited 20 µs. -/
def execMboxIrqTimeout (s : State) : Res :=
  match s.host.irqArmed with
  | none => .next s
  | some t =>
    if 34000 ≤ s.now - t then .next ((s.setHost { s.host with irqArmed := none }).irq 0) else .next s

/-! ## The BARs (R80 to R85) -/

/-- MBOX_STAT (R84). -/
def mboxStat (s : State) : Nat :=
  (h2dDepth - s.host.h2d.length) * 2 ^ 48 + s.host.d2h.length * 2 ^ 32 + s.host.badw * 2 ^ 16 + b2n s.host.fatal * 2 +
    b2n s.host.ready

/-- MBOX_CTL (R85). -/
def mboxCtl (s : State) : Nat := s.host.thresh * 2 + b2n s.host.ien

/-- A byte of BAR0 as a read outside the dequeue port finds it: zero but in the two registers (R81). -/
def bar0Byte (s : State) (off : Nat) : Byte :=
  BitVec.ofNat 8 (if off / 8 = 16 then mboxStat s / 256 ^ (off % 8) else if off / 8 = 17 then mboxCtl s / 256 ^ (off % 8) else 0)

/-- A byte of BAR4 (R80): the MSI-X table, and the pending bits at half of the window, a place of the model's
(notes/assumptions/97). -/
def bar4Byte (s : State) (off : Nat) : Byte :=
  BitVec.ofNat 8 (if off < 1024 then msixWord s (off / 4) / 256 ^ (off % 4)
    else if 0x8000 ≤ off && off < 0x8008 then s.host.pba.toNat / 256 ^ (off % 8) else 0)

/-- A byte of a BAR; one that is not implemented reads zero (R80). -/
def barByte (s : State) (bar off : Nat) : Byte :=
  match bar with
  | 0 => bar0Byte s off
  | 2 => if off < 2 ^ 28 then BitVec.ofNat 8 (s.mmioRead off 1) else 0
  | 4 => bar4Byte s off
  | _ => 0

/-- The host reads a BAR: an aligned read of 64 bytes at the dequeue port takes a message, any other read there returns
zeros (R83). -/
def execBarRead (bar off size : Nat) (s : State) : Res :=
  if bar = 0 && off = 0x40 && size = 64 then .next (s.post .d2hDequeue)
  else .next (s.emit (.barData bar off (bytesNat ((List.range size).map (fun i => barByte s bar (off + i))))))

/-- The message of the 64 bytes written to the enqueue port (R82). -/
def h2dMsg (v : Nat) : Words8 :=
  let w (i : Nat) : Word := w64 (v / 2 ^ (64 * i))
  ⟨w 0, w 1, w 2, w 3, w 4, w 5, w 6, w 7⟩

/-- Pending vectors fire once they are enabled and unmasked (R80, R85). -/
def State.firePending (s : State) : State :=
  (List.range 64).foldl (fun s v =>
    if s.host.pba.getLsbD v && s.host.ien && !vectorMasked s v then
      (s.setHost { s.host with pba := s.host.pba &&& ~~~(BitVec.ofNat 64 (2 ^ v)) }).emit (.irq v)
    else s) s

/-- The value of a register once n bytes at an offset have been written, of which some lie in its own bytes. -/
def writeInto (old base width off n v : Nat) : Nat :=
  bytesNat ((List.range width).map (fun i =>
    if off ≤ base + i && base + i < off + n then BitVec.ofNat 8 (v / 256 ^ (base + i - off)) else BitVec.ofNat 8 (old / 256 ^ i)))

/-- A write to MBOX_CTL (R85). -/
def State.setMboxCtl (s : State) (w : Nat) : State :=
  (s.setHost { s.host with thresh := bits w 10 1, ien := bit w 0 }).firePending

/-- A write to BAR0 (R81, R82): anything but one aligned write of 64 bytes to the enqueue port is dropped there. -/
def State.bar0Write (s : State) (off size v : Nat) : State :=
  if off = 0 && size = 64 then s.post (h2dEvent (h2dMsg v))
  else
    let s := if off < 64 && size != 0 then s.post .h2dEnqueueDrop else s
    if off < 0x90 && 0x88 < off + size then s.setMboxCtl (writeInto (mboxCtl s) 0x88 8 off size v) else s

/-- A write to BAR2 (R80): the registers whose bytes it covers are written, in order of their addresses. -/
def State.bar2Write (s : State) (off size v : Nat) : State :=
  if 2 ^ 28 ≤ off || size = 0 then s
  else (List.range ((off + size - 1) / 8 - off / 8 + 1)).foldl (fun s j =>
    let lo := max off (8 * (off / 8 + j))
    let hi := min (off + size) (8 * (off / 8 + j) + 8)
    s.mmioWrite lo (hi - lo) (v / 256 ^ (lo - off))) s

/-- A write to BAR4 (R80): the MSI-X table. -/
def State.bar4Write (s : State) (off size v : Nat) : State :=
  (s.setHost { s.host with
    msix := ((List.range 256).filter (fun n => off < 4 * n + 4 && 4 * n < off + size)).foldl (fun m n =>
      mput m n (writeInto (msixWord s n) (4 * n) 4 off size v)) s.host.msix }).firePending

/-- The host writes a BAR (R80 to R85). -/
def execBarWrite (bar off size v : Nat) (s : State) : Res :=
  .next (match bar with
    | 0 => s.bar0Write off size v
    | 2 => s.bar2Write off size v
    | 4 => s.bar4Write off size v
    | _ => s)

/-! ## Jobs (R89, R131) -/

/-- The first check of R89 that a JOBSTART fails. -/
def jobstartCheck (s : State) (m : Words8) : Nat :=
  let job := msgJob m
  let w4 := m.w4.toNat
  let pasid := bits w4 63 44
  let key := bits w4 43 38
  let part := bits w4 31 16
  let core := bits w4 15 0
  if bits m.w2.toNat 63 52 != 0 || bits m.w2.toNat 11 0 != 0 || bits w4 35 32 != 0 || m.w3.toNat % 64 != 0 then 1
  else if job = 0 || (mget? s.work.jobs job).elim false Job.running then 2
  else if pasid != 0 && !s.host.pasids.contains pasid then 4
  else if !s.keyLive key then 5
  else if !s.work.partcfg.any (fun x => bit x.2.toNat 0 && bits x.2.toNat 63 48 == part) ||
      s.work.stops.any (fun g => g.part == part && g.launch.isNone) then 6
  else if !isTile s.part core || !inPartition s part (clusterOf core) then 7
  else if key = 0 then 9
  else if (placeSlot s core).isNone then 10
  else if (freeKey s.work.launches 0 65536).isNone then 11
  else 0

/-- The root launch of a job (R89). -/
def rootLaunch (s : State) (job part core : Nat) : Launch :=
  { st := 2, npred := 0, graph := 0, count := 1, handler := 0, hcore := core, part := part, init := s.fabric.self,
    fail := false, multi := false, ord := false, save := 0, farea := 0, fahead := 0, phase := s.phaseOf part,
    start := s.now, end_ := 0, job := job, cancelled := false, stalled := [], sent := (0, 0), recv := (0, 0),
    colour := false, modules := [] }

/-- The task of a job's first thread (R89): no packet gave it a key (notes/assumptions/21). -/
def firstTask (s : State) (job idx core : Nat) (regs : BitVec 2) : Task :=
  { Task.reset with
    regs := regs, launch := idx, job := job, dcore := gcid s core,
    pkt := ⟨Config.freeWord Config.useAbsent s.sched.free, 0, w64 (regs.toNat * 2 ^ 62), w64 (idx * 2 ^ 48), 0, 0, 0, 0⟩ }

/-- The supervisor registers of a slot at zero (R89). -/
def Slot.clearTrap (sl : Slot) : Slot := { sl with tepc := 0, tcause := 0, tval := 0, psup := false, intrap := false }

/-- A job that passes every check starts (R89): the counts of R159 start at zero. -/
def State.startJob (s : State) (m : Words8) (idx n : Nat) : State :=
  let job := msgJob m
  let w4 := m.w4.toNat
  let part := bits w4 31 16
  let core := bits w4 15 0
  let j : Job :=
    { root := bits m.w2.toNat 51 12 * 4096, pasid := bits w4 63 44, key := bits w4 43 38, part := part, running := true,
      cancelled := false, rootLaunch := idx, launches := [idx], graphs := [], tag := msgSeq m, anyFailed := false,
      started := s.now }
  let s := s.setWork { s.work with
    jobs := mput s.work.jobs job j, launches := mput s.work.launches idx (rootLaunch s job part core) }
  let s := (partCores s part).foldl (fun s k => s.setCore k { s.coreAt k with sentN := 0, recvN := 0 }) s
  let s := s.startThread ⟨core, n⟩ (firstTask s job idx core (BitVec.ofNat 2 (bits w4 37 36))) m.w3
    [m.w5, m.w6, m.w7, w64 job] false
  (s.setSlot ⟨core, n⟩ (s.slotAt ⟨core, n⟩).clearTrap).ack m 0

/-- JOBSTART (R89). -/
def execJobstart (m : Words8) (s : State) : Res :=
  h2dTake m false (fun s =>
    match jobstartCheck s m, freeKey s.work.launches 0 65536, placeSlot s (bits m.w4.toNat 15 0) with
    | 0, some idx, some n => s.startJob m idx n
    | c, _, _ => s.ack m c) s

/-- JOBCANCEL (R87, R134). -/
def execJobcancel (m : Words8) (s : State) : Res :=
  h2dTake m false (fun s =>
    if (mget? s.work.jobs (msgJob m)).elim false Job.running then (s.ack m 0).cancelJob (msgJob m) else s.ack m 3) s

/-- A new request to the host or the pool: its token. -/
def State.newRead (s : State) (r : HostRead) : Nat × State :=
  let t := s.host.nextRead
  (t, s.setHost { s.host with pendingReads := s.host.pendingReads ++ [(t, r)], nextRead := t + 1 })

/-- Reads host memory for a message. -/
def State.readHost (s : State) (pasid addr n : Nat) (r : HostRead) : State :=
  let (t, s) := s.newRead r
  s.emit (.hostRead t pasid addr n)

/-- The reason of a FUTRES: 0 resolves (R87). -/
def futresReason (m : Words8) : Nat :=
  if bits m.w3.toNat 7 0 = 0 then 0 else if bits m.w3.toNat 15 8 ≤ 1 then 1 else bits m.w3.toNat 15 8

/-- A FUTRES with its bytes (R87, R199). -/
def State.futresWith (s : State) (m : Words8) (data : List Byte) : State :=
  let h := m.w2.toNat % 2 ^ 32
  let s := s.scanFirst (h % 65536)
  if s.accepts h (msgJob m) then (s.putReply h (futresReason m) data).ack m 0 else s.ack m 7

/-- FUTRES (R87). Word 3 [7:0] above 1 and a length above 65,536 bytes, for which the spec names no status, are answered with
status 12; reply bytes for a job without host space are read with PASID 0 (DESIGN CHOICE, notes/assumptions/26). -/
def execFutres (m : Words8) (s : State) : Res :=
  h2dTake m false (fun s =>
    let h := m.w2.toNat % 2 ^ 32
    let s := s.scanFirst (h % 65536)
    match mget? s.work.jobs (msgJob m) with
    | none => s.ack m 3
    | some j =>
      if !j.running then s.ack m 3
      else if 1 < bits m.w3.toNat 7 0 || 2 < futresReason m || 65536 < m.w4.toNat then s.ack m 12
      else if !s.accepts h (msgJob m) then s.ack m 7
      else if m.w4 = 0 then s.futresWith m []
      else s.readHost j.pasid m.w5.toNat m.w4.toNat (.futres m)) s

/-! ## Management (R18, R20, R24, R25, R87, R126) -/

/-- The snapshot of the lifetime counters: stored values plus the volatile increments (R25). Its layout is the model's
(DESIGN CHOICE, notes/assumptions/26): 8 bytes for each counter that has ever counted, in ascending number, without the
numbers and without those that stand at zero. -/
def counterSnapshot (s : State) : List Byte :=
  let keys := s.mgmt.counters.foldl (fun l x => numIns l x.1) (s.mgmt.stored.map (·.1))
  keys.flatMap (fun k => natBytes 8 (min (mget s.mgmt.stored k 0 + mget s.mgmt.counters k 0) (2 ^ lifeWidth k - 1)))

/-- Writes a management reply's data to the host buffer, cut to its size, and sends the reply. Only read counters and attest
return data and a MGMTREP; load key, set power cap and firmware image are answered by their ACK alone (DESIGN CHOICE,
notes/assumptions/26). -/
def State.replyData (s : State) (m : Words8) (l : List Byte) : State :=
  let l := l.take m.w3.toNat
  ((s.ack m 0).emit (.hostWrite 0 m.w2.toNat l)).mgmtReply m l.length

/-- MGMT_READ_COUNTERS (R25, R87). -/
def execMgmtReadCounters (m : Words8) (s : State) : Res := h2dTake m true (fun s => s.replyData m (counterSnapshot s)) s

/-- An attestation report (R20): measurement registers, nonce, serial number, signature. -/
def attestReport (s : State) (m : Words8) : List Byte :=
  let body := (List.range 8).flatMap (fun i => natBytes 64 (mget s.mgmt.measure i 0).toNat) ++
    natBytes 8 m.w4.toNat ++ natBytes 8 m.w5.toNat ++ natBytes 8 m.w6.toNat ++ natBytes 8 m.w7.toNat ++
    natBytes 8 s.mgmt.serial.toNat
  body ++ (List.range 512).map (fun i => Config.signature body i)

/-- MGMT_ATTEST (R20, R87): the report, and behind it the certificate of the device identity key, which the management
interface returns (where it does is the model's: DESIGN CHOICE, notes/assumptions/26). -/
def execMgmtAttest (m : Words8) (s : State) : Res :=
  h2dTake m true (fun s => s.replyData m (attestReport s m ++ Config.certificate)) s

/-- The status of a load-key request before the key is read (R126). -/
def loadKeyStatus (s : State) (m : Words8) : Nat :=
  let k := bits m.w4.toNat 5 0
  if bits m.w4.toNat 63 6 != 0 || m.w6 != 0 || m.w7 != 0 || m.w2 != 0 then 1
  else if k = 0 then 9
  else if mget s.mgmt.keys k .empty != .empty then 8 else 0

/-- MGMT_LOAD_KEY (R87, R126): the wrapped key is read from the host. -/
def execMgmtLoadKey (m : Words8) (s : State) : Res :=
  h2dTake m true (fun s =>
    if loadKeyStatus s m != 0 then s.ack m (loadKeyStatus s m)
    else s.readHost 0 m.w5.toNat m.w3.toNat (.key m)) s

/-- MGMT_SET_POWER_CAP (R18, R87): word 2 is zero. -/
def execMgmtSetPowerCap (m : Words8) (s : State) : Res :=
  h2dTake m true (fun s =>
    if m.w2 != 0 then s.ack m 1
    else if 1200 ≤ m.w3.toNat && m.w3.toNat ≤ 2400 then
      (s.setMgmt { s.mgmt with powerCap := m.w3.toNat }).ack m 0
    else s.ack m 12) s

/-- MGMT_FIRMWARE_IMAGE (R20, R87): the image is read from the host buffer. -/
def execMgmtFirmwareImage (m : Words8) (s : State) : Res :=
  h2dTake m true (fun s => s.readHost 0 m.w2.toNat m.w3.toNat (.image m)) s

/-! ## Host space (R90 to R92) -/

/-- The pasid of a job. -/
def State.pasidOf (s : State) (job : Nat) : Nat := (mget? s.work.jobs job).elim 0 Job.pasid

/-- The key of a host page in the translation cache: PASID and first page. -/
def atsKey (pasid page : Nat) : Nat := pasid * 2 ^ 52 + page

/-- The first page of the translation of a size class (0 4 KiB, 1 2 MiB, 2 1 GiB) that holds a page (R90). -/
def atsBase (page size : Nat) : Nat := page / 2 ^ (9 * size) * 2 ^ (9 * size)

/-- The translation that the cache holds of a page, whatever its size (R90). -/
def atsEntry (s : State) (pasid page : Nat) : Option (Nat × Nat × Bool × Bool) :=
  [0, 1, 2].findSome? (fun z => (mget? s.host.ats (atsKey pasid (atsBase page z))).filter (fun e => e.2.1 == z))

/-- The host page of an access. -/
def hostPage (a : Access) : Nat := a.pa % 2 ^ 48 / 4096

/-- The kind of AtomicOp that an access is issued as (R91): FetchAdd 0, Swap 8, CAS 9. -/
def hostAtomicOp : Perform → Option Nat
  | .amo op _ _ => if op.toNat = 0 then some 0 else if op.toNat = 8 then some 8 else none
  | .cas _ _ => some 9
  | .red op _ _ => if op.toNat = 0 then some 0 else none
  | _ => none

/-- Whether an access to host space is unsupported (R91). -/
def hostUnsupported : Perform → Bool
  | .load _ | .store _ _ | .line _ => false
  | h => (hostAtomicOp h).isNone

/-- Sends an access to the host port (R91): a copy engine's write-back is acknowledged once it has left. -/
def State.hostIssue (s : State) (a : Access) (pasid : Nat) : State :=
  let addr := a.pa % 2 ^ 48
  match a.how with
  | .load _ | .line none =>
    let (t, s) := s.newRead (.access a)
    s.emit (.hostRead t pasid addr (opSize a.how))
  | .store n v => (s.emit (.hostWrite pasid addr (natBytes n v.toNat))).ackPosted a
  | .line (some l) =>
    let s := (s.emit (.hostWrite pasid addr l)).ackPosted a
    match writerCp a.dst with
    | some (cl, sid) => s.post (.copyWritebackAck cl sid)
    | none => s
  | .cas e x =>
    let (t, s) := s.newRead (.access a)
    s.emit (.hostAtomic t pasid addr 8 9 e x)
  | .amo op _ x =>
    let (t, s) := s.newRead (.access a)
    s.emit (.hostAtomic t pasid addr (opSize a.how) op.toNat x 0)
  | .red op _ x =>
    let (t, s) := s.newRead (.access a)
    s.emit (.hostAtomic t pasid addr (opSize a.how) op.toNat x 0)
  | _ => s

/-- Whether a cached translation grants an access. -/
def atsGrants (s : State) (pasid : Nat) (a : Access) : Bool :=
  match atsEntry s pasid (hostPage a) with
  | none => false
  | some (_, _, r, w) =>
    match opNeed a.how with
    | .read | .fetch => r
    | .write => w
    | .both => r && w

/-- Whether an access stands behind one that a condition names, among those that wait at the ports. -/
def behind (s : State) (me : Access × Nat) (p : Access × Nat → Bool) : Bool :=
  (s.host.hostWaits.takeWhile (fun w => w != me)).any p

/-- Whether two accesses are one slot's to one host page. -/
def samePage (a b : Access) : Bool :=
  region b.pa == 8 && hostPage a == hostPage b && a.job == b.job &&
  (a.srcs.head?).any (fun x => (b.srcs.head?).any (fun y => x.core == y.core && x.slot == y.slot))

/-- Whether an access follows in program order one of its slot to the same host page that has not left the port (R91): it
waits for a translation, or for software behind a fault. -/
def hostBehind (s : State) (a : Access) : Bool :=
  behind s (a, 4) (fun w => w.2 ≤ 4 && samePage a w.1) ||
  s.mem.replay.any (fun r => match r.what with
    | .access b => samePage a b
    | _ => false)

/-- An access waits at a port or a home in a stage, behind those that wait there; it is looked at again after n cycles. -/
def State.waitAt (s : State) (a : Access) (stage n : Nat) : State :=
  (if s.host.hostWaits.contains (a, stage) then s
   else s.setHost { s.host with hostWaits := s.host.hostWaits ++ [(a, stage)] }).after n (.homeAccess a)

/-- It waits there no longer. -/
def State.unwait (s : State) (a : Access) (stage : Nat) : State :=
  s.setHost { s.host with hostWaits := s.host.hostWaits.erase (a, stage) }

/-- An access that needs a translation waits for it in the replay queue of its hub dock core (R90); on full queues it stops
(R113). -/
def State.hostAsk (s : State) (a : Access) (pasid : Nat) : State :=
  if 4096 ≤ replayCount s then s.stopAt a.job a.launch a.va (.access a)
  else (s.setHost { s.host with hostWaits := s.host.hostWaits ++ [(a, 0)] }).emit (.ats pasid (hostPage a))

/-- An access to host space at its hub dock core (R90, R91). -/
def State.hostAccess (s : State) (a : Access) : State :=
  let pasid := s.pasidOf a.job
  if opTagged a.how then s.homeFault a causeUntagged
  else if hostUnsupported a.how then s.homeFault a causeUnsupatom
  else if pasid = 0 then s.homeFault a causeNohost
  else if hostBehind s a then
    (if !s.host.hostWaits.contains (a, 4) && decide (4096 ≤ replayCount s) then s.stopAt a.job a.launch a.va (.access a)
     else s.waitAt a 4 16)
  else
    let s := s.unwait a 4
    if atsGrants s pasid a then s.hostIssue a pasid else s.hostAsk a pasid

/-- Whether an access waits for a translation of one of the pages of a size class from a first page. -/
def waitsIn (s : State) (pasid base size : Nat) (w : Access × Nat) : Bool :=
  w.2 ≤ 3 && s.pasidOf w.1.job == pasid && atsBase (hostPage w.1) size == base

/-- Whether an access waits on a host page. -/
def waitsOn (s : State) (pasid page : Nat) (w : Access × Nat) : Bool := waitsIn s pasid page 0 w

/-- Takes the accesses that wait on a page in given stages out of the queue. -/
def State.takeWaits (s : State) (p : Access × Nat → Bool) : List Access × State :=
  ((s.host.hostWaits.filter p).map (·.1), s.setHost { s.host with hostWaits := s.host.hostWaits.filter (fun w => !p w) })

/-- Accesses fault HOSTPAGE, which reaches the host as JOBFAULT (R90). -/
def State.faultWaits (s : State) (l : List Access) : State :=
  l.foldl (fun s a => s.homeFault a causeHostpage) s

/-- Sends the page requests that groups are free for (R90). -/
def State.sendPri (s : State) : List (Access × Nat) → State
  | [] => s
  | w :: l =>
    let pasid := s.pasidOf w.1.job
    let page := hostPage w.1
    let s :=
      if w.2 != 1 then s
      else if s.host.pri.contains (pasid, page) then
        s.setHost { s.host with hostWaits := s.host.hostWaits.map (fun x => if x = w then (x.1, 2) else x) }
      else if s.host.pri.length < 512 then
        ((s.setHost { s.host with
          pri := s.host.pri ++ [(pasid, page)],
          hostWaits := s.host.hostWaits.map (fun x => if x = w then (x.1, 2) else x) }).emit
            (.pri pasid page (opWrites w.1.how))).after 17000000 (.priTimeout pasid page)
      else s
    s.sendPri l

/-- The translation cache with an entry more: of a full one any entry goes (R90). -/
def atsFill (s : State) (key : Nat) (e : Nat × Nat × Bool × Bool) : Map (Nat × Nat × Bool × Bool) :=
  let l := s.host.ats
  let l := if l.length < 16384 || (mget? l key).isSome then l
    else mdel l ((l.getD (s.pick Config.useEvict % 16384) (0, 0, 0, false, false)).1)
  mput l key e

/-- ATS_COMPLETION (R90): the entry is filled, and the accesses it grants proceed; the others ask for the page once. -/
def execAtsCompletion (pasid : Nat) (page : AtsPage) (read write : Bool) (s : State) : Res :=
  let z := min page.size 2
  let base := atsBase page.page z
  let s := if read || write then
      s.setHost { s.host with ats := atsFill s (atsKey pasid base) (s.now, z, read, write) } else s
  let (granted, s) := s.takeWaits (fun w => waitsIn s pasid base z w && (w.2 == 0 || w.2 == 3) && atsGrants s pasid w.1)
  let s := granted.foldl (fun s a => s.hostIssue a pasid) s
  let (failed, s) := s.takeWaits (fun w => waitsIn s pasid base z w && (w.2 == 3 || (w.2 == 0 && !s.host.priOn)))
  let s := s.faultWaits failed
  let s := s.setHost { s.host with
    hostWaits := s.host.hostWaits.map (fun w => if waitsIn s pasid base z w && w.2 == 0 then (w.1, 1) else w) }
  .next (s.sendPri s.host.hostWaits)

/-- A page request group ends. -/
def State.endGroup (s : State) (pasid page : Nat) : State :=
  (s.setHost { s.host with pri := s.host.pri.erase (pasid, page) }).untimer (.priTimeout pasid page)

/-- PRI_RESPONSE_SUCCESS (R90): a new translation is asked for. -/
def execPriResponseSuccess (pasid page : Nat) (s : State) : Res :=
  if !s.host.pri.contains (pasid, page) then .next s
  else
    let s := s.endGroup pasid page
    let s := s.setHost { s.host with
      hostWaits := s.host.hostWaits.map (fun w => if waitsOn s pasid page w && w.2 == 2 then (w.1, 3) else w) }
    .next ((s.emit (.ats pasid page)).sendPri s.host.hostWaits)

/-- A page request that fails (R90). -/
def State.failGroup (s : State) (pasid page : Nat) : State :=
  if !s.host.pri.contains (pasid, page) then s
  else
    let s := s.endGroup pasid page
    let (l, s) := s.takeWaits (fun w => waitsOn s pasid page w && w.2 == 2)
    (s.faultWaits l).sendPri s.host.hostWaits

/-- PRI_RESPONSE_INVALID (R90). -/
def execPriResponseInvalid (pasid page : Nat) (s : State) : Res := .next (s.failGroup pasid page)

/-- PRI_RESPONSE_FAILURE (R90): page requests stop until software enables them again; accesses that wait for a group
fault at once. -/
def execPriResponseFailure (pasid page : Nat) (s : State) : Res :=
  if !s.host.pri.contains (pasid, page) then .next s
  else
    let s := s.setHost { s.host with priOn := false }
    let (l, s) := s.takeWaits (fun w => w.2 == 1)
    .next ((s.faultWaits l).failGroup pasid page)

/-- PRI_TIMEOUT (R90): no response within 10 ms. -/
def execPriTimeout (pasid page : Nat) (s : State) : Res := .next (s.failGroup pasid page)

/-- PRI_ENABLE (R90): page requests and a PASID are enabled in the host port's capability. -/
def execPriEnable (pasid : Nat) (s : State) : Res :=
  .next (s.setHost { s.host with
    priOn := true, pasids := if pasid = 0 then s.host.pasids else numIns s.host.pasids pasid })

/-- Whether n pages from one meet a range. -/
def meetsRange (base len page n : Nat) : Bool := decide (page < base + len) && decide (base < page + n)

/-- ATS_INVALIDATE_REQUEST (R92): the matching entries are unusable at once. Range and base are in pages. Reads that leave
from now on do so under translations of later. -/
def execAtsInvalidateRequest (pasid base len : Nat) (s : State) : Res :=
  let s := s.setHost { s.host with
    ats := s.host.ats.filter (fun e => !(e.1 / 2 ^ 52 == pasid && meetsRange base len (e.1 % 2 ^ 52) (2 ^ (9 * e.2.2.1)))),
    invals := s.host.invals ++ [(pasid, base, len, s.host.nextRead)] }
  .next (s.post (.atsInvalidateCompletion pasid base len))

/-- Whether a read that left the port under a range, with a token below one, is still outstanding. -/
def readOut (s : State) (pasid base len first : Nat) : Bool :=
  s.host.pendingReads.any (fun r => decide (r.1 < first) && match r.2 with
    | .access a => region a.pa == 8 && s.pasidOf a.job == pasid && meetsRange base len (hostPage a) 1
    | .futres m => s.pasidOf (msgJob m) == pasid &&
        meetsRange base len (m.w5.toNat / 4096) ((m.w5.toNat % 4096 + m.w4.toNat + 4095) / 4096)
    | _ => false)

/-- ATS_INVALIDATE_COMPLETION (R92): sent once every read that left under a marked entry has completed. -/
def execAtsInvalidateCompletion (pasid base len : Nat) (s : State) : Res :=
  match s.host.invals.find? (fun v => v.1 == pasid && v.2.1 == base && v.2.2.1 == len) with
  | none => .next s
  | some v =>
    if readOut s pasid base len v.2.2.2 then .next (s.after 1 (.atsInvalidateCompletion pasid base len))
    else .next ((s.setHost { s.host with invals := s.host.invals.erase v }).emit (.atsDone pasid base len))

/-- The result of an access from the bytes that a read or an atomic returned. -/
def readResult (a : Access) (data : List Byte) : Word :=
  let n := bytesNat (data.take (opSize a.how))
  match a.how with
  | .load f => extendLoad f n
  | .amo _ w _ => if w = 1 then (BitVec.ofNat 32 n).signExtend 64 else w64 n
  | _ => w64 n

/-- An access whose data came back completes: those of a line go to the cache that asked. -/
def State.completeRead (s : State) (a : Access) (data : List Byte) : State :=
  match a.how with
  | .line none => s.post (.lineFill a.dst s.fabric.self (a.pa / 64) (data.take 64))
  | _ => if opPosted a.how then s.ackPosted a else s.deliverResult a (readResult a data) 0

/-- Loads a wrapped key (R126): data written under an earlier load of the identifier are not read under this one. -/
def State.loadKey (s : State) (m : Words8) : State :=
  if loadKeyStatus s m != 0 then s.ack m (loadKeyStatus s m)
  else
    let k := bits m.w4.toNat 5 0
    (s.setMgmt { s.mgmt with
      keys := mput s.mgmt.keys k .live, keyGens := mput s.mgmt.keyGens k (mget s.mgmt.keyGens k 0 + 1) }).ack m 0

/-- A firmware image (R20): accepted when signed, and in effect at the next reset. The status of a refused one is not
stated (notes/assumptions/26). -/
def State.takeImage (s : State) (m : Words8) (data : List Byte) : State :=
  if Config.signedImage data then (s.setMgmt { s.mgmt with nextFw := some data }).ack m 0
  else s.ack m (1 + s.pick Config.useAbsent % 255)

/-- A request to the host or the pool is over. -/
def State.dropRead (s : State) (token : Nat) : State :=
  (s.setHost { s.host with pendingReads := s.host.pendingReads.filter (fun r => r.1 != token) }).untimer (.poolTimeout token)

/-- HOST_READ_COMPLETION (R87, R91). -/
def execHostReadCompletion (token : Nat) (data : List Byte) (s : State) : Res :=
  match s.host.pendingReads.find? (fun r => r.1 == token) with
  | none => .next s
  | some (_, r) =>
    match r with
    | .poolWrite _ _ _ | .page _ | .pageWrite _ | .line _ _ | .lineWrite _ _ => .next s
    | .access a => if region a.pa != 8 then .next s else .next ((s.dropRead token).completeRead a data)
    | .futres m => .next ((s.dropRead token).futresWith m data)
    | .key m => .next ((s.dropRead token).loadKey m)
    | .image m => .next ((s.dropRead token).takeImage m data)

/-! ## Pool memory (R93 to R96) -/

/-- Whether a line of pool memory was written under another key than an access's: it is read and written whole (R125). -/
def otherKey (s : State) (a : Access) : Bool :=
  (mget? s.mem.keys (a.pa / 64)).any (fun k => k != s.accKey a.job a.va)

/-- The address and size with which an access meets pool memory. -/
def poolSpan (s : State) (a : Access) : Nat × Nat :=
  if otherKey s a then (a.pa / 64 * 64, 64) else (a.pa, opSize a.how)

/-- Sends a read of pool memory for an access. -/
def State.poolRead (s : State) (a : Access) : State :=
  s.poolSend (poolSpan s a).1 (List.replicate (poolSpan s a).2 0) false (.access a)

/-- Sends a write of pool memory for an access, under the key of its job. -/
def State.poolPut (s : State) (a : Access) (pa : Nat) (l : List Byte) (v0 v1 : Word) : State :=
  let s := s.setMem { s.mem with keys := mput s.mem.keys (a.pa / 64) (s.accKey a.job a.va) }
  (s.setMem (clearPoison s.mem a.pa (opSize a.how))).poolSend pa l true (.poolWrite a v0 v1)

/-- Whether an access has to wait at the pool port: behind one to its line, or while the line is held or in use. -/
def poolWaits (s : State) (a : Access) : Bool :=
  behind s (a, 5) (fun w => w.2 == 5 && w.1.pa / 64 == a.pa / 64) || poolBusy s a.pa (opWrites a.how) ||
  (lineBusy s a.pa (opWrites a.how)).isSome

/-- An access to pool memory at its hub dock core (R94, R96): accesses to one line are performed in order of arrival. -/
def State.poolAccess (s : State) (a : Access) : State :=
  match homeCheck s a with
  | some c => (s.unwait a 5).homeFault a c
  | none =>
    if opWrites a.how && poolReadOnly s a.pa then (s.unwait a 5).homeFault a causePerm
    else if poolWaits s a then ((lineBusy s a.pa (opWrites a.how)).getD s).waitAt a 5 16
    else
      let s := (s.unwait a 5).heat a.pa
      match a.how with
      | .store n v => if otherKey s a then s.poolRead a else s.poolPut a a.pa (natBytes n v.toNat) 0 0
      | .line (some l) => s.poolPut a a.pa l 0 0
      | _ => s.poolRead a

/-- The bytes of a pool read as the access's key reads them (R125). -/
def poolBytes (s : State) (a : Access) (data : List Byte) : List Byte :=
  if otherKey s a then
    (List.range 64).map (Config.undecrypted (s.accKey a.job a.va) (mget s.mem.keys (a.pa / 64) 0) (a.pa / 64) data)
  else data

/-- Whether the issuer of an access is a thread of this module. -/
def accessSlot (s : State) (a : Access) : Option SlotId :=
  a.srcs.head?.bind (fun x => if modOf x.core = s.fabric.self then some ⟨s.forwarded (coreOf x.core), x.slot⟩ else none)

/-- The write that was pending will not come: the register stays empty. -/
def Slot.unpend (sl : Slot) (r : Nat) : Slot :=
  if r = 0 then sl else { sl with regs := mput sl.regs r ⟨sl.g r, false, false⟩ }

/-- The destinations of an access that ends without a result. -/
def Slot.unpendAll (sl : Slot) (a : Access) : Slot :=
  match a.how with
  | .cas2 _ _ _ _ => if a.dst = 0 then sl else (sl.unpend a.dst).unpend (a.dst + 1)
  | _ => sl.unpend a.dst

/-- The slot of an access that ends without a result: its destination stays empty, and it runs. -/
def Slot.stopAccess (sl : Slot) (a : Access) : Slot :=
  if sl.waitsFor a then { sl with st := .running } else { sl.unpendAll a with outst := sl.outst - 1 }

/-- Takes a trap at an access that a home has met: at the access's instruction (R114, R415). -/
def State.trapAccess (s : State) (id : SlotId) (a : Access) (cause sub : Nat) : State :=
  let sl := s.slotAt id
  if sl.task.launch != a.launch || sl.st == .free then s
  else (s.setSlot id (sl.stopAccess a)).raise id ⟨cause, sub, a.va, a.pc⟩

/-- A poisoned word stops the read: the thread takes the data-poison trap at the access (R94, R415); a fault ring's record
goes to the host (R133). Another module learns it (R59). -/
def State.poisonTrap (s : State) (a : Access) : State :=
  let src := (a.srcs.head?).getD ⟨a.org / 16, 0, 0⟩
  if modOf src.core != s.fabric.self then s.respond 2 src.core src.slot (homeOf a.pa) (.aborted a true)
  else match accessSlot s a with
    | none => if a.org = ringOrg s then s.ringFail a.launch else s
    | some id => s.trapAccess id a trapPoison 1

/-- The new bytes and the results of a read-modify-write of pool memory, from the bytes read at the access's address. -/
def poolModify (a : Access) (l : List Byte) : List Byte × Word × Word :=
  let n := opSize a.how
  let old := bytesNat (l.take n)
  match a.how with
  | .store n v => (natBytes n v.toNat, 0, 0)
  | .red op _ v => (natBytes n (amoOp op.toNat (8 * n) old v.toNat), 0, 0)
  | .amo op w x => (natBytes n (amoOp op.toNat (8 * n) old x.toNat),
      if w = 1 then (BitVec.ofNat 32 old).signExtend 64 else w64 old, 0)
  | .cas e x => (natBytes 8 (if old = e.toNat then x.toNat else old), w64 old, 0)
  | .cas2 el eh nl nh =>
    let lo := old % 2 ^ 64
    let hi := old / 2 ^ 64
    (if lo = el.toNat && hi = eh.toNat then natBytes 8 nl.toNat ++ natBytes 8 nh.toNat else l.take 16, w64 lo, w64 hi)
  | _ => (l.take n, 0, 0)

/-- Marks the words of n bytes that a completion with poison returned (R94). -/
def markPoison (m : Mem) (pa n : Nat) : Mem :=
  (List.range ((pa % 8 + n + 7) / 8)).foldl (fun m i => { m with poison := numIns m.poison (pa / 8 + i) }) m

/-- The data of a pool read have come for an access (R94): a poisoned word stops it, a load has its result, and any other is
modified and written. -/
def State.poolData (s : State) (a : Access) (data : List Byte) (poison : Bool) : State :=
  let at_ := poolSpan s a
  let s := if poison then s.setMem (markPoison s.mem at_.1 at_.2) else s
  if opReads a.how && (s.isPoison a.pa || (opSize a.how == 16 && s.isPoison (a.pa + 8))) then s.poisonTrap a
  else
    let line := poolBytes s a data
    let off := a.pa - at_.1
    let l := line.drop off
    match a.how with
    | .load _ => s.completeRead a (l.take (opSize a.how))
    | _ =>
      let y := poolModify a l
      s.poolPut a at_.1 (line.take off ++ y.1 ++ l.drop (opSize a.how)) y.2.1 y.2.2

/-- A write-back to pool memory is over (R251, R266). -/
def State.lineOut (s : State) (loc line : Nat) : State :=
  if remLoc 0 0 ≤ loc then s.respond 2 (remMod loc * 65536 + unitRouter) 0 unitPool (.lineWritten (loc % 2 ^ 21) line)
  else match writerCp loc with
  | some (cl, sid) => s.post (.copyWritebackAck cl sid)
  | none => s.setMem { s.mem with wbOut := s.mem.wbOut.erase (loc, s.fabric.self, line) }

/-- The number under which the churn engine's reads of pool memory are kept when they fail. -/
def churnLoc : Nat := unitLoc 2

/-- POOL_COMPLETION (R94). -/
def execPoolCompletion (token : Nat) (data : List Byte) (poison : Bool) (s : State) : Res :=
  match s.host.pendingReads.find? (fun r => r.1 == token) with
  | none => .next s
  | some (_, r) =>
    match r with
    | .poolWrite a v0 v1 => .next (if opPosted a.how then (s.dropRead token).ackPosted a else (s.dropRead token).deliverResult a v0 v1)
    | .access a => if region a.pa = 8 then .next s else .next ((s.dropRead token).poolData a data poison)
    | .line loc line =>
      let s := s.dropRead token
      let s := if poison then s.setMem (markPoison s.mem (line * 64) 64) else s
      .next (s.post (.lineFill loc s.fabric.self line data))
    | .lineWrite loc line => .next ((s.dropRead token).lineOut loc line)
    | .page n =>
      let s := s.dropRead token
      .next (s.setChurn { s.churn with bufs := mput s.churn.bufs n (mget s.churn.bufs n [] ++ data) })
    | .pageWrite _ => .next (s.dropRead token)
    | _ => .next s

/-- A write of a cache to pool memory has met the timeout: its data are lost, and the host has the record (R94, R111). -/
def State.writeTimeout (s : State) (loc line : Nat) : State :=
  (s.lineOut loc line).jobFault 0 (faultWords
    { engine := 4, cause := causePooltmo, job := 0, place := gcid s unitPool, va := w64 (line * 64 / 4096 * 4096),
      access := accStore, size := 6, spec := false, slot := 0, cmd := 0, level := 0, token := 0 })

/-- POOL_TIMEOUT (R94): 50 ms without a completion; the fault is met at the access, or at what reads the line. -/
def execPoolTimeout (token : Nat) (s : State) : Res :=
  match s.host.pendingReads.find? (fun r => r.1 == token) with
  | some (_, .access a) => if region a.pa = 8 then .next s else .next ((s.dropRead token).homeFault a causePooltmo)
  | some (_, .poolWrite a _ _) => .next ((s.dropRead token).homeFault a causePooltmo)
  | some (_, .line loc line) => .next ((s.dropRead token).lineFailed loc s.fabric.self line causePooltmo)
  | some (_, .lineWrite loc line) => .next ((s.dropRead token).writeTimeout loc line)
  | some (_, .page n) => .next ((s.dropRead token).lineFailed churnLoc s.fabric.self n causePooltmo)
  | some (_, .pageWrite n) => .next ((s.dropRead token).lineFailed churnLoc s.fabric.self n causePooltmo)
  | _ => .next s

/-- The sum of the enabled window sizes in bytes. -/
def cxlTotal (s : State) : Nat := ((List.range 8).map (cxlSize s)).foldl (· + ·) 0

/-- CXLWIN_WRITE (R95). -/
def execCxlwinWrite (n : Nat) (v : Word) (s : State) : Res :=
  if 8 ≤ n then .next s
  else
    let old := (mget s.host.cxlwin n 0).toNat
    let w := v.toNat
    let put (x : Nat) : State := s.setHost { s.host with cxlwin := mput s.host.cxlwin n (w64 x) }
    if bit old 0 then
      -- only EN may change while it is set
      .next (if bit w 0 then s else put (bits old 63 14 * 2 ^ 14 + bits old 1 1 * 2))
    else
      let body := bits w 63 14 * 2 ^ 14 + bits w 1 1 * 2
      if !bit w 0 then .next (put body)
      else if 2 ^ 42 < cxlTotal s + (bits w 27 14 + 1) * 2 ^ 28 then .next (put (body + 4))
      else .next (put (body + 1))

end Sys2Proof.Machine
end

