-- ==== Sys2Proof/Machine/Faults.lean ====
section
/-! DEFINITION. The fault ring, the replay queues, replay and abort of what waits in them (spec 05 R111 to R114,
06 R133). -/

namespace Sys2Proof.Machine

open Sys2Proof

/-! ## The fault ring (R133) -/

/-- FAULT_RING_RETRY (R133): the slot for the oldest record is read again, unless it is being read or written at a home
elsewhere; the next record follows one that has been written. -/
def execFaultRingRetry (launch : Nat) (s : State) : Res :=
  match s.launchAt launch with
  | none => .next s
  | some l => match l.stalled with
    | (0, w) :: rest =>
      let s := (s.untimer (.faultRingRetry launch)).tryRing launch l w
      let left := (s.launchAt launch).elim [] Launch.stalled
      .next (if !left.isEmpty && left.length ≤ rest.length then s.post (.faultRingRetry launch) else s)
    | _ => .next s

/-! ## Replay (R113, R114) -/

/-- What waited goes on (R114). -/
def State.resumeWait (s : State) (token : Nat) (w : Waiting) : State :=
  match w with
  | .thread id =>
    let sl := s.slotAt id
    if sl.st == .fault token then s.setSlot id { sl with st := .running } else s
  | .access a => s.rerun a
  | .copy cl sid => match s.cp? cl sid with
    | none => s
    | some c => s.setCp cl sid { c with fault := none }
  | .footprint cl task => match (s.cluster cl).task? task with
    | none => s
    | some t => match t.st with
      | .fetch core slot => s.post (.footprintFetchDone ⟨core, slot⟩)
      | .resume core slot _ => s.post (.footprintFetchDone ⟨core, slot⟩)
      | _ => s.post (.waitWordRead cl task)
  | .churn n => match mget? s.churn.cmds n with
    | none => s
    | some _ => s.post (.churnGo n)
  | .call n => (s.stallCall n false).serveCall n
  | .future n => (s.stallFutOp n false).serveFutOp n
  | .token n => match mget? s.agents.tokOps n with
    | none => s
    | some o => (s.setTokOp n { o with stalled := false }).serveTok n
  | .hart n _ => s.setHart n { s.hartAt n with stall := none }
  | .launch id d va graph => launchServe s id d va graph
  | .gang init launch => s.post (.gangTaskFetchDone init launch)
  | .ring i => s.post (.faultRingRetry i)

/-- REPLAY_QUEUE_FREE (R113): an access that stopped on full queues runs again, and the units are polled. Slots, streams and
dispatchers try again at their next turn by themselves. -/
def execReplayQueueFree (s : State) : Res :=
  let l := s.mem.stopped
  .next ((l.foldl (fun s r => s.resumeWait r.token r.what) (s.setMem { s.mem with stopped := [] })).pollUnits)

/-- Whether a launch's descriptor has a line that is still on its way. -/
def launchWaits (s : State) (w : Waiting) : Bool :=
  match w with
  | .launch id _ va graph =>
    let sl := s.slotAt id
    match (if graph then readGraph s sl.task (!sl.sup) id.core va else readLaunch s sl.task (!sl.sup) id.core va) with
    | .wait _ => true
    | _ => false
  | _ => false

/-- Asks for the lines of a launch's descriptor. -/
def State.askLaunch (s : State) (w : Waiting) : State :=
  match w with
  | .launch id _ va graph =>
    let sl := s.slotAt id
    match (if graph then readGraph s sl.task (!sl.sup) id.core va else readLaunch s sl.task (!sl.sup) id.core va) with
    | .wait s => s
    | _ => s
  | _ => s

/-- The waiting access of a token. -/
def State.waitingOf (s : State) (token : Nat) : Option Replay := s.mem.replay.find? (fun r => r.token == token)

/-- Takes an entry out of the replay queue: an engine that stopped on full queues may go on (R113). -/
def State.takeReplay (s : State) (token : Nat) : State :=
  (s.setMem { s.mem with replay := s.mem.replay.filter (fun r => r.token != token) }).post .replayQueueFree

/-- The die whose replay counter counts a replay (R24). -/
def replayDie (w : Waiting) : Nat :=
  match w with
  | .thread id => coreDie id.core
  | .access a => coreDie (homeOf a.pa)
  | .copy cl _ | .footprint cl _ => cl / 128
  | _ => 8

/-- FREPLAY_REPLAY (R113): a token that names nothing is counted as stale. -/
def execFreplayReplay (token : Nat) (s : State) : Res :=
  match s.waitingOf token with
  | none => .next (s.countLife (lifeReplay + 9) 48 1)
  | some r =>
    if launchWaits s r.what then .next ((s.askLaunch r.what).after 1 (.freplayReplay token))
    else .next (((s.takeReplay token).countLife (lifeReplay + replayDie r.what) 48 1).resumeWait token r.what)

/-! ## Abort (R114) -/

/-- The memory-fault trap of a thread (R415). -/
def memoryTrap (va pc : Word) : Trap := ⟨trapMemory, 0, va, pc⟩

/-- An access that is aborted (R114): a posted one is acknowledged, a release or a write-back is discarded as if
acknowledged, the task of a WAIT word fails, and any other traps its thread. Another module learns it. -/
def State.abortAccess (s : State) (a : Access) : State :=
  let src := (a.srcs.head?).getD ⟨a.org / 16, 0, 0⟩
  if opPosted a.how || a.release then s.ackPosted a
  else match a.how with
  | .line (some _) => match writerCp a.dst with
    | some (cl, sid) => s.post (.copyWritebackAck cl sid)
    | none => s.ackPosted a
  | _ =>
    if modOf src.core != s.fabric.self then s.respond 2 src.core src.slot (homeOf a.pa) (.aborted a false)
    else if maskAwait a then s.finishTok a.pc.toNat (streamResult .mask)
    else if a.how = .await then
      (match (s.cluster (clusterOf (coreOf src.core))).task? a.pc.toNat with
       | some t => s.failTask (clusterOf (coreOf src.core)) t
       | none => s)
    else match accessSlot s a with
      | some id => s.trapAccess id a trapMemory 0
      | none => if a.org = ringOrg s then s.ringFail a.launch else s

/-- A reservation of this module. -/
def State.prepOf (s : State) (init : Nat) (launch : Word) : Option Prep :=
  s.fabric.preps.find? (fun p => p.init == init && p.launch == launch)

/-- Aborts what waited (R114). -/
def State.abortWait (s : State) (token : Nat) (va : Word) (w : Waiting) : State :=
  match w with
  | .thread id =>
    let sl := s.slotAt id
    if sl.st == .fault token then (s.setSlot id { sl with st := .running }).raise id (memoryTrap va sl.pc) else s
  | .access a => s.abortAccess a
  | .copy cl sid => match s.cp? cl sid with
    | none => s
    | some c =>
      let s := (s.setCp cl sid { c with fault := none }).returnAll cl sid
      let s := s.endCp cl sid ((s.cp? cl sid).getD c) 1 0 0 false true
      s.finishCp cl sid ((s.cp? cl sid).getD c)
  | .footprint cl task => match (s.cluster cl).task? task with
    | none => s
    | some t => s.failTask cl t
  | .churn n => match mget? s.churn.cmds n with
    | none => s
    | some c => (s.setChurn { s.churn with cmds := mput s.churn.cmds n { c with st := c.st + 16 } }).post (.churnGo n)
  | .call n => match mget? s.agents.calls n with
    | none => s
    | some o => s.finishCall n (calltWord 0 (if o.denied then 4 else 3))
  | .future n => match mget? s.agents.futOps n with
    | none => s
    | some o => (s.dropFutOp n).endCall o.h 4 (match o.work with
      | .route => 10
      | _ => 7) 0
  | .token n => match mget? s.agents.tokOps n with
    | none => s
    | some o => match o.kind with
      | .inject =>
        if o.inTpl then (s.setTokOp n { o with stalled := false, noTpl := true }).serveTok n
        else match ubind (tokInjectBad o o.b.toNat) (fun r => ubind (uwrite o.client r.writes) (fun _ => uret r)) s with
          | .ok r s => (r.after s.dropUnitLines).finishTok n r.result
          | _ => s.finishTok n (streamResult o.kind)
      | _ => s.finishTok n (streamResult o.kind)
  | .hart n h => (s.setHart n { s.hartAt n with stall := none }).endCall h 4 7 0
  | .launch id d _ _ => s.unitResult id d (launchWord 5 0 0)
  | .gang init launch => s.gangSend init gpnakType
      { src := s.fabric.self, init := init, part := (s.prepOf init launch).elim 0 Prep.part, launch := launch, ntask := 0, reason := 8, desc := 0 }
  | .ring i => s.ringFail i

/-- FREPLAY_ABORT (R113, R114). -/
def execFreplayAbort (token : Nat) (s : State) : Res :=
  match s.waitingOf token with
  | none => .next (s.countLife (lifeReplay + 9) 48 1)
  | some r => .next ((s.takeReplay token).abortWait token r.va r.what)

end Sys2Proof.Machine
end

