-- ==== Sys2Proof/Machine/Gang.lean ====
section
/-! DEFINITION. Gang launch over several modules (spec 03 R75 to R78, 16 R397). A launch identifier holds the
initiator's launch index in its low 16 bits, and the launch has that index in every module. -/

namespace Sys2Proof.Machine

open Sys2Proof

/-- The launch index of a launch identifier. -/
def gangIndex (launch : Word) : Nat := launch.toNat % 65536

/-- A gang launch of this module as initiator. -/
def State.gangOf (s : State) (launch : Word) : Option GangInit := s.fabric.gangs.find? (fun g => g.launch == launch)

/-- Replaces a gang launch. -/
def State.setGang (s : State) (g : GangInit) : State :=
  s.setFabric { s.fabric with gangs := s.fabric.gangs.map (fun x => if x.launch == g.launch then g else x) }

/-- Removes a gang launch. -/
def State.dropGang (s : State) (launch : Word) : State :=
  s.setFabric { s.fabric with gangs := s.fabric.gangs.filter (fun g => g.launch != launch) }

/-- Replaces a reservation. -/
def State.setPrep (s : State) (p : Prep) : State :=
  s.setFabric { s.fabric with preps := s.fabric.preps.map (fun x =>
    if x.init == p.init && x.launch == p.launch then p else x) }

/-- Removes a reservation. -/
def State.dropPrep (s : State) (init : Nat) (launch : Word) : State :=
  (s.setFabric { s.fabric with preps := s.fabric.preps.filter (fun p => !(p.init == init && p.launch == launch)) }).untimer
    (.orphanTimeout init launch)

/-- The job that runs in a partition: GPREP names the partition and not the job. -/
def jobOfPart (s : State) (part : Nat) : Nat :=
  ((s.work.jobs.find? (fun j => j.2.running && j.2.part == part)).map (·.1)).getD 0

/-- A gang-control message of this module. -/
def gangMsg (s : State) (init : Nat) (launch : Word) (part reason : Nat) : GangMsg :=
  { src := s.fabric.self, init := init, part := part, launch := launch, ntask := 0, reason := reason, desc := 0 }

/-- The free places of a partition's queues and overflow rings, less those reserved. -/
def queueRoom (s : State) (part : Nat) : Nat :=
  let free := ((partClusters s part).map (fun cl =>
    (1024 - (s.cluster cl).queue.length) + (ringCap s cl - (s.cluster cl).ring.length))).foldl (· + ·) 0
  free - ((s.fabric.preps.filter (fun p => p.part == part && p.st < 3)).map Prep.ntask).foldl (· + ·) 0

/-- Why a module refuses a GPREP (R75); 0 when it does not. -/
def gprepReason (s : State) (m : GangMsg) : Nat :=
  let i := gangIndex m.launch
  let job := jobOfPart s m.part
  if partClusters s m.part == [] then 2
  else if !s.keyLive (s.keyOf job) then 3
  else if s.work.stops.any (fun g => g.part == m.part && (g.launch.isNone || g.launch == some i)) then 5
  else if (m.init != s.fabric.self && (s.launchAt i).isSome) || s.fabric.preps.any (fun p => gangIndex p.launch == i) then 4
  else if queueRoom s m.part < m.ntask then 1
  else 0

/-- GPREP (R75, R76, R78): entries are reserved, or the module refuses. -/
def execGprep (m : GangMsg) (s : State) : Res :=
  let s := s.arrive (.gprep m)
  let r := gprepReason s m
  if r = 0 then
    let s := s.setFabric { s.fabric with preps := s.fabric.preps ++
      [{ init := m.init, launch := m.launch, part := m.part, ntask := m.ntask, desc := m.desc, job := jobOfPart s m.part,
         st := 1, at_ := s.now }] }
    let s := s.gangSend m.init gpackType (gangMsg s m.init m.launch m.part 0)
    .next (s.after 340000 (.orphanTimeout m.init m.launch))
  else .next (s.gangSend m.init gpnakType (gangMsg s m.init m.launch m.part r))

/-- Sends a message to every module of a launch. -/
def State.gangAll (s : State) (g : GangInit) (kind reason : Nat) : State :=
  g.mods.foldl (fun s m => s.gangSend m.1 kind (gangMsg s s.fabric.self g.launch g.part reason)) s

/-- GPACK (R76 step 2): once every module has answered in time, GCOMMIT goes to all. -/
def execGpack (m : GangMsg) (s : State) : Res :=
  let s := s.arrive (.gpack m)
  match s.gangOf m.launch with
  | none => .next s
  | some g =>
    if g.phase != 0 || g.ends ≤ s.now || g.ackd.contains m.src then .next s
    else
      let g := { g with ackd := g.ackd ++ [m.src] }
      if !g.mods.all (fun x => g.ackd.contains x.1) then .next (s.setGang g)
      else
        let s := s.setGang { g with phase := 1, ends := s.now + 85000 }
        let s := (s.untimer (.gangPrepareTimeout g.launch)).gangAll g gcommitType 0
        .next (s.after 85000 (.gangStartTimeout g.launch))

/-- A gang launch has failed (R76, R77): the modules are told, the host and the LAUNCH have the reason, and the entry ends
FAILED, after GCOMMIT when this module handles its own GSTOP. -/
def State.failGang (s : State) (g : GangInit) (reason mod : Nat) : State :=
  let i := gangIndex g.launch
  let job := (s.launchAt i).elim 0 Launch.job
  let s := ((s.dropGang g.launch).untimer (.gangPrepareTimeout g.launch)).untimer (.gangStartTimeout g.launch)
  let s := s.gangAll g (if g.phase = 0 then gabortType else gstopType) reason
  let s := s.setLaunch i (fun l => { l with fail := true })
  let s := s.event 2 job g.launch (w64 (mod * 2 ^ 16 + reason)) (w64 i) 0
  let s := s.unitResult g.id g.d (launchWord 4 reason i)
  if g.phase = 0 then (s.setLaunch i (fun l => { l with count := 0 })).endLaunch i 5 else s

/-- GPNAK (R76): before GCOMMIT the launch is aborted with its reason; after it, stopped with reason 8. One that comes as the
window ends is late: the window's own end decides. -/
def execGpnak (m : GangMsg) (s : State) : Res :=
  let s := s.arrive (.gpnak m)
  match s.gangOf m.launch with
  | none => .next s
  | some g => .next (if g.ends ≤ s.now then s else s.failGang g (if g.phase = 0 then m.reason else 8) m.src)

/-- GCOMMIT (R76 step 3, R78): the task fetch begins; without a reservation the module refuses with reason 4. -/
def execGcommit (m : GangMsg) (s : State) : Res :=
  let s := s.arrive (.gcommit m)
  match s.prepOf m.init m.launch with
  | some p =>
    if p.st = 1 && s.now < p.at_ + 340000 then
      .next (((s.setPrep { p with st := 2 }).untimer (.orphanTimeout m.init m.launch)).post (.gangTaskFetchDone m.init m.launch))
    else .next (s.gangSend m.init gpnakType (gangMsg s m.init m.launch m.part 4))
  | none => .next (s.gangSend m.init gpnakType (gangMsg s m.init m.launch m.part 4))

/-- GSTART (R76): once every module has answered in time, LAUNCH has its result, and a plain launch its first completion
sweep (R448). -/
def execGstart (m : GangMsg) (s : State) : Res :=
  let s := s.arrive (.gstart m)
  match s.gangOf m.launch with
  | none => .next s
  | some g =>
    if g.phase != 1 || g.ends ≤ s.now || g.started.contains m.src then .next s
    else
      let g := { g with started := g.started ++ [m.src] }
      if !g.mods.all (fun x => g.started.contains x.1) then .next (s.setGang g)
      else
        let i := gangIndex g.launch
        let s := (s.dropGang g.launch).untimer (.gangStartTimeout g.launch)
        let s := s.unitResult g.id g.d (launchWord 0 0 i)
        if (s.launchAt i).elim true Launch.ord then .next s
        else
          let c : CSweep :=
            { launch := i, num := 0, colour := false, accepted := true, sweeping := false, idles := 0, got := [],
              began := s.now, fail := false }
          let s := s.setWork { s.work with csweeps := mput s.work.csweeps i c }
          let s := s.setLaunch i (fun l => { l with modules := g.mods.map (·.1) })
          .next (s.post (.csweepStart i))

/-- GABORT (R76): the reservation is released. -/
def execGabort (m : GangMsg) (s : State) : Res :=
  let s := s.arrive (.gabort m)
  match s.prepOf m.init m.launch with
  | some p => .next (if p.st = 1 then s.dropPrep m.init m.launch else s)
  | none => .next s

/-- A gang stop of one launch ends with the launch's cancellation: its stopped slots go on to be killed. -/
def State.stopEnds (s : State) (g : GangStop) : State :=
  let s := s.setWork { s.work with stops := s.work.stops.erase g }
  { s with cores := s.cores.map (fun (c : Nat × Core) => (c.1, { c.2 with
    slots := c.2.slots.map (fun (x : Nat × Slot) =>
      if x.2.halted && !stopped s x.2.task then (x.1, { x.2 with halted := false }) else x) })) }

/-- GSTOP (R76 step 4): the launch's tasks on this module are stopped and cancelled, a waiting task fetch is withdrawn,
and the entry ends FAILED. -/
def execGstop (m : GangMsg) (s : State) : Res :=
  let s := s.arrive (.gstop m)
  let i := gangIndex m.launch
  let s := s.dropPrep m.init m.launch
  let s := s.setMem { s.mem with replay := s.mem.replay.filter (fun r => r.what != .gang m.init m.launch) }
  match s.launchAt i with
  | none => .next s
  | some l =>
    if l.init != m.init || !l.multi || l.st != 2 then .next s
    else
      let g : GangStop := ⟨m.init, l.part, some i, false⟩
      .next (((((s.gangStop g none).cancelLaunch i).stopEnds g).setLaunch i (fun l => { l with fail := true })).endLaunch i 5)

/-- The task packets of a module and their targets: its entry of the module list, then both runs (R396, R76). -/
def readGang (x : Client) (self : Nat) (desc : Word) : UM (List Byte × List Byte × List Byte) :=
  ubind (uread x desc 192) (fun l =>
    let d := descOf l
    let va (w : Word) : Word := (w.truncate 54 : BitVec 54).signExtend 64
    if 256 < d.nmod then uret (l, [], [])
    else ubind (uread x (va d.modva) (32 * d.nmod)) (fun ml =>
      match (modEntries ml 0 d.nmod).find? (fun e => e.1 == self) with
      | none => uret (l, [], [])
      | some e => ubind (uread x (va e.2.2.1) (64 * e.2.1)) (fun ps =>
          ubind (uread x (va e.2.2.2) (4 * e.2.1)) (fun ts => uret (l, ps, ts)))))

/-- The packets of a module with their target cores. -/
def gangPackets (ps ts : List Byte) : Nat → List (Words8 × Nat)
  | 0 => []
  | n + 1 => gangPackets ps ts n ++ [(packetOf (ps.drop (64 * n)), bytesNat ((ts.drop (4 * n)).take 2))]

/-- Enqueues one packet, with its fields filled as by POST from the launch unit (R397). -/
def State.gangEnqueue (s : State) (i : Nat) (d : Desc) (p : Words8) (k : Nat) : State :=
  let (seq, s) := s.takeSeq unitLaunch
  let p := fillPacket p (gcid s unitLaunch) seq (if d.ord then d.blk.time0 else 0) i d.ord (coreNum k)
  let s := s.raiseCount i 1
  s.bumpTask.enqueue (clusterOf k) (newQTask s p false)

/-- The launch's entry on a module that is not its initiator: COUNT begins at 0. -/
def State.openGangLaunch (s : State) (p : Prep) (d : Desc) (mods : List Nat) : State :=
  let i := gangIndex p.launch
  if (s.launchAt i).isSome then s
  else
    let s := s.addLaunch i { newLaunch s d p.job p.part 0 0 mods with count := 0, init := p.init, multi := true }
    if d.ord then s.joinOrdered p.part i d.blk 0 else s

/-- GANG_TASK_FETCH_DONE (R76 step 3): the fetch ends, the tasks are enqueued, and GSTART goes to the initiator; the
event comes again while something is missing. The initiator's module also posts the root task. -/
def execGangTaskFetchDone (init : Nat) (launch : Word) (s : State) : Res :=
  match s.prepOf init launch with
  | none => .next s
  | some p =>
    if p.st != 2 then .next s
    else
      let i := gangIndex launch
      match readGang ⟨unitLaunch, p.job, true⟩ s.fabric.self p.desc s with
      | .wait s => .next (s.after 1 (.gangTaskFetchDone init launch))
      | .stop _ => .next s
      | .zpage pte va => .next (s.askPage pte p.job va i (.gang init launch))
      | .fault c lv a va =>
        .next ((s.raiseFault
          { engine := 0, cause := c, job := p.job, place := gcid s unitLaunch, va := va, access := a, size := 6,
            spec := false, slot := 0, cmd := 0, level := lv, token := 0 } i false (.gang init launch)).getD
          (s.after 16 (.gangTaskFetchDone init launch)))
      | .ok (l, ps, ts) s =>
        let d := descOf l
        let n := ts.length / 4
        let l := gangPackets ps ts n
        if l.any (fun x => queueFull s (clusterOf x.2)) then .next (s.after 16 (.gangTaskFetchDone init launch))
        else
          let s := s.dropUnitLines.openGangLaunch p d []
          let s := l.foldl (fun s x => s.gangEnqueue i d x.1 x.2) s
          let s := s.setPrep { p with st := 3 }
          let s := match s.gangOf launch with
            | some g => if init = s.fabric.self then s.sendTask (coreOf (bits g.root.w0.toNat 61 32)) rootPoster g.rootCore g.root
              else s
            | none => s
          let s := s.gangSend init gstartType (gangMsg s init launch p.part 0)
          .next (s.dropPrep init launch)

/-- GANG_PREPARE_TIMEOUT (R76 step 2): reason 6, and the first module that has not answered. -/
def execGangPrepareTimeout (launch : Word) (s : State) : Res :=
  match s.gangOf launch with
  | some g =>
    if g.phase = 0 then
      .next (s.failGang g 6 (((g.mods.find? (fun m => !g.ackd.contains m.1)).map (·.1)).getD 0))
    else .next s
  | none => .next s

/-- GANG_START_TIMEOUT (R76 step 4): reason 7, and the first module that has not answered. -/
def execGangStartTimeout (launch : Word) (s : State) : Res :=
  match s.gangOf launch with
  | some g =>
    if g.phase = 1 then
      .next (s.failGang g 7 (((g.mods.find? (fun m => !g.started.contains m.1)).map (·.1)).getD 0))
    else .next s
  | none => .next s

/-- ORPHAN_TIMEOUT (R78): the reservation is released and the host is told. -/
def execOrphanTimeout (init : Nat) (launch : Word) (s : State) : Res :=
  match s.prepOf init launch with
  | some p =>
    if p.st = 1 then
      .next ((s.dropPrep init launch).event 3 0 launch (w64 (init * 2 ^ 32 + p.part * 2 ^ 16)) 0 0)
    else .next s
  | none => .next s

end Sys2Proof.Machine
end

