-- ==== Sys2Proof/Machine/Homes.lean ====
section
/-! DEFINITION. The homes: migrants, acknowledgements of posted accesses, accesses at their homes, line and code fills, the
lines that modules hold of each other, the peer directory, and what else the packets of other modules ask for (spec 03 R62
to R66, R72 to R74, 05 R110, R120, R127, 06 R128, R134, R157, 09 R222, R229, R230, 10 R251, R253, 11 R261 to R277,
12 R290). -/

namespace Sys2Proof.Machine

open Sys2Proof

/-! ## Migrants (R62, R63, 09 R222, R229, R230) -/

/-- The task of a migrant as its packet gives it, when its dispatching core is in another module (R229). -/
def packetTask (m : Migrant) : Task :=
  let h0 := m.h0.toNat
  let h1 := m.h1.toNat
  let t0 := m.t0.toNat
  let t1 := m.t1.toNat
  { Task.reset with
    regs := BitVec.ofNat 2 (bits h0 63 62), ord := bit h0 60, prio := BitVec.ofNat 2 (bits h0 59 58),
    launch := bits h1 63 48, job := bits h1 47 32, part := m.part, dcore := bits h1 29 0, tfi := bits t0 26 25,
    tscl := BitVec.ofNat 16 (bits t0 24 9),
    nest := if bit t1 63 then some (bits t1 62 53, bits t1 52 49, bits t1 48 41) else none,
    spec := bits t1 40 35, sgen := BitVec.ofNat 8 (bits t1 34 27) }

/-- The dispatching core of a task of this module now, which a live migration may have moved (R155). -/
def State.dcoreNow (s : State) (t : Task) : Task :=
  if modOf t.dcore = s.fabric.self then { t with dcore := gcid s (s.forwarded (coreOf t.dcore)) } else t

/-- Whether a task that left this module is that of a packet: every field that the packet carries agrees. -/
def sameTask (t u : Task) : Bool :=
  t.regs == u.regs && t.ord == u.ord && t.launch == u.launch && t.job == u.job && t.dcore == u.dcore && t.nest == u.nest &&
  t.spec == u.spec && t.sgen == u.sgen && t.tscl == u.tscl

/-- The slot that a packet of this module left. -/
def State.leftSlot (s : State) (m : Migrant) : SlotId := ⟨s.forwarded (coreOf m.src), m.slot⟩

/-- The task of an arriving migrant: that of the slot it left, or the record that its dispatching core kept (R230). -/
def taskOfMigrant (s : State) (m : Migrant) : Task :=
  if modOf m.src = s.fabric.self then (s.slotAt (s.leftSlot m)).task
  else
    let t := s.dcoreNow (packetTask m)
    if modOf t.dcore = s.fabric.self then ((s.coreAt (coreOf t.dcore)).away.find? (sameTask t)).getD t else t

/-- A task that returns to its module is no longer away. -/
def State.back (s : State) (t : Task) : State :=
  if modOf t.dcore = s.fabric.self then
    let c := s.coreAt (coreOf t.dcore)
    s.setCore (coreOf t.dcore) { c with away := c.away.erase t }
  else s

/-- Whether a migrant's task has been rolled back on this module (R171). -/
def staleTask (s : State) (t : Task) : Bool :=
  t.ord && modOf t.dcore = s.fabric.self &&
  (mget (s.coreAt (coreOf t.dcore)).gens t.spec 0 != t.sgen || (mget? (s.coreAt (coreOf t.dcore)).spec t.spec).isNone)

/-- The slot of a core that a migrant may take now (R222). -/
def guestSlot (s : State) (k : Nat) : Option Nat :=
  let c := s.coreAt k
  let all := isTile s.part k && c.guestSlots != 0
  (List.range 16).find? (fun n =>
    (!all || 16 - c.guestSlots ≤ n) && (c.slotAt n).st == .free && !(c.slotAt n).reserved)

/-- The registers that a migrant carries. -/
def migrantRegs (m : Migrant) : Map RegCell :=
  ((List.range m.regs.length).filter (fun i => i != 0)).map (fun i => (i, ⟨m.regs.getD i 0, m.t0.getLsbD (32 + i), false⟩))

/-- A migrant enters a guest slot (R230): p0 to p3 are zero, PLOST says which were not. A pre-emption that was asked for before
it left goes on when it is back on its dispatching core (R153). -/
def State.enterGuest (s : State) (k n : Nat) (m : Migrant) (t : Task) : State :=
  let id : SlotId := ⟨k, n⟩
  let sl := (s.slotAt id).freed
  let s := if t.ord then s.countRecv k (s.partOfTask t) m.colour else s
  let s := if modOf m.src = s.fabric.self then s else s.back t
  let home := t.dcore == gcid s k
  s.setSlot id { sl with
    st := .running, guest := true, pc := ((BitVec.ofNat 54 m.h0.toNat).signExtend 64), sup := m.h0.getLsbD 61,
    regs := migrantRegs m, plost := BitVec.ofNat 4 (bits m.t0.toNat 31 28), preempt := home && t.pre,
    task := { t with pre := t.pre && !home }, halted := stopped s t }

/-- MACK or MNAK goes back to the slot that the migrant left. -/
def State.answerMigrant (s : State) (m : Migrant) (took : Bool) : State :=
  if modOf m.src = s.fabric.self then
    let id := s.leftSlot m
    s.send (2 ^ 26 + 2 ^ 20 + coreOf m.home) (srcKey id.core id.slot) (if took then .mack id else .mnak id)
  else
    let id : SlotId := ⟨coreOf m.src, m.slot⟩
    s.respond 3 m.src m.slot (coreOf m.home) (if took then .mack id else .mnak id)

/-- The holding buffer of an arrival: the module's for other modules' migrants, a die's inside the module (R63, R222). -/
def bufferOf (s : State) (m : Migrant) : Nat := if modOf m.src = s.fabric.self then coreDie (coreOf m.home) else 16

/-- The core that a migrant names, before its work may have moved: the one that its address has as home (R62, R156). -/
def namedCore (m : Migrant) : Nat :=
  match m.addr with
  | some pa => if region pa = 3 then bits pa 31 16 else coreOf m.home
  | none => coreOf m.home

/-- The core that a migrant enters: the destination module determines it from the address (R62); an address that is not
populated faults at a hub dock core (R108). -/
def migrantCore (s : State) (m : Migrant) : Nat :=
  match m.addr with
  | some pa =>
    if modOf m.src = s.fabric.self then s.forwarded (coreOf m.home)
    else if paOk s (fwdPa s pa) then s.pickHome (fwdPa s pa)
    else hubCore (bits pa 17 12)
  | none => s.forwarded (coreOf m.home)

/-- The refusals that a holding buffer remembers: a refused migrant comes again after 3,400 cycles, and one that has not come
within twice that is forgotten (R63, notes/assumptions/99). -/
def State.keepRefused (s : State) (m : Migrant) (add : Bool) : State :=
  let l := s.work.refused.filter (fun x => !(x.2.src == m.src && x.2.slot == m.slot) && decide (s.now ≤ x.1 + 6800))
  s.setWork { s.work with refused := if add then l ++ [(s.now, m)] else l }

/-- Whether a migrant with RESERVE has no older one before it that was refused: the reserved entries take the oldest by first
send time (R63). -/
def reserveTurn (s : State) (m : Migrant) : Bool :=
  !s.work.refused.any (fun x => bufferOf s x.2 == bufferOf s m &&
    (decide (x.2.sent < m.sent) || (x.2.sent == m.sent && decide (x.2.src * 16 + x.2.slot < m.src * 16 + m.slot))))

/-- A migrant enters a holding buffer (R63). -/
def State.holdMigrant (s : State) (m : Migrant) (t : Task) (res : Bool) : State :=
  (s.setWork { s.work with migrants := s.work.migrants ++ [⟨m, t, res⟩] }).answerMigrant m true

/-- MIGRANT_ARRIVAL (R63): a guest slot, a holding entry, or a refusal. -/
def execMigrantArrival (m : Migrant) (s : State) : Res :=
  let s := s.arrive (.migrantArrival m)
  if lmigHolds s (namedCore m) then .next (s.lmigHold (.migrantArrival m))
  else
    let t := taskOfMigrant s m
    if staleTask s t then
      .next ((if modOf m.src = s.fabric.self then s else s.back t).answerMigrant m true)
    else
      let k := migrantCore s m
      let m := { m with home := gcid s k }
      let s := s.keepRefused m false
      let mine := s.work.migrants.filter (fun x => bufferOf s x.m == bufferOf s m)
      let plain := (mine.filter (fun x => !x.res)).length
      match (if migrantWaits s k then none else guestSlot s k) with
      | some n => .next ((s.enterGuest k n m t).answerMigrant m true)
      | none =>
        if plain < 28 then .next (s.holdMigrant m t false)
        else if m.reserve && mine.length - plain < 4 && reserveTurn s m then .next (s.holdMigrant m t true)
        else .next (((s.keepRefused m m.reserve).countLife (lifeRefusal + coreDie k) 48 1).answerMigrant m false)

/-- MIGRANT_ENTRY (R63): the oldest migrant that waits for a core takes a slot that is free. -/
def execMigrantEntry (core : Nat) (s : State) : Res :=
  match s.work.migrants.find? (fun x => coreOf x.m.home == core) with
  | none => .next s
  | some x =>
    if staleTask s x.task then
      .next ((s.setWork { s.work with migrants := s.work.migrants.erase x }).post (.migrantEntry core))
    else match guestSlot s core with
      | none => .next s
      | some n =>
        let s := s.setWork { s.work with migrants := s.work.migrants.erase x }
        .next ((s.enterGuest core n x.m x.task).post (.migrantEntry core))

/-- Whether a task's launch has been cancelled in this module (R134). -/
def taskCancelled (s : State) (t : Task) : Bool := (s.launchOf t).elim false Launch.cancelled

/-- MACK (R63): the slot is free. The task record stays on its dispatching core when the thread has left the module, with a
pre-emption that was asked for (R153); the modules are told again of a cancelled launch (R134). -/
def execMack (id : SlotId) (s : State) : Res :=
  let s := s.arrive (.mack id)
  let id : SlotId := ⟨s.forwarded id.core, id.slot⟩
  let sl := s.slotAt id
  match sl.st, sl.mack with
  | .away, some m =>
    let t := s.dcoreNow { sl.task with pre := sl.task.pre || sl.preempt }
    let k := coreOf t.dcore
    let s := if modOf m.home != s.fabric.self && modOf t.dcore = s.fabric.self && !sl.doomed then
        let s := s.setCore k { s.coreAt k with away := (s.coreAt k).away ++ [t] }
        if taskCancelled s t then s.post (.cancelAgain t.launch) else s
      else s
    .next (s.freeSlot id)
  | _, _ => .next s

/-- MNAK (R63): the migrant is sent again after 2 µs. A thread that has been rolled back or cancelled ends here. -/
def execMnak (id : SlotId) (s : State) : Res :=
  let s := s.arrive (.mnak id)
  let id : SlotId := ⟨s.forwarded id.core, id.slot⟩
  let sl := s.slotAt id
  match sl.st with
  | .away =>
    if sl.doomed then .next (s.dropThread id)
    else if taskCancelled s sl.task then .next (s.killTask id)
    else .next ((s.setSlot id { sl with mnaks := sl.mnaks + 1 }).after 3400 (.migrantResend id))
  | _ => .next s

/-- MIGRANT_RESEND (R63): after the eighth refusal in a row with RESERVE. -/
def execMigrantResend (id : SlotId) (s : State) : Res :=
  let sl := s.slotAt id
  match sl.st, sl.mack with
  | .away, some m =>
    let m := { m with reserve := 8 ≤ sl.mnaks }
    .next ((s.setSlot id { sl with mack := some m }).sendMigrant id m sl.task.launch)
  | _, _ => .next s

/-! ## Acknowledgements of posted accesses (R65, R66) -/

/-- PWACK (R65). -/
def execPwack (id : SlotId) (count : Nat) (s : State) : Res :=
  let s := s.arrive (.pwack id count)
  let id : SlotId := ⟨s.forwarded id.core, id.slot⟩
  .next (s.setSlot id { s.slotAt id with posted := (s.slotAt id).posted - count })

/-- PWACK_COMBINE_TIMEOUT (R65): a combined acknowledgement leaves. -/
def execPwackCombineTimeout (id : SlotId) (s : State) : Res :=
  match s.fabric.acks.find? (fun x => x.1 == id) with
  | none => .next s
  | some (_, n) =>
    .next ((s.setFabric { s.fabric with acks := s.fabric.acks.filter (fun x => x.1 != id) }).respondAck id.core id.slot n)

/-! ## Accesses at their homes (11 R261, R272 to R277) -/

/-- What follows when an access has been performed. -/
def State.performed (s : State) (a : Access) (v0 v1 : Word) : State :=
  if opPosted a.how then s.ackPosted a else (s.ackPosted a).deliverResult a v0 v1

/-- The frame of a moving page that holds arriving accesses: the old one once frozen, the new one while pending
(R120). -/
def movingOf (s : State) (pa : Nat) : Option MovingPage :=
  s.mem.moving.find? (fun m => (m.old == pa / 4096 && m.frozen) || (m.new == pa / 4096 && m.pending))

/-- An access waits in the replay queue of a page that moves. -/
def State.waitPage (s : State) (p : MovingPage) (a : Access) : State :=
  s.setMem { s.mem with moving := s.mem.moving.map (fun (m : MovingPage) =>
    if m.old = p.old && m.new = p.new then { m with queue := m.queue ++ [a] } else m) }

/-- An access to a register of the MMIO window from another module (R338). -/
def State.deviceAccess (s : State) (a : Access) : State :=
  let off := a.pa % 2 ^ 48
  if !paOk s a.pa then s.homeFault a causePhysaddr
  else if opTagged a.how then s.homeFault a causeUntagged
  else match a.how with
  | .store n v => (s.mmioWrite off n v.toNat).ackPosted a
  | .load f => s.deliverResult a (extendLoad f (s.mmioRead off (opSize a.how))) 0
  | _ => s.homeFault a causeUnsupatom

/-- Whether an access at a home stands behind another to its line that has to come again: they keep their order (R261). -/
def homeBehind (s : State) (a : Access) : Bool := behind s (a, 6) (fun w => w.2 == 6 && w.1.pa / 64 == a.pa / 64)

/-- HOME_ACCESS (R261): an arriving access is performed, waits for its tag, or faults. One for a core whose work moves waits,
and one for a core whose work has moved goes there (R155, R156). -/
def execHomeAccess (a : Access) (s : State) : Res :=
  let s := s.arrive (.homeAccess a)
  let r := region a.pa
  if r = 14 then .next (s.deviceAccess a)
  else if r = 8 then .next (s.hostAccess a)
  else if 4 ≤ r && r ≤ 7 then
    .next (match movingOf s a.pa with
      | some p => (s.unwait a 5).waitPage p a
      | none => s.poolAccess a)
  else if r = 3 && lmigHolds s (bits a.pa 31 16) then .next (s.lmigHold (.homeAccess a))
  else if fwdPa s a.pa != a.pa then .next (s.post (.homeAccess { a with pa := fwdPa s a.pa }))
  else if homeBehind s a then .next (s.waitAt a 6 1)
  else
    let s := s.unwait a 6
    match movingOf s a.pa with
    | some p => .next (s.waitPage p a)
    | none => match perform s a with
      | .done s v0 v1 => .next (s.performed a v0 v1)
      | .wait s => .next (s.addWaiter a)
      | .fault c => .next (s.homeFault a c)
      | .poison => .next (s.poisonTrap a)
      | .busy s => .next (s.waitAt a 6 1)

/-- The waiters with one replaced. -/
def setWaiter (a : Access) (w : Waiter) : List Waiter → List Waiter
  | [] => []
  | x :: l => if x.acc = a then w :: l else x :: setWaiter a w l

/-- Whether a waiter is the one that a retry names: a barrier's block may have moved with its page (R120). -/
def retries (a : Access) (w : Waiter) : Bool := (if opBarrier a.how then { w.acc with pa := a.pa } else w.acc) == a

/-- An arrival outside its home's list reads GEN and FLT every 16 cycles until either changes (R358). -/
def State.pollBarrier (s : State) (w : Waiter) : State :=
  match lineBusy s w.acc.pa false with
  | some s => s.after 1 (.syncRetry w.acc)
  | none =>
    let v := s.barWord w.acc
    let same := bits v 63 32 == w.tries
    if same && !bit v 0 then s.after 16 (.syncRetry w.acc)
    else (s.setMem { s.mem with waiters := s.mem.waiters.erase w }).deliverResult w.acc (barResult w.tries (b2n same)) 0

/-- SYNC_RETRY (R273, R275): a waiter's access runs again; it keeps its place while it waits, and parks after COUNT
retries when its home's list has room. -/
def execSyncRetry (a : Access) (s : State) : Res :=
  match s.mem.waiters.find? (retries a) with
  | none => .next s
  | some w =>
    if opBarrier a.how then .next (if w.parked then s else s.pollBarrier w)
    else
    let out := s.setMem { s.mem with waiters := s.mem.waiters.eraseP (fun w => w.acc == a) }
    match performAgain out a with
    | .done s v0 v1 => .next (s.performed a v0 v1)
    | .fault c => .next (out.homeFault a c)
    | .poison => .next (out.poisonTrap a)
    | .busy _ => .next (((lineBusy s a.pa true).getD s).after 1 (.syncRetry a))
    | .wait _ =>
      let w' := { w with tries := w.tries + 1, parked := w.parked ||
        (s.mgmt.syncretry ≤ w.tries + 1 && parkedAt s (homeOf a.pa) < waiterCap (homeOf a.pa)) }
      let s := s.setMem { s.mem with waiters := setWaiter a w' s.mem.waiters }
      .next (if w'.parked then s else s.after 16 (.syncRetry a))

/-- The results of an access at another module's home come back (R338). -/
def execResultArrival (a : Access) (v0 v1 : Word) (s : State) : Res := .next (s.deliverResult a v0 v1)

/-- An access at another module's home has been aborted, or has met poison (R114, R415). -/
def execAbortArrival (a : Access) (psn : Bool) (s : State) : Res := .next (if psn then s.poisonTrap a else s.abortAccess a)

/-! ## Fills -/

/-- The partition of a cache's cluster. -/
def partOfCache (s : State) (loc : Nat) : Nat :=
  if loc < 1024 then (partOfCore s (clusterCore loc 0)).getD 0
  else if 5000 ≤ loc && loc < 6024 then (partOfCore s (clusterCore (loc - 5000) 0)).getD 0 else 0

/-- The words of a line's bytes. -/
def codeWords (l : List Byte) : List (BitVec 32) :=
  (List.range 16).map (fun i => BitVec.ofNat 32 (bytesNat ((l.drop (4 * i)).take 4)))

/-- The lines of a code cache with which a line shares its places, and how many there are: 8 ways of 128 sets for a cluster,
16 KiB for a slice, 64 KiB for the hub (R290, notes/assumptions/93). -/
def codeSet (loc line : Nat) (c : CodeLine) : Bool :=
  c.loc == loc && (4100 ≤ loc || c.line % 128 == line % 128)
def codeWays (loc : Nat) : Nat := if loc < 4100 then 8 else if loc = 4999 then 1024 else 256

/-- Puts a line into its code cache: where its places are taken, any of their lines goes. -/
def putCode (l : List CodeLine) (c : CodeLine) (pick : Nat) : List CodeLine :=
  let mine := l.filter (codeSet c.loc c.line)
  let kept := if mine.length < codeWays c.loc then l else (mine[pick % mine.length]?).elim l l.erase
  kept ++ [c]

/-- A code line that has been asked for arrives with its words. -/
def State.codeFilled (s : State) (loc line : Nat) (words : CodeLine → List (BitVec 32)) : State :=
  let hit (c : CodeLine) : Bool := c.loc == loc && c.line == line
  let new := (s.mem.codeFills.filter hit).map (fun (c : CodeLine) => { c with words := words c })
  s.setMem { s.mem with codeFills := s.mem.codeFills.filter (fun c => !hit c), code := new.foldl (fun l c => putCode l c (s.pick Config.useCodeLine)) s.mem.code }

/-- CODE_LINE_FILL (R290): a line of this module, read under the keys of those that asked for it. -/
def execCodeLineFill (cluster line : Nat) (s : State) : Res :=
  let s := s.arrive (.codeLineFill cluster line)
  let pa := line % 2 ^ 46 * 64
  if line / 2 ^ 46 != s.fabric.self then .next s
  else match lineBusy s pa false with
    | some s => .next (s.after 1 (.codeLineFill cluster line))
    | none => .next ((s.heat pa).codeFilled cluster line (fun c => lineWords s (s.accKey c.job (w64 (c.vpage * 4096))) pa))

/-- A line arrives at a cache with its poisoned words and its key: at a code cache, for another module, or where it has been
asked for (R270, R251, R290). -/
def State.fillLine (s : State) (loc dev line : Nat) (data : List Byte) (psn : BitVec 8) (key : Nat) : State :=
  if remLoc 0 0 ≤ loc then
    (s.setMem { s.mem with fills := s.mem.fills.erase (loc, dev, line) }).respond 2 (remMod loc * 65536 + unitRouter) 0
      unitPool (.lineData (loc % 2 ^ 21) line data psn (wireKey s key))
  else if 3000 ≤ loc && loc < 5000 then
    let read (c : CodeLine) : List Byte :=
      (CLine.mk loc dev line 0 0 key data 0 psn).read (s.accKey c.job (w64 (c.vpage * 4096)))
    (s.setMem { s.mem with fills := s.mem.fills.erase (loc, dev, line) }).codeFilled loc (dev * 2 ^ 46 + line)
      (fun c => codeWords (read c))
  else if !s.mem.fills.contains (loc, dev, line) then s
  else
    let part := partOfCache s loc
    s.setMem { putLine s.mem ⟨loc, dev, line, s.phaseOf part, part, key, data, 0, psn⟩ with
      fills := s.mem.fills.erase (loc, dev, line) }

/-- LINE_FILL (R270, R251): a line of this module, of its pool or host space, or one that the remote-line cache holds; when
that has gone meanwhile the cache asks again. -/
def execLineFill (cluster dev line : Nat) (data : List Byte) (s : State) : Res :=
  let s := s.arrive (.lineFill cluster dev line data)
  if dev = s.fabric.self then .next (s.fillLine cluster dev line data 0 ((mget? s.mem.keys line).getD noKey))
  else match findLine s.mem remoteCache dev line with
    | some r => .next (s.fillLine cluster dev line data r.psn r.key)
    | none => .next (s.setMem { s.mem with fills := s.mem.fills.erase (cluster, dev, line) })

/-- WS_REFRESH (R253): a group's reads stall until the span ends. -/
def execWsRefresh (group : Nat) (s : State) : Res :=
  .next (s.setMem { s.mem with refresh := mput s.mem.refresh group (s.now + 13600) })

/-! ## Lines of this module that other modules ask for (R72, R73) -/

/-- The router of another module, which asks for lines. -/
def routerOf (modid : Nat) : Nat := modid * 65536 + unitRouter

/-- The poisoned words of a line of this module. -/
def linePsn (s : State) (pa : Nat) : BitVec 8 :=
  (List.range 8).foldl (fun m i => if s.isPoison (pa + 8 * i) then m ||| (1#8 <<< i) else m) 0

/-- The bytes of a line of this module as its home holds them. -/
def lineBytes (s : State) (pa : Nat) : List Byte :=
  if region pa = 3 then s.scrBytes (bits pa 31 16) (pa % 65536) 64 else bytesAt s.mem.cells pa 64

/-- Answers a line request with the line. -/
def State.sendLine (s : State) (modid cache line pa : Nat) : State :=
  s.respond 2 (routerOf modid) 0 (homeOf pa)
    (.lineData cache line (lineBytes s pa) (linePsn s pa) (wireKey s ((mget? s.mem.keys (pa / 64)).getD noKey)))

/-- Answers a line request with a fault. -/
def State.faultLine (s : State) (modid cache line cause : Nat) : State :=
  s.respond 2 (routerOf modid) 0 unitRouter (.lineFault cache line cause)

/-- The fault of a request of another module for a line: it has no job under which host space could be read. -/
def askedFault (s : State) (pa : Nat) : Option Nat :=
  if region pa = 8 then some causeNohost else if region pa = 14 then some causePerm
  else if !paOk s pa then some causePhysaddr else none

/-- The set of the peer directory in which a line lies: 1,048,576 entries in 16 ways (R73, notes/assumptions/93). -/
def dirSet (line : Nat) : Nat := line % 65536

/-- The line whose entry makes room for a new one in a full set of the peer directory (R73). -/
def dirVictim (s : State) (line : Nat) : Option Nat :=
  let mine := (s.mem.peers.filter (fun p => dirSet p.1 == dirSet line)).map (·.1)
  if mine.contains line || mine.length < 16 then none else mine[s.pick Config.usePeer % mine.length]?

/-- Another module asks for a line (R72, R73): it joins the sharers of a COH line; PHASED lines are not entered. -/
def execLineAsked (modid line cache : Nat) (shared : Bool) (s : State) : Res :=
  let pa := fwdPa s (line * 64)
  let again (s : State) : State := s.after 1 (.lineAsked modid line cache shared)
  match askedFault s pa with
  | some c => .next (s.faultLine modid cache line c)
  | none =>
    if region pa = 3 && lmigHolds s (bits (line * 64) 31 16) then .next (s.lmigHold (.lineAsked modid line cache shared))
    else if isPool pa then
      let s := s.askLine (remLoc modid cache) s.fabric.self line
      .next (if s.mem.fills.contains (remLoc modid cache, s.fabric.self, line) then s else again s)
    else match lineBusy s pa false with
      | some s => .next (again s)
      | none =>
        if !shared then .next ((s.heat pa).sendLine modid cache line pa)
        else match dirVictim s (pa / 64) with
          | some v => .next (again (s.recallPeers v))
          | none =>
            let e := (mget? s.mem.peers (pa / 64)).getD ([], 0)
            let s := s.setMem { s.mem with peers := mput s.mem.peers (pa / 64) (joinSharers e.1 modid, 0) }
            .next ((s.heat pa).sendLine modid cache line pa)

/-- A write-back of another module is lost, and the host has the record (R111). -/
def State.storeFault (s : State) (pa cause : Nat) : State :=
  s.jobFault 0 (faultWords
    { engine := engineAt (homeOf pa), cause := cause, job := 0, place := gcid s (homeOf pa), va := w64 (pa / 4096 * 4096),
      access := accStore, size := 6, spec := false, slot := 0, cmd := 0, level := 0, token := 0 })

/-- A line that another module writes back is merged at its home (R72, R270): under a key that is not LIVE it is discarded and
counted (R127). -/
def State.storeLine (s : State) (modid cache pa : Nat) (data : List Byte) (mask : BitVec 64) (psn : Bool) (key : Nat) :
    State :=
  let k := localKey s key
  let l : CLine := ⟨0, s.fabric.self, pa / 64, 0, 0, k, data, mask, 0⟩
  if !paOk s pa then s.storeFault pa causePhysaddr
  else if writeBarred s pa then s.storeFault pa causePerm
  else if region pa = 3 then
    let kc := bits pa 31 16
    let old := s.scrBytes kc (pa % 65536) 64
    let s := s.scrPut kc (pa % 65536) ((List.range 64).map (fun i => if mask.getLsbD i then data.getD i 0 else old.getD i 0))
    let c := s.coreAt kc
    s.setCore kc (c.setRow (rowOf pa) { c.row (rowOf pa) with poison := psn })
  else if key < 64 && !s.keyLive k then
    s.setMgmt { s.mgmt with dropped := mput s.mgmt.dropped key (mget s.mgmt.dropped key 0 + 1) }
  else
    let s := s.heat pa
    let ps := l.wholeWords.foldl (fun p i => if psn then numIns p (pa / 8 + i) else numDel p (pa / 8 + i)) s.mem.poison
    if isPool pa then
      (dirtyRuns l 0 65).foldl (fun s r => s.poolSend (pa + r.1) r.2 true (.lineWrite (remLoc modid cache) (pa / 64)))
        (s.setMem { s.mem with poison := ps, keys := if key = 64 then s.mem.keys else mput s.mem.keys (pa / 64) k })
    else
      let m := if key = 64 then mergeLine s.mem { l with key := (mget? s.mem.keys (pa / 64)).getD 0 } else mergeLine s.mem l
      s.setMem { m with poison := ps }

/-- An answer to a recall is there; with the last one the home goes on (R73). -/
def State.recallAnswered (s : State) (line modid : Nat) : State :=
  if !s.mem.recallOut.contains (line, modid) then s
  else
    let s := s.setMem { s.mem with recallOut := s.mem.recallOut.erase (line, modid) }
    if s.mem.recallOut.any (fun x => x.1 == line) then s else s.post (.peerRecallDone line)

/-- Another module writes a line back (R72, R270); a copy engine's write-back gives up the line (R251). -/
def execLineStored (modid line cache : Nat) (data : List Byte) (mask : BitVec 64) (psn : Bool) (key : Nat) (s : State) :
    Res :=
  let pa := fwdPa s (line * 64)
  if region pa = 3 && lmigHolds s (bits (line * 64) 31 16) then
    .next (s.lmigHold (.lineStored modid line cache data mask psn key))
  else if movingAt s pa then .next (s.after 1 (.lineStored modid line cache data mask psn key))
  else
    let s := s.storeLine modid cache pa data mask psn key
    let s := if isPool pa && s.host.pendingReads.any (fun r => r.2 == .lineWrite (remLoc modid cache) (pa / 64)) then s
      else s.respond 2 (routerOf modid) 0 (homeOf pa) (.lineWritten cache line)
    if (writerCp cache).isSome && (mget? s.mem.peers (pa / 64)).any (fun e => e.2 == modid + 1) then
      .next ((s.setMem { s.mem with peers := mdel s.mem.peers (pa / 64) }).recallAnswered (pa / 64) modid)
    else .next s

/-- The answer of another module to a recall (R73): an owner that answers with nothing has its write-back on the way. -/
def execRecalledArrival (modid line : Nat) (data : Option (List Byte × Bool × Nat)) (s : State) : Res :=
  match data with
  | none =>
    if (mget? s.mem.peers line).any (fun e => e.2 == modid + 1) then .next s else .next (s.recallAnswered line modid)
  | some (l, psn, key) =>
    let s := if l.isEmpty then s else s.storeLine modid 0 (line * 64) l (BitVec.allOnes 64) psn key
    .next (s.recallAnswered line modid)

/-! ## Lines of other modules that this one has asked for (R72) -/

/-- The number under which ownership of a line is granted to an agent. -/
def ownLoc (agent : Nat) : Nat := 2 ^ 50 + agent

/-- Another module's home answers (R72): it grants ownership, or sends a line that goes to the remote-line cache and to the
caches that wait for it; a line recalled on its way is not kept. -/
def execLineDataArrival (modid cache line : Nat) (data : List Byte) (psn : BitVec 8) (key : Nat) (s : State) : Res :=
  if ownLoc 0 ≤ cache then
    .next (s.setFabric { s.fabric with
      ownAsked := s.fabric.ownAsked.filter (fun x => !(x.1 == modid && x.2.1 == line)),
      remoteOwn := if s.fabric.remoteOwn.contains (modid, line) then s.fabric.remoteOwn else s.fabric.remoteOwn ++ [(modid, line)] })
  else if cache = remoteCache then
    let k := localKey s key
    let ws := s.fabric.lineWaits.filter (fun w => w.2.1 == modid && w.2.2 == line)
    let part := (ws.head?).elim 0 (fun w => partOfCache s w.1)
    let s := if !s.mem.fills.contains (remoteCache, modid, line) then s
      else
        let s := s.remoteRoom line
        s.setMem { putLine s.mem ⟨remoteCache, modid, line, s.phaseOf part, part, k, data, 0, psn⟩ with
          fills := s.mem.fills.erase (remoteCache, modid, line) }
    let s := s.setFabric { s.fabric with lineWaits := s.fabric.lineWaits.filter (fun w => !(w.2.1 == modid && w.2.2 == line)) }
    .next (ws.foldl (fun s w => s.fillLine w.1 modid line data psn k) s)
  else .next (s.fillLine cache modid line data psn (localKey s key))

/-- A request for a line of another module has failed (R57): so it has for the caches that wait for it. -/
def State.requestFailed (s : State) (cache modid line cause : Nat) : State :=
  if ownLoc 0 ≤ cache then
    (s.setFabric { s.fabric with
      ownAsked := s.fabric.ownAsked.filter (fun x => !(x.1 == modid && x.2.1 == line)) }).lineFailed
        (5000 + clusterOf (coreOf (cache - ownLoc 0))) modid line cause
  else if cache = remoteCache then
    let ws := s.fabric.lineWaits.filter (fun w => w.2.1 == modid && w.2.2 == line)
    let s := s.setFabric { s.fabric with lineWaits := s.fabric.lineWaits.filter (fun w => !(w.2.1 == modid && w.2.2 == line)) }
    let s := s.setMem { s.mem with fills := s.mem.fills.erase (remoteCache, modid, line) }
    ws.foldl (fun s w => s.lineFailed w.1 modid line cause) s
  else s.lineFailed cache modid line cause

/-- The home has found a fault (R57, R108). -/
def execLineFaulted (modid cache line cause : Nat) (s : State) : Res := .next (s.requestFailed cache modid line cause)

/-- A write-back to another module's home is acknowledged (R251, R266). -/
def execLineWritten (cache dev line : Nat) (s : State) : Res :=
  match writerCp cache with
  | some (cl, sid) => .next (s.post (.copyWritebackAck cl sid))
  | none => .next (s.setMem { s.mem with wbOut := s.mem.wbOut.erase (cache, dev, line) })

/-- Another module recalls a line (R73, R252): shared copies go; a copy engine that owns it gives it back once its data are in
it; an owned line that nobody writes goes back as it was. -/
def execRecallArrival (modid line : Nat) (s : State) : Res :=
  let m := dropLine s.mem remoteCache modid line
  let s := s.setMem { m with fills := m.fills.erase (remoteCache, modid, line) }
  match s.work.clusters.find? (fun c => c.2.copyLines.any (fun o => o.dev == modid && o.line == line)) with
  | some c => .next (s.recallOwn c.1 modid line)
  | none =>
    let own := s.fabric.remoteOwn.contains (modid, line)
    let s := s.setFabric { s.fabric with remoteOwn := s.fabric.remoteOwn.erase (modid, line) }
    .next (s.respond 2 (routerOf modid) 0 unitRouter (.recalled line (if own then some ([], false, 64) else none)))

/-! ## The peer directory (R72 to R74) -/

/-- An ownership request comes before another by its cycle, then by its agent (R74). -/
def peerBefore (a b : Nat × Nat × Nat × Nat) : Bool := a.1 < b.1 || (a.1 == b.1 && a.2.2.2 < b.2.2.2)

/-- Inserts a request in order. -/
def insPeer (x : Nat × Nat × Nat × Nat) : List (Nat × Nat × Nat × Nat) → List (Nat × Nat × Nat × Nat)
  | [] => [x]
  | y :: l => if peerBefore x y then x :: y :: l else y :: insPeer x l

/-- Grants the first request that waits for a line, when nothing holds the line and the directory has room; recalls what
holds it otherwise. -/
def State.grantPeer (s : State) (line : Nat) : State :=
  match s.mem.peerWait.find? (fun x => x.2.1 == line) with
  | none => s
  | some x =>
    match lineBusy s (line * 64) true with
    | some s => s.after 1 (.peerRecallDone line)
    | none => match dirVictim s line with
      | some v => (s.recallPeers v).after 1 (.peerRecallDone line)
      | none =>
        let s := s.setMem { s.mem with peerWait := s.mem.peerWait.erase x, peers := mput s.mem.peers line ([], x.2.2.1 + 1) }
        let s := (s.heat (line * 64)).sendLine x.2.2.1 (ownLoc x.2.2.2) line (line * 64)
        if s.mem.peerWait.any (fun y => y.2.1 == line) then s.recallPeers line else s

/-- PEER_OWNERSHIP_REQUEST (R73, R74): granted when no agent holds the line, else queued behind a recall. Requests of one
cycle are taken in order of their agents. -/
def execPeerOwnershipRequest (line modid agent : Nat) (s : State) : Res :=
  match (askedFault s (line * 64)).or (if isPool (line * 64) then some causePerm else none) with
  | some c => .next (s.faultLine modid (ownLoc agent) line c)
  | none =>
    let s := s.setMem { s.mem with peerWait := insPeer (s.now, line, modid, agent) s.mem.peerWait }
    if s.sched.inbox.any (fun e => match e with
        | .peerOwnershipRequest l _ _ => l == line
        | _ => false) then .next s
    else if numHas s.mem.peerRecalls line then .next s
    else if peerBlocks s line true then .next (s.recallPeers line)
    else .next (s.grantPeer line)

/-- PEER_RECALL_DONE (R73): once every acknowledgement is there, the line has no holder and the home proceeds. -/
def execPeerRecallDone (line : Nat) (s : State) : Res :=
  if s.mem.recallOut.any (fun x => x.1 == line) then .next s
  else if !numHas s.mem.peerRecalls line then .next (s.grantPeer line)
  else
    .next ((s.setMem { s.mem with
      peerRecalls := numDel s.mem.peerRecalls line, peers := mdel s.mem.peers line }).grantPeer line)

/-- Marks the words of a line poisoned, in a scratchpad its row (R74). -/
def State.poisonLine (s : State) (line : Nat) : State :=
  let pa := line * 64
  if region pa = 3 then
    let c := s.coreAt (bits pa 31 16)
    s.setCore (bits pa 31 16) (c.setRow (rowOf pa) { c.row (rowOf pa) with poison := true })
  else s.setMem { s.mem with poison := (List.range 8).foldl (fun p i => numIns p (line * 8 + i)) s.mem.poison }

/-- A fatal error of a partition (R157, R160): a stop that is not resumed, and the launches in it are cancelled. -/
def State.stopFatally (s : State) (mod part : Nat) : State :=
  let s := s.gangStop ⟨mod, part, none, true⟩ none
  (s.work.launches.filter (fun l => l.2.part == part)).foldl (fun s l => s.cancelLaunch l.1) s

/-- The same, as this module finds the error: the others are told through the halt tree (R157). -/
def State.fatalStop (s : State) (part : Nat) : State := (s.stopFatally s.fabric.self part).tellStop part none false true

/-- PEER_LOSS (R74): the lost module's shared copies go, its owned lines are poisoned, the host is told; for a partition whose
ordered launch spans it this is a fatal error (R180); packets for it are
undeliverable from now on (R57). -/
def execPeerLoss (modid : Nat) (s : State) : Res :=
  let owned := (s.mem.peers.filter (fun p => p.2.2 == modid + 1)).map (·.1)
  let peers := (s.mem.peers.filter (fun p => p.2.2 != modid + 1)).map (fun (p : Nat × List Nat × Nat) =>
    (p.1, p.2.1.filter (fun m => m != modid), p.2.2))
  let out := s.mem.recallOut.filter (fun x => x.2 != modid)
  let free := s.mem.peerRecalls.filter (fun l => !out.any (fun x => x.1 == l))
  let s := s.setMem { s.mem with
    peers := peers.filter (fun p => !(p.2.1.isEmpty && p.2.2 == 0)), recallOut := out,
    peerWait := s.mem.peerWait.filter (fun x => x.2.2.1 != modid) }
  let s := s.setFabric { s.fabric with lost := numIns s.fabric.lost modid }
  let s := owned.foldl State.poisonLine s
  let parts := (s.work.ordered.filter (fun o => (s.launchAt o.2.launch).any (fun l => l.modules.contains modid))).map (·.1)
  let s := parts.foldl State.fatalStop s
  .next ((free.foldl (fun s l => s.post (.peerRecallDone l)) s).event 4 0 (w64 modid) (w64 owned.length) 0 0)

/-! ## What other modules tell this one -/

/-- PROMOTE of another module (R269): its cluster's dirty lines are written back, and the promoter hears of it. -/
def execPromoteArrival (modid cluster : Nat) (id : SlotId) (s : State) : Res :=
  let s := s.writeBackAll (fun l => l.loc == cluster)
  .next (if writingBack s cluster then s.after 1 (.promoteArrival modid cluster id)
    else s.respond 2 (modid * 65536 + id.core) id.slot unitRouter (.promoted id))

/-- The answer to a PROMOTE of a cluster elsewhere (R269): the promoter's caches drop clean lines, and its thread goes on. -/
def execPromoted (id : SlotId) (s : State) : Res :=
  let id : SlotId := ⟨s.forwarded id.core, id.slot⟩
  let sl := s.slotAt id
  if sl.st == .waiting then
    .next ((s.endPromote id.core).setSlot id { sl with st := .running, pc := sl.next, fell := sl.nextFell, entry := false })
  else .next s

/-- A stop or the end of one comes through the halt tree (R157, R160). -/
def execStopArrival (modid part : Nat) (launch : Option Nat) (resume fatal : Bool) (s : State) : Res :=
  if resume then .next (s.gangResume part)
  else if fatal then .next (s.stopFatally modid part)
  else .next (s.gangStop ⟨modid, part, launch, false⟩ none)

/-! ## Requests of guests elsewhere (notes/assumptions/91) -/

/-- The lowest slot from 16 on that may serve a guest's request: its number shows the guest's slot. -/
def servingSlot (s : State) (k n : Nat) : Nat :=
  let c := s.coreAt k
  (((List.range (c.slots.length + 1)).map (fun j => 16 * (j + 1) + n % 16)).find? (fun i => (c.slotAt i).st == .free)).getD 16

/-- A guest's request at the module of its dispatching core: it is served there with the guest's operands, on the record that
the core keeps of the task. One for a core that moves waits (R155); one of a task rolled back or cancelled is dropped. -/
def execRequestArrival (q : GuestReq) (s : State) : Res :=
  let t0 := s.dcoreNow (packetTask q.m)
  let k := coreOf t0.dcore
  if lmigHolds s k then .next (s.lmigHold (.requestArrival q))
  else
    let t := ((s.coreAt k).away.find? (sameTask t0)).getD t0
    if staleTask s t || taskCancelled s t then .next s
    else
      let id : SlotId := ⟨k, servingSlot s k q.m.slot⟩
      .next (s.setSlot id { (s.slotAt id).freed with
        st := .running, guest := true, pc := sext54 q.m.h0, sup := q.m.h0.getLsbD 61, regs := migrantRegs q.m, task := t,
        halted := stopped s t, serving := some q })

/-- A guest's slot as it was before its request: the registers that the instruction emptied or made pending, and the counts
that rose. -/
def Slot.beforeRequest (sl : Slot) (q : GuestReq) : Slot :=
  let was (i : Nat) : RegCell := ⟨q.m.regs.getD i 0, q.m.t0.getLsbD (32 + i), false⟩
  let back (i : Nat) : Bool := q.dests.contains i || ((was i).full && !(sl.cell i).full && !(sl.cell i).pend)
  { sl with
    regs := ((List.range 32).filter back).foldl (fun m i => mput m i (was i)) sl.regs,
    q4 := sl.q4 - b2n (q.dests.contains 64), q5 := sl.q5 - b2n (q.dests.contains 65),
    recvs := sl.recvs - b2n (q.dests.contains 66), quietBad := none }

/-- A guest takes the trap that its request met, at the instruction. -/
def State.guestTraps (s : State) (id : SlotId) (q : GuestReq) (t : Trap) : State :=
  let id : SlotId := ⟨s.forwarded id.core, id.slot⟩
  let sl := s.slotAt id
  if sl.st == .free then s
  else (s.setSlot id (sl.beforeRequest q)).raise id { t with epc := sext54 q.m.h0 }

/-- One register or count of an answer, when it is still awaited. -/
def Slot.answered (sl : Slot) (x : Nat × Word) : Slot :=
  if x.1 = 64 then { sl with q4 := sl.q4 - 1 }
  else if x.1 = 65 then { sl with q5 := sl.q5 - 1 }
  else if x.1 = 66 then { sl with recvs := sl.recvs - 1 }
  else if sl.st == .waiting || (sl.cell x.1).pend then sl.setG x.1 x.2 else sl

/-- The answer to a guest's request: its registers are written, and a slot parked at the instruction goes on; or the guest
takes the trap. -/
def execAnswer (id : SlotId) (regs : List (Nat × Word)) (nest : Option (Nat × Nat × Nat))
    (trap : Option (Nat × Nat × Word × GuestReq)) (s : State) : Res :=
  match trap with
  | some (cause, sub, v, q) => .next (s.guestTraps id q ⟨cause, sub, v, 0⟩)
  | none =>
    let id : SlotId := ⟨s.forwarded id.core, id.slot⟩
    let sl := regs.foldl Slot.answered (s.slotAt id)
    if sl.st == .free then .next s
    else if sl.st == .waiting then
      .next (s.setSlot id { sl with
        st := .running, pc := sl.next, fell := sl.nextFell, entry := false, task := { sl.task with nest := nest } })
    else .next (s.setSlot id sl)

/-- The slots that serve requests of a task are free again. -/
def State.dropRequests (s : State) (k : Nat) (t : Task) : State :=
  ((s.coreAt k).slots.filter (fun x => serves ⟨k, x.1⟩ && x.2.st != .free && sameTask x.2.task t)).foldl
    (fun s x => s.freeSlot ⟨k, x.1⟩) s

/-- A task has ended away from the module of its dispatching core (R128): what was kept for it there is given back, and COUNT
falls; an ordered one that executed QUIT is HELD (R166). -/
def execEndedArrival (dcore launch spec sgen : Nat) (nest : Option (Nat × Nat × Nat)) (quit fail : Bool) (s : State) : Res :=
  let k := s.forwarded (coreOf dcore)
  match (s.coreAt k).away.find? (fun t => t.launch == launch && t.spec == spec && t.sgen.toNat == sgen && t.nest == nest) with
  | none => .next s
  | some t =>
    let s := s.setCore k { s.coreAt k with away := (s.coreAt k).away.erase t }
    let s := (((s.leaveNest t.nest).unpin k t.pins).dropTable k t).dropRequests k t
    let s := if fail then s.setLaunch launch (fun l => { l with fail := true }) else s
    if t.ord && quit then
      match mget? (s.coreAt k).spec spec with
      | none => .next s
      | some e => .next (s.setCore k { s.coreAt k with spec := mput (s.coreAt k).spec spec { e with st := .held } })
    else if t.ord then .next ((s.freeSpec k spec).lowerCount launch)
    else .next ((if quit then s.countLife (lifeEnergy + 3) 64 1 else s).lowerCount launch)

/-- A fault record of a task of this module that ran elsewhere (R64). -/
def execRecordArrival (launch job : Nat) (w0 w1 w2 w3 : Word) (s : State) : Res :=
  .next (s.deliverRecord s.fabric.self launch false job (w0, w1, w2, w3))

/-- Another module has cancelled a launch (R134): its tasks here are killed, those in a holding buffer too, and a launch that
spans both modules is cancelled here. -/
def execCancelledArrival (modid launch : Nat) (s : State) : Res :=
  let theirs (t : Task) : Bool := t.launch == launch && modOf t.dcore == modid
  let here := s.cores.flatMap (fun c => (c.2.slots.filter (fun x => x.2.st != .free && x.2.st != .away && theirs x.2.task)).map
    (fun x => (⟨c.1, x.1⟩ : SlotId)))
  let s := here.foldl (fun s id => s.killTask id) s
  let held := s.work.migrants.filter (fun x => theirs x.task)
  let s := s.setWork { s.work with migrants := s.work.migrants.filter (fun x => !theirs x.task) }
  let s := held.foldl (fun s x => s.tellEnded x.task false false) s
  match s.launchAt launch with
  | none => .next s
  | some l =>
    if l.multi && (l.init == modid || (l.init == s.fabric.self && l.modules.contains modid)) then .next (s.cancelLaunch launch)
    else .next s

end Sys2Proof.Machine
end

