-- ==== Sys2Proof/Machine/Fabric.lean ====
section
/-! DEFINITION. The scale-up fabric: routing, the channels of the links, the order of packets between modules, weirs and
credits, what a delivered packet brings, and undeliverable packets (spec 02 R45, 03 R51 to R61, R67, R69 to R71, R446). -/

namespace Sys2Proof.Machine

open Sys2Proof

/-! ## Routing (R51 to R57) -/

/-- The coordinates of a module identifier (R14). -/
def modX (m : Nat) : Nat := bits m 13 9
def modY (m : Nat) : Nat := bits m 8 4
def modA (m : Nat) : Nat := bits m 3 2
def modB (m : Nat) : Nat := bits m 1 0

/-- The direction in a ring of n places from one place to another: the positive one when the hops are equal (R54). -/
def ringDir (n src dst plus : Nat) : Option Nat :=
  let fwd := (dst + n - src % n) % n
  if fwd = 0 then none else if fwd ≤ n - fwd then some plus else some (plus + 1)

/-- The direction in a row of places. -/
def rowDir (src dst plus : Nat) : Option Nat :=
  if src < dst then some plus else if dst < src then some (plus + 1) else none

/-- The next direction of a packet in the order X, Y, A, B (R54); none at its destination. -/
def nextDir (s : State) (dst : Nat) : Option Nat :=
  let f := s.fabric
  (ringDir (f.sx + 1) (modX f.self) (modX dst) 0).or
    ((ringDir (f.sy + 1) (modY f.self) (modY dst) 2).or
      ((rowDir (modA f.self) (modA dst) 4).or (rowDir (modB f.self) (modB dst) 6)))

/-- Whether a direction can be used: trained and not down (R31, R53). -/
def dirUp (s : State) (d : Nat) : Bool := (s.dir d).present

/-- The side steps that a packet has taken, and the last of them plus 1. -/
def stepsOf (p : FabPkt) : Nat := p.detour % 4
def lastStep (p : FabPkt) : Nat := p.detour / 4

/-- The side steps to try when the next hop's direction is down (R56). -/
def sideSteps (s : State) (p : FabPkt) (d : Nat) : List Nat :=
  (if d = 4 || d = 5 then [6, 7] else if d = 6 || d = 7 then [4, 5] else [4, 5, 6, 7]).filter
    (fun e => dirUp s e && (lastStep p) != opposite e + 1)

/-- Where a router sends a packet (R54 to R57): a direction and the packet's new detour field, 8 at its destination, or
nowhere. -/
def routeOf (s : State) (p : FabPkt) : Option (Nat × Nat) :=
  match nextDir s p.dst with
  | none => some (8, p.detour)
  | some d =>
    if !s.fabric.enable || s.fabric.lost.contains p.dst then none
    else if dirUp s d then some (d, p.detour)
    else if 2 ≤ (stepsOf p) then none
    else (sideSteps s p d).head?.map (fun e => (e, (stepsOf p) + 1 + 4 * (e + 1)))

/-- Whether a hop crosses the dateline of X or Y (R55). -/
def crosses (s : State) (d : Nat) : Bool :=
  let f := s.fabric
  (d = 0 && modX f.self = f.sx) || (d = 1 && modX f.self = 0) || (d = 2 && modY f.self = f.sy) || (d = 3 && modY f.self = 0)

/-- MARKTH, where values outside 8 to 120 act as 32 (R79). -/
def markTh (s : State) : Nat := if s.fabric.markth < 8 || 120 < s.fabric.markth then 32 else s.fabric.markth

/-- The flits in a queue. -/
def flitsOf (l : List FabPkt) : Nat := (l.map (fun p => p.flits)).foldl (· + ·) 0

/-- Two source lists combined, adding the counts of a slot in both (R67). -/
def joinSrcs : List Source → List Source → List Source
  | [], l => l
  | x :: xs, l =>
    if l.any (fun y => y.core == x.core && y.slot == x.slot) then
      joinSrcs xs (l.map (fun (y : Source) => if y.core = x.core && y.slot = x.slot then { y with count := y.count + x.count } else y))
    else joinSrcs xs (l ++ [x])

/-- Whether a reduction packet merges with one that waits (R67). The key of a packet's operation holds the operation in
[2:0], the type in [4:3], the half in [5], and the address and the encryption key above. -/
def merges (p q : FabPkt) : Bool :=
  p.cls == 5 && q.cls == 5 && !p.response && !q.response && p.dst == q.dst && p.redKey == q.redKey && p.part == q.part &&
  (joinSrcs p.srcs q.srcs).length ≤ 4

/-- The ordered set of a request (R60): the levee class of a module; the coherence class of an agent; the others of a source
slot jointly, where a store that a commit releases keeps order with those of its core's commits (R177). -/
def orderedSet (p : FabPkt) : Nat :=
  let slot := match p.pay with
    | .access a => if a.release then 15 else p.slot
    | _ => p.slot
  if p.cls ≤ 1 then 0 else 2 * (coreOf p.src * 16 + slot % 16) + (if p.cls = 2 then 1 else 2)

/-- The merged packet: it keeps the place of the earlier one (R67). The number of the later one travels with it. -/
def merged (q p : FabPkt) : FabPkt :=
  let n := if q.redKey / 8 % 4 < 2 then 32 else 64
  { q with value := w64 (amoOp (q.redKey % 8) n q.value.toNat p.value.toNat), srcs := joinSrcs p.srcs q.srcs,
           marked := q.marked || p.marked,
           also := q.also ++ p.also ++ (if p.seq = 0 then [] else [(p.src, orderedSet p, p.seq, p.flits)]) }

/-- Puts a packet into an output queue: merged with the first that it may merge with, or at the end. -/
def putQueue (p : FabPkt) : List FabPkt → List FabPkt
  | [] => [p]
  | q :: l => if merges p q then merged q p :: l else q :: putQueue p l

/-- The queue of a packet at a direction: one for each class, its requests and its responses, and each virtual channel: the
first, the second from the dateline on, and the escape channel from a side step on (R55, R58). -/
def channelOf (p : FabPkt) (d : Nat) : Nat :=
  d * 64 + p.cls * 6 + b2n p.response * 3 + (if stepsOf p != 0 then 2 else b2n p.dateline)

/-- A packet as it enters an output queue: its detour, whether it has crossed a dateline, and its mark (R55, R56, R69). -/
def hopped (s : State) (p : FabPkt) (d det : Nat) : FabPkt :=
  let p := { p with detour := det, dateline := p.dateline || crosses s d }
  { p with marked := p.marked || (2 ≤ p.cls && p.cls ≤ 6 && markTh s ≤ flitsOf (mget s.fabric.outq (channelOf p d) [])) }

/-- The queue that a packet enters next. -/
def nextQueue (s : State) (p : FabPkt) : Option Nat := (routeOf s p).map (fun r => channelOf (hopped s p r.1 r.2) r.1)

/-! ## Undeliverable packets (R57, R446) -/

/-- EVENT code 9 (R88). -/
def State.undeliverable (s : State) (p : FabPkt) (job : Nat) : State :=
  s.event 9 job (w64 (p.part % 65536 * 2 ^ 48 + p.cls % 8)) (w64 p.dst) (w64 p.src) (w64 (b2n p.response))

/-- The modules that sent a request: one, or for merged reductions each that a listed source is in. -/
def sourceModules (p : FabPkt) : List Nat :=
  (p.srcs.map (fun x => modOf x.core)).foldl numIns [modOf p.src]

/-- The NOROUTE response for a dropped request (R57): it carries the packet, and its partition. -/
def norouteFor (s : State) (p : FabPkt) (mod : Nat) : FabPkt :=
  { p with response := true, dst := mod, dstAddr := 0, src := gcid s unitRouter, slot := 0, detour := 0, dateline := false,
           marked := false, flits := 1, redKey := 0, value := 0, srcs := [], seq := 0, also := [],
           pay := .noroute p.toFabHdr p.pay }

/-- A router drops a packet: each source module of a request learns it, a response is a fatal error of its partition. -/
def State.dropPacket (s : State) (p : FabPkt) : State :=
  if p.response then (s.fatalStop p.part).undeliverable p 0
  else (sourceModules p).foldl (fun s mod =>
    if mod = s.fabric.self then s.post (.norouteArrival p) else s.inNet (norouteFor s p mod)) s

/-! ## Delivery at the endpoint (R58 to R60, R69) -/

/-- The key of an ordered set of a module. -/
def creditKey (modid set : Nat) : Nat := modid * 2 ^ 22 + set

/-- Whether a request is answered by its home and not by a later message of its own kind. -/
def answered : Payload → Bool
  | .access _ | .migrant _ | .task _ _ _ _ | .message _ _ _ _ | .spawn _ | .lineRequest _ _ _ | .lineOwn _ _ => true
  | .lineWrite _ _ _ _ _ _ | .recall _ | .tlbi _ _ | .phase _ | .request _ | .promote _ _ => true
  | _ => false

/-- A request is noted until its answer leaves, which carries its partition and its mark (R59, R69): a merged reduction once
for each access that it stands for. -/
def State.noteRequest (s : State) (p : FabPkt) : State :=
  let srcs := if p.cls = 5 && !p.srcs.isEmpty then p.srcs else [⟨p.src, p.slot, 1⟩]
  if answered p.pay then
    s.setFabric { s.fabric with
      echo := s.fabric.echo ++ srcs.flatMap (fun x => List.replicate x.count ⟨x.core, x.slot, p.cls, p.part, p.marked⟩) }
  else s

/-- The access that a packet brings: a merged reduction has the combined value and all its sources (R67, R68). -/
def packetAccess (p : FabPkt) (a : Access) : Access :=
  match a.how with
  | .red op ty _ => if p.srcs.isEmpty then a else { a with how := .red op ty p.value, srcs := p.srcs }
  | _ => a

/-- What a packet that carries no access is here (R58). -/
def arrivalOf (p : FabPkt) : Option Ev :=
  let mod := modOf p.src
  match p.pay with
  | .none | .access _ => none
  | .result a v0 v1 => some (.resultArrival a v0 v1)
  | .aborted a psn => some (.abortArrival a psn)
  | .migrant m => some (.migrantArrival m)
  | .mack id => some (.mack id)
  | .mnak id => some (.mnak id)
  | .pwack id n => some (.pwack id n)
  | .task cl src colour pkt => some (.taskPacketArrival cl src colour pkt)
  | .anti cl colour hdr => some (.antiMessageArrival cl colour hdr)
  | .message core level src msg => some (.messageArrival core level src msg)
  | .msgack id launch task => some (.msgack id launch task)
  | .spawn r => some (.spawnRequestArrival r)
  | .spawnReply r v => some (.spawnReply r v)
  | .spawnwResend r => some (.spawnwResend r)
  | .noroute h what => some (.norouteArrival { toFabHdr := h, pay := what })
  | .gang kind m => if kind = 0 || 7 < kind then none else some (gangEv kind m)
  | .sweep kind m =>
    some (if kind = 1 then .sweep m else if kind = 2 then .report m else if kind = 3 then .levpub m
      else if kind = 4 then .csweep m else .creport m)
  | .lineRequest line cache shared => some (.lineAsked mod line cache shared)
  | .lineOwn line agent => some (.peerOwnershipRequest line mod agent)
  | .lineData cache line data psn key => some (.lineDataArrival mod cache line data psn key)
  | .lineWrite line cache data mask psn key => some (.lineStored mod line cache data mask psn key)
  | .lineWritten cache line => some (.lineWritten cache mod line)
  | .lineFault cache line cause => some (.lineFaulted mod cache line cause)
  | .recall line => some (.recallArrival mod line)
  | .recalled line data => some (.recalledArrival mod line data)
  | .tlbi job vpage => some (.tlbiArrival p.src p.slot job vpage)
  | .tlbiDone id => some (.tlbiReply id)
  | .phase part => some (.phaseArrival p.src part)
  | .phaseDone part => some (.phaseReply part)
  | .request q => some (.requestArrival q)
  | .answer id regs nest trap => some (.answer id regs nest trap)
  | .promote cl id => some (.promoteArrival mod cl id)
  | .promoted id => some (.promoted id)
  | .stop part launch resume fatal => some (.stopArrival mod part launch resume fatal)
  | .ended dcore launch spec sgen nest quit fail => some (.endedArrival dcore launch spec sgen nest quit fail)
  | .record launch job w0 w1 w2 w3 => some (.recordArrival launch job w0 w1 w2 w3)
  | .cancelled launch => some (.cancelledArrival mod launch)
  | .launchOver launch st => some (.launchOver mod launch st)
  | .doomed dcore launch spec sgen => some (.doomedArrival dcore launch spec sgen)
  | .credit set flits => some (.creditReturn mod set flits)

/-- The sender's key of a source slot of another module. -/
def farKey (p : FabPkt) : Nat := 2 ^ 30 + p.src * 16 + p.slot

/-- An answer has come to a slot for accesses of its own (R110). -/
def State.noteAnswer (s : State) (p : FabPkt) : State :=
  match p.pay with
  | .pwack id n => s.farAnswer ⟨s.forwarded id.core, id.slot⟩ n
  | .result a _ _ | .aborted a _ => (a.srcs.head?).elim s (fun x => s.farAnswer ⟨s.forwarded (coreOf x.core), x.slot⟩ 1)
  | _ => s

/-- Delivers a packet: an access and a migrant go to their home, a gang message of no known type is dropped and counted
(R75), an SPAWNW that found no room is sent again later (R139). -/
def State.deliver (s : State) (p : FabPkt) : State :=
  match p.pay with
  | .access a => s.send (farKey p) (homeOf a.pa) (.homeAccess (packetAccess p a))
  | .migrant m => s.send (farKey p) (coreOf m.home) (.migrantArrival m)
  | .spawnwResend r => s.after 3400 (.spawnwResend r)
  | .gang kind m => if kind = 0 || 7 < kind then s.countErr errGang else s.post (gangEv kind m)
  | _ => (arrivalOf p).elim s s.post

/-- Space of the reorder buffer is free again, and the source learns it (R60). -/
def State.giveCredit (s : State) (src cls part set flits : Nat) : State :=
  s.inNet { s.packet cls (modOf src) 0 unitRouter 0 part 0 (.credit set flits) with response := true }

/-- Whether the numbered packet, or one merged into another, is the next of its ordered set. -/
def isNext (s : State) (src set seq : Nat) : Bool := mget s.fabric.seqIn (creditKey (modOf src) set) 0 + 1 == seq

/-- Whether a number lies before the next one: the packet has come before, on a way that has gone since. -/
def isPast (s : State) (src set seq : Nat) : Bool :=
  let n := mget s.fabric.seqIn (creditKey (modOf src) set) 0
  n + 1 != seq && (n + 65536 + 1 - seq) % 65536 ≤ 32768

/-- The next number of an ordered set is passed. -/
def State.passNumber (s : State) (src set : Nat) : State :=
  let k := creditKey (modOf src) set
  s.setFabric { s.fabric with seqIn := mput s.fabric.seqIn k ((mget s.fabric.seqIn k 0 + 1) % 65536) }

/-- A request whose turn has come leaves the reorder buffer. -/
def State.takeRequest (s : State) (p : FabPkt) : State :=
  let s := (s.passNumber p.src (orderedSet p)).giveCredit p.src p.cls p.part (orderedSet p) p.flits
  (s.noteRequest p).deliver p

/-- Delivers the packets of the reorder buffer whose turn has come, at most n. -/
def State.drainReorder : Nat → State → State
  | 0, s => s
  | n + 1, s =>
    match s.fabric.reorder.find? (fun p => isNext s p.src (orderedSet p) p.seq) with
    | none => s
    | some p => State.drainReorder n ((s.setFabric { s.fabric with reorder := s.fabric.reorder.erase p }).takeRequest p)

/-- The place of a packet that was merged into another: it brings nothing, and its number is passed in its turn. -/
def mergedAway (p : FabPkt) (x : Nat × Nat × Nat × Nat) : FabPkt :=
  { p with src := x.1, slot := (x.2.1 - 2) / 2 % 16, flits := x.2.2.2, seq := x.2.2.1, also := [], srcs := [], pay := .none }

/-- A numbered request enters the reorder buffer, with those merged into it (R60, R67); one that has come before is
dropped. -/
def State.enterReorder (s : State) (p : FabPkt) : State :=
  let new := ((p :: p.also.map (mergedAway p)).filter (fun x => !isPast s x.src (orderedSet x) x.seq)).filter
    (fun x => !s.fabric.reorder.contains x)
  let s := s.setFabric { s.fabric with reorder := s.fabric.reorder ++ new }
  s.drainReorder s.fabric.reorder.length

/-- A packet at its destination's endpoint: requests in their order, responses at once, with their marks for the weirs (R60,
R70). A packet that bears no number comes at once. -/
def State.endpoint (s : State) (p : FabPkt) : State :=
  if p.response then ((if p.marked then s.post (.weirMark (modOf p.src)) else s).noteAnswer p).deliver p
  else if p.seq = 0 then (s.noteRequest p).deliver p
  else s.enterReorder p

/-! ## A router's queues (R45, R54 to R58, R67, R69) -/

/-- A packet waits at the router for room in its queue. -/
def State.waitRoom (s : State) (p : FabPkt) : State := s.setFabric { s.fabric with inq := s.fabric.inq ++ [p] }

/-- A router forwards a packet one hop: to its endpoint, into the queue of its channel, of 128 flits, behind those that wait for
the same one, or nowhere. -/
def State.forward (s : State) (p : FabPkt) : State :=
  match routeOf s p with
  | none => s.dropPacket p
  | some (d, det) =>
    if d = 8 then s.endpoint p
    else
      let q := hopped s p d det
      let k := channelOf q d
      let l := mget s.fabric.outq k []
      if s.fabric.inq.any (fun x => nextQueue s x == some k) then s.waitRoom p
      else if 128 < flitsOf l + p.flits && !l.isEmpty && !l.any (merges q) then s.waitRoom p
      else s.setFabric { s.fabric with outq := mput s.fabric.outq k (putQueue q l) }

/-- The packets that wait for room try again, the oldest first. -/
def State.retryQueues (s : State) : State :=
  s.fabric.inq.foldl State.forward (s.setFabric { s.fabric with inq := [] })

/-- The lanes on which a packet may begin: those LIT since an earlier cycle (R45). An electrical link is one lane (R53). -/
def openLanes (s : State) (d : Nat) : List Nat :=
  if electrical s.part then (if (s.dir d).present then [0] else [])
  else (lanesIn (s.dir d).tx (· == 3)).filter (fun l => mget (s.dir d).litAt l 0 < s.now)

/-- The queues of a direction that hold packets: those of class 1 before all others (R58). -/
def openQueues (s : State) (d : Nat) : List Nat :=
  let ks := (s.fabric.outq.filter (fun q => q.1 / 64 == d && !q.2.isEmpty)).map (·.1)
  let first := ks.filter (fun k => k % 64 < 12)
  if first.isEmpty then ks else first

/-- A direction may begin to send the first packet of a queue on a lane (R45): which, and whether it does on this cycle, is a
free choice (notes/assumptions/5). -/
def State.drainDir (s : State) (d : Nat) : State :=
  let ks := openQueues s d
  let ls := openLanes s d
  let n := s.pick (Config.useDrain + 64 * d)
  match ks[n % ks.length]?, ls[n / 64 % ls.length]? with
  | some k, some l =>
    match mget s.fabric.outq k [] with
    | [] => s
    | p :: rest =>
      if s.choice (Config.useDrain + 64 * d) then
        let x := s.dir d
        let s := s.setDir d { x with link := x.link ++ [⟨x.linkSeq, l, p⟩], linkSeq := x.linkSeq + 1 }
        (s.setFabric { s.fabric with
          outq := if rest.isEmpty then mdel s.fabric.outq k else mput s.fabric.outq k rest }).emit (.packet d l x.linkSeq p)
      else s
  | _, _ => s

/-- The links on a cycle. -/
def State.drainLinks (s : State) : State :=
  ((s.fabric.outq.map (fun q => q.1 / 64)).foldl numIns []).foldl State.drainDir s.retryQueues

/-- The packets that have come on a link in order go to the router, at most n. -/
def State.takeLink (d : Nat) : Nat → State → State
  | 0, s => s
  | n + 1, s =>
    let x := s.dir d
    match mget? x.linkBuf x.linkNext with
    | none => s
    | some p =>
      let s := s.setFabric { s.fabric with lost := numDel s.fabric.lost (modOf p.src) }
      State.takeLink d n ((s.setDir d { x with linkNext := x.linkNext + 1, linkBuf := mdel x.linkBuf x.linkNext }).inNet p)

/-- A packet has come in from the neighbour of a direction, by its number on the link: those that a failed lane delayed go
first, and one that has come before is dropped (R45, R46). -/
def execPacketIn (d num : Nat) (p : FabPkt) (s : State) : Res :=
  let x := s.dir d
  if !x.present || num < x.linkNext || (mget? x.linkBuf num).isSome then .next s
  else
    let s := s.setDir d { x with linkBuf := mput x.linkBuf num p }
    .next (s.takeLink d (x.linkBuf.length + 1))

/-! ## Weirs and credits at the source endpoint (R60, R70, R71) -/

/-- The unit in which a weir's tokens are counted: 17·65,536 to a byte. -/
def tokenUnit : Nat := 1114112

/-- The lane count of the first hop toward a module (R30); an electrical link has 16 lanes (R49). -/
def firstLanes (s : State) (dst : Nat) : Nat :=
  (nextDir s dst).elim 0 (fun d => if electrical s.part then 16 else (s.dir d).count)

/-- A weir's bucket now: refilled every cycle at F × line rate, at most 4 KiB (R71). A lane carries 112 Gb/s, which is
140/17 bytes a cycle. -/
def Weir.bucket (w : Weir) (s : State) (dst : Nat) : Nat :=
  min (w.tokens + (s.now - w.filled) * (firstLanes s dst * 140 * w.f)) (4096 * tokenUnit)

/-- Whether weirs hold packets of this kind: requests of classes 2 to 6 (R71). -/
def weired (p : FabPkt) : Bool := !p.response && 2 ≤ p.cls && p.cls ≤ 6

/-- The numbers of undeliverable packets of a set toward a module, which are given out again. -/
def skipped (s : State) (dst set : Nat) : List Nat :=
  (s.fabric.skips.filter (fun x => x.1 == dst && x.2.1 == set)).map (·.2.2)

/-- The flits that leave with a packet: its own, and one for each number that has to be given out again. -/
def leavingFlits (s : State) (p : FabPkt) : Nat := p.flits + (skipped s p.dst (orderedSet p)).length

/-- Whether a packet may leave the source endpoint now: room in the destination's buffer, tokens in the weir. -/
def mayInject (s : State) (p : FabPkt) : Bool :=
  mget s.fabric.order p.dst 0 + leavingFlits s p ≤ 512 &&
  (!(weired p) || (mget? s.fabric.weirs p.dst).elim true (fun w => p.flits * 64 * tokenUnit ≤ w.bucket s p.dst))

/-- A packet pays at the weir of its target. -/
def State.payWeir (s : State) (p : FabPkt) : State :=
  match mget? s.fabric.weirs p.dst with
  | some w =>
    let w := { w with tokens := w.bucket s p.dst - p.flits * 64 * tokenUnit, filled := s.now }
    if weired p then s.setFabric { s.fabric with weirs := mput s.fabric.weirs p.dst w } else s
  | none => s

/-- A packet of one flit that carries nothing, under a number whose packet was undeliverable: the destination's endpoint passes
the number (notes/assumptions/92). -/
def filler (p : FabPkt) (seq : Nat) : FabPkt :=
  { p with dstAddr := 0, launch := 0, flits := 1, redKey := 0, value := 0, srcs := [], also := [], seq := seq,
           slot := (match p.pay with
             | .access a => if a.release then 15 else p.slot
             | _ => p.slot), pay := .none }

/-- A packet leaves the source endpoint for its router, with the next number of its ordered set (R60). -/
def State.inject (s : State) (p : FabPkt) : State :=
  let set := orderedSet p
  let k := creditKey p.dst set
  let n := mget s.fabric.seqOut k 0
  let again := skipped s p.dst set
  let s := s.payWeir p
  let s := s.setFabric { s.fabric with
    order := mput s.fabric.order p.dst (mget s.fabric.order p.dst 0 + p.flits + again.length),
    seqOut := mput s.fabric.seqOut k ((n + 1) % 65536),
    skips := s.fabric.skips.filter (fun x => !(x.1 == p.dst && x.2.1 == set)) }
  (again.foldl (fun s i => s.forward (filler p i)) s).forward { p with seq := n + 1 }

/-- Whether two packets wait at the endpoint in one row: toward one module, those of class 1 apart from those that a weir may
hold (R71). -/
def sameRow (p q : FabPkt) : Bool := p.dst == q.dst && (decide (p.cls ≤ 1) == decide (q.cls ≤ 1))

/-- Whether a packet begins its way here: it passes its endpoint first. -/
def beginsHere (s : State) (p : FabPkt) : Bool :=
  modOf p.src == s.fabric.self && !p.response && p.dst != s.fabric.self && p.seq == 0

/-- ROUTE_HOP: a request of this module passes its endpoint first, behind those that wait there in its row, unless it is
undeliverable at once; any packet is then forwarded one hop. -/
def execRouteHop (p : FabPkt) (s : State) : Res :=
  if beginsHere s p then
    if (routeOf s p).isNone then .next (s.dropPacket p)
    else if s.fabric.held.any (sameRow p) || !mayInject s p then
      .next ((s.setFabric { s.fabric with held := s.fabric.held ++ [p] }).after 1 (.weirAdmit p.dst))
    else .next (s.inject p)
  else .next (s.forward p)

/-- The oldest packet of a row toward a module leaves once it may, or is undeliverable. -/
def State.admitRow (s : State) (target : Nat) (first : Bool) : State :=
  match s.fabric.held.find? (fun p => p.dst == target && decide (p.cls ≤ 1) == first) with
  | none => s
  | some p =>
    let t := s.setFabric { s.fabric with held := s.fabric.held.erase p }
    if (routeOf s p).isNone then t.dropPacket p else if mayInject s p then t.inject p else s

/-- WEIR_ADMIT (R71): the oldest packets that wait toward a module leave once they may; it comes again while any waits. -/
def execWeirAdmit (target : Nat) (s : State) : Res :=
  let s := ((s.untimer (.weirAdmit target)).admitRow target true).admitRow target false
  .next (if s.fabric.held.any (fun p => p.dst == target) then s.after 1 (.weirAdmit target) else s)

/-- CREDIT_RETURN (R60): space in the destination's reorder buffer is free again. -/
def execCreditReturn (modid _set flits : Nat) (s : State) : Res :=
  .next ((s.setFabric { s.fabric with order := mput s.fabric.order modid (mget s.fabric.order modid 0 - flits) }).post
    (.weirAdmit modid))

/-- The weir that a new target takes when all 512 are in use: the highest F, then the lowest module (R70). -/
def spareWeir (l : Map Weir) : Option Nat :=
  (l.foldl (fun (b : Option (Nat × Nat)) x => match b with
    | none => some (x.1, x.2.f)
    | some (t, f) => if f < x.2.f then some (x.1, x.2.f) else some (t, f)) none).map (·.1)

/-- WEIR_MARK (R70): F := max(floor(F·15/16), 64). -/
def execWeirMark (target : Nat) (s : State) : Res :=
  let ws := s.fabric.weirs
  let ws := if (mget? ws target).isNone && 512 ≤ ws.length then (spareWeir ws).elim ws (mdel ws) else ws
  let w := mget ws target { f := 65536, tokens := 4096 * tokenUnit, filled := s.now, lastMark := 0, full := s.now }
  let w := { w with tokens := w.bucket s target, filled := s.now, f := max (w.f * 15 / 16) 64, lastMark := s.now }
  .next (s.setFabric { s.fabric with weirs := mput ws target w })

/-- WEIR_TICK (R70): every 27,200 cycles, a weir without a mark since the last tick rises; one that reaches the line rate
may be freed 1 ms later. -/
def execWeirTick (s : State) : Res :=
  let rise (x : Nat × Weir) : Nat × Weir :=
    if s.now < x.2.lastMark + 27200 || x.2.f = 65536 then x
    else
      let f := min (x.2.f + 1024) 65536
      (x.1, { x.2 with tokens := x.2.bucket s x.1, filled := s.now, f := f, full := if f = 65536 then s.now else x.2.full })
  let ws := s.fabric.weirs.map rise
  let s1 := s.setFabric { s.fabric with weirs := ws }
  .next (if ws.any (fun x => x.2.f == 65536 && x.2.full == s.now) then s1.after 1700000 .weirFree else s1)

/-- WEIR_FREE (R70): a weir that has held the line rate for 1 ms is freed. -/
def execWeirFree (s : State) : Res :=
  .next (s.setFabric { s.fabric with
    weirs := s.fabric.weirs.filter (fun x => !(x.2.f == 65536 && x.2.full + 1700000 ≤ s.now)) })

/-! ## NOROUTE at the source (R57) -/

/-- What a dropped packet served, for its fault record: the module of the launch, whether it was a handler's, and the job. -/
def servedBy (s : State) (p : FabPkt) : Nat × Bool × Nat :=
  match p.pay with
  | .access a => (modOf (a.org / 16), a.handler, a.job)
  | _ =>
    let t := (s.slotAt ⟨s.forwarded (coreOf p.src), p.slot⟩).task
    if t.launch = p.launch then (modOf t.dcore, t.handler, t.job)
    else (s.fabric.self, false, (s.launchAt p.launch).elim 0 Launch.job)

/-- The fault record of a dropped posted write, reduction or message (R57). -/
def norouteRec (s : State) (p : FabPkt) (job : Nat) : FaultRec :=
  let (va, size) := match p.pay with
    | .access a => (a.va, log2Size (opSize a.how))
    | _ => (Config.freeWord Config.useVa s.sched.free, 3)
  { engine := 8, cause := causeNoroute, job := job, place := gcid s unitRouter, va := va, access := p.cls, size := size,
    spec := false, slot := p.slot, cmd := 0, level := 0, token := 0 }

/-- The fault record and the event of a dropped posted write, reduction or message. -/
def State.norouteRecord (s : State) (p : FabPkt) : State :=
  let (mod, handler, job) := servedBy s p
  (s.deliverRecord mod p.launch handler job (faultWords (norouteRec s p job))).undeliverable p job

/-- The numbers and the credits of this module's packets that were dropped: each number is given out again, so that the
destination's endpoint passes it (R60, notes/assumptions/92). -/
def State.dropNumbers (s : State) (p : FabPkt) : State :=
  let all := (if p.seq = 0 then [] else [(p.src, orderedSet p, p.seq, p.flits)]) ++ p.also
  let mine := all.filter (fun x => modOf x.1 == s.fabric.self)
  if mine.isEmpty then s
  else
    (s.setFabric { s.fabric with
      order := mput s.fabric.order p.dst (mget s.fabric.order p.dst 0 - (mine.map (·.2.2.2)).foldl (· + ·) 0),
      skips := s.fabric.skips ++ mine.map (fun x => (p.dst, x.2.1, x.2.2.1)) }).post (.weirAdmit p.dst)

/-- An access of the coherence class met no route (R57): its agent raises a fault at its own engine; the launch unit's read of
a fault ring sends its record to the host (R133). -/
def State.norouteAccess (s : State) (a : Access) : State :=
  let src := (a.srcs.head?).getD ⟨a.org / 16, 0, 0⟩
  if a.srcs.isEmpty && a.org % 2 ^ 20 = ringOrg s % 2 ^ 20 then s.ringFail a.launch
  else
    let k := coreOf src.core
    let e := if maskAwait a then 6 else if a.how = .await then 2 else if coreDie k = 8 then 4 else if 128 ≤ coreGroup k then 3 else 0
    (s.faultOrStop { homeRec s a causeNoroute 0 with engine := e, place := src.core } a.launch a.handler (.access a)).farAnswer
      ⟨s.forwarded k, src.slot⟩ 1

/-- The posted counts that an undeliverable packet of class 4 or 5 holds fall as at an acknowledgement (R57, R66). -/
def State.norouteCounts (s : State) (p : FabPkt) : State :=
  let srcs := match p.pay with
    | .access a => if p.srcs.isEmpty then a.srcs else p.srcs
    | _ => p.srcs
  (srcs.filter (fun x => modOf x.core == s.fabric.self)).foldl (fun s x =>
    let i : SlotId := ⟨s.forwarded (coreOf x.core), x.slot⟩
    (s.setSlot i { s.slotAt i with posted := (s.slotAt i).posted - x.count }).farAnswer i x.count) s

/-- A dropped migrant (R57): its thread resumes in the slot it left and takes the no-route trap at the instruction that
migrated. -/
def State.norouteMigrant (s : State) (p : FabPkt) : State :=
  let id : SlotId := ⟨s.forwarded (coreOf p.src), p.slot⟩
  let sl := s.slotAt id
  match sl.st, sl.mack with
  | .away, some m =>
    let s := s.setSlot id { sl with st := .running, mack := none, mnaks := 0 }
    let s := if sl.task.ord then s.countRecv id.core (s.partOfTask sl.task) m.colour else s
    if sl.doomed then s.dropThread id else s.raise id ⟨trapNoroute, 0, w64 p.dst, sl.pc⟩
  | _, _ => s

/-- A dropped packet of the message class (R57): its sender goes on as if it had been answered; what counts the packets on their
way counts it as arrived (notes/assumptions/50). -/
def State.norouteMessage (s : State) (p : FabPkt) : State :=
  let id : SlotId := ⟨s.forwarded (coreOf p.src), p.slot⟩
  match p.pay with
  | .spawn r => (s.spawnAnswer r 2).lowerCount r.launch
  | .message _ _ _ _ =>
    (s.setSlot id { s.slotAt id with unackMsg := (s.slotAt id).unackMsg - 1 }).norouteRecord p
  | .task _ _ colour pkt =>
    let s := if packetOrd pkt then s.countRecv id.core (s.partOf p.launch) colour
      else s.setLaunch p.launch (fun l => if l.multi then l.countIn colour else l)
    (s.lowerCount p.launch).norouteRecord p
  | .anti _ colour _ => (s.countRecv id.core (s.partOf p.launch) colour).norouteRecord p
  | _ => s.norouteRecord p

/-- The effect of a dropped request at its source, by its class (R57). -/
def State.norouteEffect (s : State) (p : FabPkt) : State :=
  match p.cls, p.pay with
  | _, .none => s
  | 4, _ | 5, _ => (s.norouteCounts p).norouteRecord p
  | 6, _ => s.norouteMessage p
  | 3, _ => s.norouteMigrant p
  | _, .access a => s.norouteAccess a
  | _, .lineRequest line cache _ => s.requestFailed cache p.dst line causeNoroute
  | _, .lineOwn line agent => s.requestFailed (ownLoc agent) p.dst line causeNoroute
  | _, .lineWrite line cache _ _ _ _ =>
    let f := { norouteRec s p 0 with va := w64 (line * 64), size := 6 }
    (s.post (.lineWritten cache p.dst line)).jobFault 0 (faultWords f)
  | _, .recall line => s.recallAnswered line p.dst
  | _, .tlbi _ _ => s.post (.tlbiReply ⟨coreOf p.src, p.slot⟩)
  | _, .phase part => s.post (.phaseReply part)
  | _, .promote _ id => (s.setSlot id { s.slotAt id with st := .running }).raise id ⟨trapNoroute, 0, w64 p.dst, (s.slotAt id).pc⟩
  | _, .record _ job w0 w1 w2 w3 => s.jobFault job (w0, w1, w2, w3)
  | _, .request q => s.guestTraps ⟨coreOf p.src, p.slot⟩ q ⟨trapNoroute, 0, w64 p.dst, 0⟩
  | _, _ => s

/-- NOROUTE_ARRIVAL (R57): the effect at the source. -/
def execNorouteArrival (p : FabPkt) (s : State) : Res := .next ((s.dropNumbers p).norouteEffect p)

end Sys2Proof.Machine
end

