-- ==== Sys2Proof/Machine/Churn.lean ====
section
/-! DEFINITION. Heat counters and the churn engine: migration, compression and decompression of pages (spec 05 R115 to
R124). -/

namespace Sys2Proof.Machine

open Sys2Proof

/-! ## Heat (R115 to R117) -/

/-- HEAT_DECAY (R116): every heat byte is halved; the next sweep is due after DECAY ms. -/
def execHeatDecay (s : State) : Res :=
  if !s.churn.heatEn then .next s
  else
    let cells := s.mem.cells.filterMap (fun c =>
      if inHeat s c.1 then (if c.2.toNat / 2 = 0 then none else some (c.1, BitVec.ofNat 8 (c.2.toNat / 2))) else some c)
    .next ((s.setMem { s.mem with cells := cells }).after (max s.churn.heatDecay 1 * 1700000) .heatDecay)

/-- HEATCFG_WRITE (R117): setting EN zeroes every heat byte before counting starts; heat bytes are no job's. -/
def execHeatcfgWrite (v : Word) (s : State) : Res :=
  let k := bits v.toNat 4 1
  let en := bit v.toNat 0
  let on := en && !s.churn.heatEn
  let s := s.setChurn { s.churn with
    heatDecay := bits v.toNat 31 16, heatK := k, heatEn := en }
  let s := if on then s.setMem { s.mem with
      cells := s.mem.cells.filter (fun c => !inHeat s c.1), keys := s.mem.keys.filter (fun k => !inHeat s (k.1 * 64)) }
    else s
  let s := if on || !en then s.untimer .heatDecay else s
  .next (if on then s.after (max s.churn.heatDecay 1 * 1700000) .heatDecay else s)

/-- The physical address of a frame's heat byte (R116). -/
def heatAddr (s : State) (frame : Nat) : Option Nat :=
  let pa := frame * 4096
  let r := region pa
  if !s.churn.heatEn then none
  else if r = 0 then some (bits pa 38 36 * 2 ^ 36 + 0xBFF400000 + bits pa 35 12)
  else if r = 1 then some (2 ^ 48 + 0xFFB0000000 + bits pa 39 12)
  else if 4 ≤ r && r ≤ 7 then
    some (2 ^ 48 + 0xFFC0000000 + bits pa 46 12 + ((List.range (poolWindow pa)).foldl (fun t i => t + cxlSize s i / 4096) 0))
  else none

/-! ## XXH32 and LZ4 blocks (R121, R122) -/

def xxP1 : BitVec 32 := 2654435761#32
def xxP2 : BitVec 32 := 2246822519#32
def xxP3 : BitVec 32 := 3266489917#32

/-- One step of an XXH32 lane. -/
def xxRound (v : BitVec 32) (x : Nat) : BitVec 32 := (v + BitVec.ofNat 32 x * xxP2).rotateLeft 13 * xxP1

/-- The 32-bit word at a place of a stripe. -/
def xxWord (l : List Byte) (i : Nat) : Nat := bytesNat ((l.drop i).take 4)

/-- The four lanes over 16-byte stripes, with the step of a lane. -/
def xxLanes (f : BitVec 32 → Nat → BitVec 32) : Nat → List Byte → BitVec 32 → BitVec 32 → BitVec 32 → BitVec 32 →
    BitVec 32 × BitVec 32 × BitVec 32 × BitVec 32
  | 0, _, a, b, c, d => (a, b, c, d)
  | n + 1, l, a, b, c, d =>
    xxLanes f n (l.drop 16) (f a (xxWord l 0)) (f b (xxWord l 4)) (f c (xxWord l 8)) (f d (xxWord l 12))

/-- XXH32 with seed 0 of a list of bytes whose length is a multiple of 16 and not zero. -/
def xxh32 (l : List Byte) : BitVec 32 :=
  let (a, b, c, d) := xxLanes xxRound (l.length / 16) l (xxP1 + xxP2) xxP2 0 (0 - xxP1)
  let h := a.rotateLeft 1 + b.rotateLeft 7 + c.rotateLeft 12 + d.rotateLeft 18 + BitVec.ofNat 32 l.length
  let h := (h ^^^ (h >>> 15)) * xxP2
  let h := (h ^^^ (h >>> 13)) * xxP3
  h ^^^ (h >>> 16)

/-- A length of an LZ4 sequence: 15 in the token goes on in bytes of 255. Answers the length and the rest. -/
def lzLen : Nat → List Byte → Option (Nat × List Byte)
  | n, [] => if n < 15 then some (n, []) else none
  | n, b :: l =>
    if n < 15 then some (n, b :: l)
    else
      let rec more : Nat → List Byte → Option (Nat × List Byte)
        | _, [] => none
        | n, b :: l => if b = 255 then more (n + 255) l else some (n + b.toNat, l)
      more n (b :: l)

/-- Copies n bytes from an offset behind the end of the output, which is held reversed. -/
def lzCopy : Nat → Nat → List Byte → List Byte
  | 0, _, out => out
  | n + 1, off, out => lzCopy n off (out.getD (off - 1) 0 :: out)

/-- Decodes an LZ4 block (R121): the output, reversed, or nothing when an offset points before the start or a length
overruns. -/
def lzDecode : Nat → List Byte → List Byte → Option (List Byte)
  | 0, _, _ => none
  | _ + 1, [], out => some out
  | fuel + 1, t :: l, out =>
    match lzLen (t.toNat / 16) l with
    | none => none
    | some (n, l) =>
      if l.length < n || 4096 < out.length + n then none
      else
        let out := (l.take n).reverse ++ out
        match l.drop n with
        | [] => some out
        | [_] => none
        | o0 :: o1 :: l =>
          let off := o0.toNat + 256 * o1.toNat
          match lzLen (t.toNat % 16) l with
          | none => none
          | some (m, l) =>
            if off = 0 || out.length < off || 4096 < out.length + m + 4 then none
            else lzDecode fuel l (lzCopy (m + 4) off out)

/-- The page that an LZ4 block holds, when it is exactly 4,096 bytes. -/
def lzPage (l : List Byte) : Option (List Byte) :=
  match lzDecode (l.length + 1) l [] with
  | some out => if out.length = 4096 then some out.reverse else none
  | none => none

/-- The compressor's output for a page: any LZ4 block of it that fits a slot; none when it makes none (R121). -/
def compressPage (page : List Byte) : Option (List Byte) :=
  let z := Config.lz4 page
  if z.length ≤ 3056 && lzPage z == some page then some z else none

/-- The word that records the empty words of a page: all ones when there is none (R121). -/
def tagsWord (empties : List Nat) : Option Word :=
  if empties.isEmpty then some (-1)
  else match Config.tagWord empties with
    | some w => if w != -1 && Config.tagList w == empties then some w else none
    | none => none

/-- The empty words that such a word records. -/
def tagsOf (w : Word) : List Nat := if w = -1 then [] else Config.tagList w

/-! ## Frames and slots -/

/-- The client of the churn engine. -/
def churnClient : Client := ⟨unitChurn, 0, false⟩

/-- Writes a completion word and sets it full (R118, R119). -/
def State.completion (s : State) (done w : Nat) : State :=
  if done % 8 = 0 && region done < 4 && paOk s done then
    s.writeAt churnClient ⟨true, w64 done, natBytes 8 w, true⟩ 0 s.fabric.self done
  else s

/-- The bytes read so far into a buffer. -/
def State.bufAt (s : State) (n : Nat) : List Byte := mget s.churn.bufs n []

/-- Fills a buffer. -/
def State.putBuf (s : State) (n : Nat) (l : List Byte) : State := s.setChurn { s.churn with bufs := mput s.churn.bufs n l }

/-- Forgets a buffer. -/
def State.dropBuf (s : State) (n : Nat) : State := s.setChurn { s.churn with bufs := mdel s.churn.bufs n }

/-- What reading a run of lines comes to. -/
inductive RunRead
  | ok (l : List Byte) (s : State)
  | wait (s : State)
  | fault (cause : Nat) (s : State)

/-- The next line of pool memory is asked for, unless one is on its way or in use. -/
def State.askPool (s : State) (n pa : Nat) : State :=
  if s.host.pendingReads.any (fun r => r.2 == .page n) || poolBusy s pa false then s
  else s.poolSend pa (List.replicate 64 0) false (.page n)

/-- The bytes at a run of lines of this module as they are stored: pool memory is read line by line into a buffer, and a read
of it may meet the timeout (R94). -/
def storedBytes (s : State) (n pa len : Nat) : RunRead :=
  if region pa < 4 then .ok (bytesAt s.mem.cells pa len) s
  else if len ≤ (s.bufAt n).length then .ok ((s.bufAt n).take len) s
  else match lineDead s churnLoc s.fabric.self n with
    | some c => .fault c (s.clearDead churnLoc s.fabric.self n)
    | none => .wait (s.askPool n (pa + (s.bufAt n).length))

/-- Stored bytes of whole lines as a key reads them (R125). -/
def plainLines (s : State) (key : Nat) : Nat → Nat → List Byte → List Byte
  | 0, _, _ => []
  | fuel + 1, pa, l =>
    if l.isEmpty then []
    else
      let d := l.take 64
      (match mget? s.mem.keys (pa / 64) with
       | none => d
       | some k => if k = key then d else (List.range 64).map (Config.undecrypted key k (pa / 64) d)) ++
        plainLines s key fuel (pa + 64) (l.drop 64)

/-- Lines of another module, read by coherent loads at their home into a buffer, at most k more. -/
def readFar (n job : Nat) (va : Word) (dev pa : Nat) : Nat → State → RunRead
  | 0, s => .ok (s.bufAt n) s
  | k + 1, s =>
    let at_ := pa + (s.bufAt n).length
    match unitLine s churnLoc job 65536 va dev at_ with
    | .ok d s => readFar n job va dev pa k (s.putBuf n (s.bufAt n ++ d))
    | .wait s => .wait s
    | .fault c => .fault c (s.clearDead churnLoc dev (at_ / 64))

/-- Stores bytes at whole lines for a command, each under the key given for it: none clears the mark. -/
def State.putLines (s : State) (n : Nat) (key : Nat → Option Nat) : Nat → Nat → List Byte → State
  | 0, _, _ => s
  | fuel + 1, pa, l =>
    if l.isEmpty then s
    else
      let line := pa / 64
      let d := l.take 64
      let s := s.setMem { s.mem with
        keys := (match key pa with
          | some k => if k = 0 && region pa < 4 && (mget? s.mem.keys line).isNone then s.mem.keys else mput s.mem.keys line k
          | none => mdel s.mem.keys line),
        resvs := s.mem.resvs.filter (fun r => r.2 != line) }
      let s := if region pa < 4 then s.setMem { s.mem with cells := setBytes s.mem.cells pa d }
        else s.poolSend pa d true (.pageWrite n)
      State.putLines s n key fuel (pa + 64) (l.drop 64)

/-- Stores a page or a slot under one key. -/
def State.putUnder (s : State) (n key pa : Nat) (l : List Byte) : State := s.putLines n (fun _ => some key) 64 pa l

/-- Whether writes of a command to pool memory are not complete. -/
def writesOut (s : State) (n : Nat) : Bool := s.host.pendingReads.any (fun r => r.2 == .pageWrite n)

/-- Moves the marks of a frame's 512 words. -/
def moveMarks (l : List Nat) (old new : Nat) : List Nat :=
  (List.range 512).foldl (fun m i =>
    let m := if numHas l (old * 512 + i) then numIns m (new * 512 + i) else numDel m (new * 512 + i)
    numDel m (old * 512 + i)) l

/-- The empty words of a frame. -/
def emptiesOf (s : State) (frame : Nat) : List Nat := (List.range 512).filter (fun i => numHas s.mem.empties (frame * 512 + i))

/-- Sets the tags of a frame: these words empty, the others full; no word is poisoned. -/
def State.putTags (s : State) (frame : Nat) (empties : List Nat) : State :=
  s.setMem { s.mem with
    empties := (List.range 512).foldl (fun m i =>
      if empties.contains i then numIns m (frame * 512 + i) else numDel m (frame * 512 + i)) s.mem.empties,
    poison := (List.range 512).foldl (fun m i => numDel m (frame * 512 + i)) s.mem.poison }

/-- The address of slot i of a class (R123). -/
def slotAddr (s : State) (c i : Nat) : Nat :=
  s.churn.zreg * 2 ^ 48 + bits (mget s.churn.pools c 0).toNat 61 24 * 1024 + i * c * 1024

/-- A free slot of a class: which one is a free choice. -/
def freeSlotOf (s : State) (c : Nat) : Option Nat :=
  let n := bits (mget s.churn.pools c 0).toNat 23 0
  if n = 0 then none
  else
    let start := s.pick Config.useSlot % n
    ((List.range (min n (s.churn.used.length + 1))).map (fun j => slotAddr s c ((start + j) % n))).find? (fun a =>
      !s.churn.used.contains a)

/-- The class of the slot that a compressed leaf names (R121). -/
def pteClass (pte : Nat) : Nat := bits pte 49 48

/-- The address of the slot that a compressed leaf names (R121). -/
def pteSlot (s : State) (pte : Nat) : Nat := s.churn.zreg * 2 ^ 48 + bits pte 47 10 * 1024

/-- A leaf that points to a frame, with Z clear. -/
def framePte (pte frame : Nat) : Nat := (pte - bits pte 49 10 * 1024 - b2n (bit pte 6) * 64) + frame % 2 ^ 40 * 1024

/-- A leaf that names a slot, with Z set. -/
def slotPte (pte c addr : Nat) : Nat :=
  (pte - bits pte 49 10 * 1024 - b2n (bit pte 6) * 64) + 64 + c * 2 ^ 48 + bits addr 47 10 * 1024

/-- The TLBI of the churn engine for a page, at fabric scope (R110, R120). -/
def State.churnTlbi (s : State) (n job : Nat) (va : Word) : State :=
  let others := if s.fabric.enable then s.otherModules else []
  let s := s.tlbiStart ⟨unitChurn, n⟩ unitChurn 5 others.length (.page job va.toNat)
  others.foldl (fun s m => s.ask 2 m 0 unitChurn n 0 0 (.tlbi (some job) (some (vpnAt va.toNat 0)))) s

/-- Whether a TLBI of the churn engine for a command is not complete. -/
def tlbiRuns (s : State) (n : Nat) : Bool := s.mem.tlbis.any (fun w => w.id == ⟨unitChurn, n⟩)

/-- Writes a leaf at its home, and begins to drop its translations everywhere (R110, R120). -/
def State.putPte (s : State) (n at_ pte job : Nat) (va : Word) : State :=
  (s.setMem { s.mem with cells := setBytes s.mem.cells at_ (natBytes 8 pte) }).churnTlbi n job va

/-- What the churn engine's walk to a leaf comes to: the entry's address, the entry and its level; an entry whose line or frame
is held elsewhere (R105); or a cause and a level. -/
inductive LeafRes
  | leaf (at_ pte level : Nat)
  | busy (at_ : Nat)
  | fault (cause level : Nat)

/-- The walk of the churn engine to a leaf, with the checks of R105. -/
def leafAt (s : State) (va : Nat) : Nat → Nat → Nat → LeafRes
  | 0, _, _ => .fault causeBadpte 0
  | fuel + 1, level, table =>
    let pa := table + 8 * vaIndex va level
    let pte := s.mem.pte pa
    let frame := bits pte 49 10 * 4096
    if !paOk s pa then .fault causePhysaddr level
    else if entryBusy s pa then .busy pa
    else if !bit pte 9 then .fault causeNotpres level
    else if bits pte 2 0 == 0 then
      if level = 0 || bit pte 6 || 1 < region frame then .fault causeBadpte level
      else leafAt s va fuel (level - 1) frame
    else if 3 ≤ level || (bit pte 1 && !bit pte 0) then .fault causeBadpte level
    else if !bit pte 6 && frame % 2 ^ (12 + 9 * level) != 0 then .fault causeBadpte level
    else .leaf pa pte level

/-! ## Commands (R118 to R120) -/

/-- A command from its block's words. -/
def cmdOf (block : Nat) (l : List Byte) : ChurnCmd :=
  let w0 := (wordAt l 0).toNat
  { block := block, op := bits w0 63 56, size := bits w0 55 48, job := bits w0 47 32, va := wordAt l 1,
    dest := (wordAt l 2).toNat, done := (wordAt l 3).toNat, st := 0, frame := 0,
    frames := if bits w0 55 48 = 1 then 512 else 1, old := 0, pte := 0, slot := 0, status := 0, extra := 0 }

/-- The bytes of a command's page. -/
def ChurnCmd.span (c : ChurnCmd) : Nat := if c.size = 1 then 2 ^ 21 else 4096

/-- Whether two commands are for one page. -/
def sameTarget (c d : ChurnCmd) : Bool :=
  c.job == d.job && c.va.toNat / c.span * c.span < d.va.toNat / d.span * d.span + d.span &&
  d.va.toNat / d.span * d.span < c.va.toNat / c.span * c.span + c.span

/-- Whether a field of a command is out of range (R119). -/
def cmdBad (s : State) (w0 : Nat) (c : ChurnCmd) : Bool :=
  c.op = 0 || 3 < c.op || 1 < c.size || (c.size = 1 && c.op != 1) || w0 % 2 ^ 32 != 0 ||
  (mget? s.work.jobs c.job).isNone || !canonical c.va.toNat || c.va.toNat % c.span != 0 ||
  2 ^ 52 ≤ c.dest || c.dest % c.span != 0 || !paOk s c.dest || !paOk s (c.dest + c.span - 1) ||
  (2 < region c.dest && (region c.dest < 4 || 7 < region c.dest)) ||
  (c.op = 2 && !(s.churn.zreg = 1 || (4 ≤ s.churn.zreg && s.churn.zreg ≤ 7)))

/-- Replaces a command. -/
def State.setCmd (s : State) (n : Nat) (c : ChurnCmd) : State := s.setChurn { s.churn with cmds := mput s.churn.cmds n c }

/-- A command is over. -/
def State.dropCmd (s : State) (n : Nat) : State :=
  s.setChurn { s.churn with cmds := mdel s.churn.cmds n, bufs := mdel s.churn.bufs n }

/-- A command ends with a status: the DONE state follows. -/
def State.endCmd (s : State) (n : Nat) (c : ChurnCmd) (status extra : Nat) : State :=
  (s.setCmd n { c with st := 4, status := status, extra := extra }).post (.done n)

/-- A fault of the churn engine: the command is held (R111, R114). On full queues it tries again (R113). -/
def State.churnFault (s : State) (n : Nat) (c : ChurnCmd) (cause level : Nat) (va : Word) : State :=
  (s.raiseFault
    { engine := 5, cause := cause, job := c.job, place := gcid s unitChurn, va := va,
      access := if c.op = 1 then accMigrate else if c.op = 3 then accDecomp else accLoad, size := 3, spec := false, slot := 0,
      cmd := 0, level := level, token := 0 } 65536 false (.churn n)).getD (s.after 16 (.churnGo n))

/-- A frame begins to move: accesses to the new one wait from now on, those to the old one from FREEZE on (R120). -/
def State.beginMove (s : State) (old new : Nat) : State :=
  s.setMem { s.mem with moving := s.mem.moving ++ [⟨old, new, false, old != new, []⟩] }

/-- What decompressing a slot comes to. -/
inductive ZRes
  | page (l : List Byte) (empties : List Nat) (s : State)
  | wait (s : State)
  | bad (status cause : Nat) (s : State)

/-- The page and the empty words in a slot's bytes (R121); or the status of R122: 3 for a bad block, 4 for a bad hash. -/
def unpackSlot (c : Nat) (l : List Byte) : Nat ⊕ (List Byte × List Nat) :=
  let w0 := (wordAt l 0).toNat
  let len := bits w0 15 0
  if c * 1024 < len + 16 then .inl 3
  else match lzPage ((l.drop 16).take len) with
    | none => .inl 3
    | some page => if (xxh32 page).toNat != bits w0 63 32 then .inl 4 else .inr (page, tagsOf (wordAt l 1))

/-- What a slot's plain bytes come to once they are read: a page, or a failure that is counted (R122). -/
def slotResult (n c : Nat) (l : List Byte) (s : State) : ZRes :=
  let s := s.dropBuf n
  match unpackSlot c l with
  | .inl st => .bad st (if st = 3 then causeZcorrupt else causeZcheck) (s.setChurn { s.churn with errors := s.churn.errors + 1 })
  | .inr x => .page x.1 x.2 s

/-- Reads and decodes the slot of a compressed leaf (R122), under its job's key, which has to be LIVE (R127). A slot in another
module is read at its home. -/
def readSlot (s : State) (n pte job : Nat) (va : Word) : ZRes :=
  let c := pteClass pte
  let pa := pteSlot s pte
  let dev := bits pte 63 50
  if !s.keyLive (s.accKey job va) then .bad 5 causeKeydead s
  else if dev != s.fabric.self then
    match readFar n job va dev pa (16 * c - (s.bufAt n).length / 64) s with
    | .ok l s => slotResult n c l s
    | .wait s => .wait s
    | .fault cause s => .bad 5 cause (s.dropBuf n)
  else match storedBytes s n pa (c * 1024) with
    | .ok raw s => slotResult n c (plainLines s (s.accKey job va) 64 pa raw) s
    | .wait s => .wait s
    | .fault cause s => .bad 5 cause s

/-- A slot's page stands in a frame: the leaf points there, and the barriers' waiters of the page wait there (R122). -/
def State.restorePage (s : State) (n at_ pte job : Nat) (va : Word) (frame : Nat) : State :=
  let own := pte - bits pte 63 50 * 2 ^ 50 + s.fabric.self % 2 ^ 14 * 2 ^ 50
  let s := s.putPte n at_ (framePte own frame) job va
  let hit (w : Waiter) : Bool := opBarrier w.acc.how && w.acc.job == job && vpnAt w.acc.va.toNat 0 == vpnAt va.toNat 0
  s.setMem { s.mem with waiters := s.mem.waiters.map (fun (w : Waiter) =>
    if hit w then { w with acc := { w.acc with pa := frame * 4096 + w.acc.pa % 4096 } } else w) }

/-- The slot that is free once its leaf's translations are gone. -/
def State.freeSlotAt (s : State) (pa : Nat) : State :=
  s.setChurn { s.churn with used := s.churn.used.filter (fun a => a != pa) }

/-- The page of a DECOMPRESS is read from its slot and written at DEST (R122). -/
def State.churnRestore (s : State) (n : Nat) (c : ChurnCmd) (at_ pte : Nat) : State :=
  match readSlot s n pte c.job c.va with
  | .wait s => s.after 16 (.churnGo n)
  | .bad st cause s => if st = 5 then s.churnFault n c cause 0 c.va else s.endCmd n c st 0
  | .page page es s =>
    let s := (s.putUnder n (s.accKey c.job c.va) c.dest page).putTags (c.dest / 4096) es
    (s.setCmd n { c with st := 6, pte := at_, slot := pteSlot s pte }).post (.churnGo n)

/-- INVAL (R120 to R122): the leaf is found and checked, and the command begins. -/
def State.churnInval (s : State) (n : Nat) (c : ChurnCmd) : State :=
  match mget? s.work.jobs c.job with
  | none => s.endCmd n c 7 0
  | some j => match leafAt s c.va.toNat 6 4 j.root with
    | .busy pa => ((lineBusy s pa true).getD s).after 1 (.churnGo n)
    | .fault cause lv => s.churnFault n c cause lv c.va
    | .leaf at_ pte lv =>
      let old := bits pte 49 10
      let moved := { c with st := 1, old := old, pte := at_ }
      if !s.keyLive (s.accKey c.job c.va) then s.churnFault n c causeKeydead lv c.va
      else if !typeOk (region c.dest) (bits pte 5 4) then s.endCmd n c 7 0
      else if c.op = 3 then
        if !bit pte 6 || lv != 0 then s.endCmd n c 7 0 else s.churnRestore n c at_ pte
      else if bits pte 63 50 != s.fabric.self || bit pte 6 || lv != c.size then s.endCmd n c 7 0
      else if c.op = 1 then
        let s := (List.range c.frames).foldl (fun s i => s.beginMove (old + i) (c.dest / 4096 + i)) s
        ((s.setCmd n moved).putPte n at_ (framePte pte (c.dest / 4096)) c.job c.va).post (.freeze n)
      else ((s.beginMove old old).setCmd n moved).post (.freeze n)

/-- The block of a command has been read: it begins, or completes at once (R118, R119). -/
def State.churnBegin (s : State) (n : Nat) (c : ChurnCmd) (l : List Byte) : State :=
  let x := cmdOf c.block l
  if s.churn.cmds.any (fun y => y.1 != n && y.2.st % 16 != 5 && sameTarget y.2 x) then (s.dropCmd n).completion x.done 6
  else if cmdBad s (wordAt l 0).toNat x then (s.dropCmd n).completion x.done 7
  else (s.setCmd n x).churnInval n x

/-- Reads the block of a command under the firmware's key, coherently (R118, R125): an address that is not memory faults. -/
def State.churnBlock (s : State) (n : Nat) (c : ChurnCmd) : State :=
  let pa := c.block
  let line := pa / 64 * 64
  if !paOk s pa || !paOk s (pa + 31) || 8 ≤ region pa then s.churnFault n c causePhysaddr 0 (w64 pa)
  else match lineBusy s pa false with
    | some s => s.after 1 (.churnGo n)
    | none => match storedBytes s n line (if pa % 64 ≤ 32 then 64 else 128) with
      | .ok raw s => (s.dropBuf n).churnBegin n c (((plainLines s 0 2 line raw).drop (pa % 64)).take 32)
      | .wait s => s.after 16 (.churnGo n)
      | .fault cause s => s.churnFault n c cause 0 (w64 pa)

/-- A write to CHURN_Q beyond 64 commands outstanding is dropped (R118). -/
def State.churnOverflow (s : State) : State := s.setChurn { s.churn with ovf := true }

/-- A write to CHURN_Q: a command whose block lies at an address is taken, or dropped while 64 are outstanding; an engine that
is not enabled accepts none (R118, R123). -/
def State.churnSubmit (s : State) (block : Nat) : State :=
  let n := s.churn.nextCmd
  if !s.churn.en then s
  else if 64 ≤ s.churn.cmds.length then s.churnOverflow
  else
    let c := { cmdOf block [] with st := 5 }
    ((s.setChurn { s.churn with nextCmd := n + 1 }).setCmd n c).churnBlock n c

/-- MIGRATE (R120). -/
def execMigrate (cmd : Nat) (s : State) : Res := .next (s.churnSubmit cmd)

/-- COMPRESS (R121). -/
def execCompress (cmd : Nat) (s : State) : Res := .next (s.churnSubmit cmd)

/-- DECOMPRESS (R122). -/
def execDecompress (cmd : Nat) (s : State) : Res := .next (s.churnSubmit cmd)

/-- CHURN_Q_OVERFLOW (R118): the write is dropped and OVF is set; nothing else is done for the command. -/
def execChurnQOverflow (_cmd : Nat) (s : State) : Res := .next s.churnOverflow

/-! ## FREEZE, COPY, RELEASE, DONE (R120, R121) -/

/-- Whether requests for a frame's lines are still on their way at the pool port or to a cache. -/
def frameInUse (s : State) (frame : Nat) : Bool :=
  s.host.pendingReads.any (fun r => match r.2 with
    | .access a => region a.pa != 8 && a.pa / 4096 == frame
    | .poolWrite a _ _ => a.pa / 4096 == frame
    | .line _ l => l / 64 == frame
    | .lineWrite _ l => l / 64 == frame
    | _ => false) ||
  s.mem.fills.any (fun f => f.2.1 == s.fabric.self && f.2.2 / 64 == frame)

/-- Recalls every cached copy of a frame's lines: copy engines, peers, cluster caches. Answers whether none is left. -/
def State.recallFrame (s : State) (frame : Nat) : State × Bool :=
  let here (l : Nat) : Bool := l / 64 == frame
  let owners := s.work.clusters.flatMap (fun c => (c.2.copyLines.filter (fun o => o.dev == s.fabric.self && here o.line)).map
    (fun o => (c.1, o.line)))
  let peers := (s.mem.peers.filter (fun p => here p.1)).map (·.1)
  let s := s.writeBackAll (fun l => l.dev == s.fabric.self && here l.line)
  let s := s.setMem { s.mem with clines := s.mem.clines.filter (fun l => !(l.dev == s.fabric.self && here l.line)) }
  let s := owners.foldl (fun s x => s.post (.lineRecall x.1 x.2)) s
  let s := peers.foldl (fun s l => s.recallPeers l) s
  (s, owners.isEmpty && peers.isEmpty && !frameInUse s frame)

/-- Freezes a frame; its waiters of the full/empty tags join its queue ahead of the accesses that arrive now, and code lines
asked for are asked for again. -/
def State.freezeFrame (s : State) (frame : Nat) : State :=
  let hit (w : Waiter) : Bool := w.acc.pa / 4096 == frame && !opBarrier w.acc.how
  let ws := (s.mem.waiters.filter hit).map Waiter.acc
  s.setMem { s.mem with
    waiters := s.mem.waiters.filter (fun w => !hit w),
    codeFills := s.mem.codeFills.filter (fun c => !(c.line / 2 ^ 46 == s.fabric.self && c.line % 2 ^ 46 / 64 == frame)),
    moving := s.mem.moving.map (fun (m : MovingPage) =>
      if m.old = frame && !m.frozen then { m with frozen := true, queue := ws ++ m.queue } else m) }

/-- FREEZE (R120): after the TLBI the old home freezes the frame and recalls its cached copies; the event comes again
until none is left. -/
def execFreeze (cmd : Nat) (s : State) : Res :=
  match mget? s.churn.cmds cmd with
  | none => .next s
  | some c =>
    if c.st != 1 then .next s
    else if tlbiRuns s cmd then .next (s.after 1 (.freeze cmd))
    else
      let s := s.freezeFrame (c.old + c.frame)
      match s.recallFrame (c.old + c.frame) with
      | (s, false) => .next (s.after 1 (.freeze cmd))
      | (s, true) => .next ((s.setCmd cmd { c with st := 2 }).post (.copy cmd))

/-- The tags, the poison marks, the heat byte and the barriers' waiters of a frame move to another (R120). -/
def State.moveFrame (s : State) (old new : Nat) : State :=
  let s := s.setMem { s.mem with
    empties := moveMarks s.mem.empties old new, poison := moveMarks s.mem.poison old new,
    waiters := s.mem.waiters.map (fun (w : Waiter) =>
      if w.acc.pa / 4096 = old then { w with acc := { w.acc with pa := new * 4096 + w.acc.pa % 4096 } } else w) }
  match heatAddr s old, heatAddr s new with
  | some a, some b =>
    let v := byteAt s.mem.cells a
    s.setMem { s.mem with cells := setByte (setByte s.mem.cells b v) a 0 }
  | _, _ => s

/-- The data of a frame are written to another, each line under its key (R120). -/
def State.copyFrame (s : State) (n old new : Nat) (raw : List Byte) : State :=
  s.putLines n (fun pa => mget? s.mem.keys (old * 64 + (pa / 64 - new * 64))) 64 (new * 4096) raw

/-- What a COMPRESS stores of a page (R121): in a slot of a class, raw at DEST with no slot, or nothing as no slot is free. -/
inductive Stored
  | slot (cl len addr : Nat) (body : List Byte)
  | raw
  | full

/-- How a page is stored (R121). -/
def storeAs (s : State) (c : ChurnCmd) (page : List Byte) : Stored :=
  match compressPage page, tagsWord (emptiesOf s c.old) with
  | some z, some tw =>
    let cl := if z.length ≤ 1008 then 1 else if z.length ≤ 2032 then 2 else 3
    (freeSlotOf s cl).elim .full (fun a =>
      let body := natBytes 8 (z.length + (xxh32 page).toNat * 2 ^ 32) ++ natBytes 8 tw.toNat ++ z
      .slot cl z.length a (body ++ List.replicate (cl * 1024 - body.length) 0))
  | _, _ => .raw

/-- A frozen page is written to a slot, or raw to DEST (R121). -/
def State.compressFrame (s : State) (n : Nat) (c : ChurnCmd) (raw : List Byte) : State :=
  let key := s.accKey c.job c.va
  let go (s : State) (c : ChurnCmd) : State := (s.setCmd n { c with st := 6 }).post (.churnGo n)
  match storeAs s c (plainLines s key 64 (c.old * 4096) raw) with
  | .full => (s.setCmd n { c with st := 3, status := 2 }).post (.release n)
  | .raw => go (s.copyFrame n c.old (c.dest / 4096) raw) { c with status := 1 }
  | .slot cl len a body =>
    go ((s.putUnder n key a body).setChurn { s.churn with used := numIns s.churn.used a })
      { c with slot := a, extra := cl * 2 ^ 8 + len * 2 ^ 16 }

/-- COPY (R120, R121): the page is read and written to its new place; a COMPRESS reads it under its job's key, which has to
be LIVE (R127). -/
def execCopy (cmd : Nat) (s : State) : Res :=
  match mget? s.churn.cmds cmd with
  | none => .next s
  | some c =>
    if c.st != 2 then .next s
    else if c.op = 2 && !s.keyLive (s.accKey c.job c.va) then .next (s.churnFault cmd c causeKeydead 0 c.va)
    else match storedBytes s cmd ((c.old + c.frame) * 4096) 4096 with
      | .wait s => .next (s.after 16 (.copy cmd))
      | .fault cause s => .next (s.churnFault cmd c cause 0 c.va)
      | .ok raw s =>
        if c.op = 2 then .next (s.compressFrame cmd c raw)
        else
          let s := s.copyFrame cmd (c.old + c.frame) (c.dest / 4096 + c.frame) raw
          .next ((s.setCmd cmd { c with st := 6 }).post (.churnGo cmd))

/-- The entries of a command's page among those that move. -/
def movesOf (c : ChurnCmd) (m : MovingPage) : Bool := c.old ≤ m.old && m.old < c.old + c.frames

/-- What waits for a command's frames is translated again (R110, R120). -/
def State.rerunMoving (s : State) (c : ChurnCmd) : State :=
  let q := (s.mem.moving.filter (movesOf c)).flatMap MovingPage.queue
  let s := s.setMem { s.mem with moving := s.mem.moving.map (fun (m : MovingPage) => if movesOf c m then { m with queue := [] } else m) }
  q.foldl State.rerun s

/-- The writes of a command stand (R120 to R122): what else the frame has follows them, and the leaf is rewritten where that is
still to be done. -/
def State.churnWritten (s : State) (n : Nat) (c : ChurnCmd) : State :=
  let s := s.dropBuf n
  let pte := s.mem.pte c.pte
  if c.op = 3 then
    ((s.setCmd n { c with st := 7 }).restorePage n c.pte pte c.job c.va (c.dest / 4096)).post (.churnGo n)
  else if c.op = 2 then
    let s := if c.status = 1 then s.moveFrame c.old (c.dest / 4096) else s
    let new := if c.status = 1 then framePte pte (c.dest / 4096) else slotPte pte (c.extra / 256 % 4) c.slot
    (((s.setCmd n { c with st := 7 }).putPte n c.pte new c.job c.va).rerunMoving c).post (.churnGo n)
  else
    ((s.moveFrame (c.old + c.frame) (c.dest / 4096 + c.frame)).setCmd n { c with st := 3 }).post (.release n)

/-- The pool memory that a command writes: once every write is complete it goes on; one that meets the timeout faults, and the
command writes the page again when it resumes (R94). -/
def State.churnWrites (s : State) (n : Nat) (c : ChurnCmd) : State :=
  if writesOut s n then s.after 16 (.churnGo n)
  else match lineDead s churnLoc s.fabric.self n with
    | none => s.churnWritten n c
    | some cause =>
      let s := (s.clearDead churnLoc s.fabric.self n).freeSlotAt (if c.op = 2 then c.slot else 0)
      let back := { c with st := if c.op = 3 then 0 else 2, status := if c.op = 2 then 0 else c.status, extra := 0 }
      (s.setCmd n back).churnFault n back cause 0 c.va

/-- A page stored elsewhere or restored: accesses of the frozen page are translated again until the TLBI is complete, and the
command ends (R121, R122). -/
def State.churnSettle (s : State) (n : Nat) (c : ChurnCmd) : State :=
  let s := if c.op = 2 then s.rerunMoving c else s
  if tlbiRuns s n then s.after 1 (.churnGo n)
  else if c.op = 3 then (s.freeSlotAt c.slot).endCmd n c 0 0
  else (s.setCmd n { c with st := 3 }).post (.release n)

/-- An aborted MIGRATE goes back (R114): the leaf names the old place again, and what comes to the new frames with the
translation that it drops waits. -/
def State.undoMove (s : State) (n : Nat) (c : ChurnCmd) : State :=
  let s := s.rerunMoving c
  let s := s.setMem { s.mem with moving := s.mem.moving.map (fun (m : MovingPage) =>
    if movesOf c m then ⟨m.old, m.new, false, true, m.queue⟩ else m) }
  let s := (s.dropBuf n).setCmd n { c with st := 8, status := 5 }
  (s.putPte n c.pte (framePte (s.mem.pte c.pte) c.old) c.job c.va).post (.churnGo n)

/-- After that TLBI the frames that had moved move back, one by one as before, and the command ends (R114). -/
def State.churnUndone (s : State) (n : Nat) (c : ChurnCmd) : State :=
  let s := s.rerunMoving c
  if tlbiRuns s n then s.after 1 (.churnGo n)
  else
    let s := s.setMem { s.mem with moving := s.mem.moving.filter (fun m => !movesOf c m) }
    if c.frame = 0 then s.endCmd n c 5 0
    else
      let back := { c with st := 1, old := c.dest / 4096, dest := c.old * 4096, frames := c.frame, frame := 0 }
      let s := (List.range c.frame).foldl (fun s i => s.beginMove (back.old + i) (c.old + i)) s
      (s.setCmd n back).post (.freeze n)

/-- A command is aborted while it is held (R114): it completes with FAULT, and the page stays at its old place. Of a frame on
its way back the words that cannot be read are poisoned. -/
def State.churnAbort (s : State) (n : Nat) (c : ChurnCmd) : State :=
  if c.st = 5 then s.dropCmd n
  else if c.st != 2 then s.endCmd n c 5 0
  else if c.op = 2 then ((s.dropBuf n).setCmd n { c with st := 3, status := 5, extra := 0 }).post (.release n)
  else if c.status != 5 then s.undoMove n c
  else
    let got := s.bufAt n
    let first := (c.old + c.frame) * 512
    let s := s.setMem { s.mem with poison := (List.range (512 - got.length / 8)).foldl (fun p i =>
      numIns p (first + got.length / 8 + i)) s.mem.poison }
    let s := s.putBuf n (got ++ List.replicate (4096 - got.length) 0)
    (s.setCmd n c).post (.copy n)

/-- A command of the churn engine goes on where it stands (R114). -/
def execChurnGo (n : Nat) (s : State) : Res :=
  match mget? s.churn.cmds n with
  | none => .next s
  | some c =>
    if 16 ≤ c.st then .next (s.churnAbort n { c with st := c.st - 16 })
    else if c.st = 0 then .next (s.churnInval n c)
    else if c.st = 5 then .next (s.churnBlock n c)
    else if c.st = 6 then .next (s.churnWrites n c)
    else if c.st = 7 then .next (s.churnSettle n c)
    else if c.st = 8 then .next (s.churnUndone n c)
    else .next (s.post (if c.st = 1 then .freeze n else if c.st = 2 then .copy n else if c.st = 3 then .release n else .done n))

/-- RELEASE (R120): the queue goes to the new home in order of arrival; a page of 2 MiB goes on with its next frame. After
a COMPRESS the accesses are translated again. -/
def execRelease (cmd : Nat) (s : State) : Res :=
  match mget? s.churn.cmds cmd with
  | none => .next s
  | some c =>
    if c.st != 3 then .next s
    else
      let old := c.old + c.frame
      let new := c.dest / 4096 + c.frame
      let hit (m : MovingPage) : Bool := m.old == old && m.frozen
      let q := (s.mem.moving.filter hit).flatMap MovingPage.queue
      let s := (s.dropBuf cmd).setMem { s.mem with moving := s.mem.moving.filter (fun m => !hit m) }
      if c.op = 2 then .next ((q.foldl (fun s a => s.rerun a) s).endCmd cmd c c.status c.extra)
      else
        let s := q.foldl (fun s a => s.post (.homeAccess { a with pa := new * 4096 + a.pa % 4096 })) s
        if c.frame + 1 < c.frames then .next ((s.setCmd cmd { c with st := 1, frame := c.frame + 1 }).post (.freeze cmd))
        else .next (s.endCmd cmd c c.status 0)

/-- DONE (R119, R120): the completion word is written and set full. -/
def execDone (cmd : Nat) (s : State) : Res :=
  match mget? s.churn.cmds cmd with
  | none => .next s
  | some c => if c.st != 4 then .next s else .next ((s.dropCmd cmd).completion c.done (c.status + c.extra))

/-! ## Pages that are decompressed on access (R122, R124) -/

/-- What taking a frame from the free-frame list comes to: a frame, an empty list, or a line of the list that a cache holds. -/
inductive FrameRes
  | got (frame : Nat) (s : State)
  | none (s : State)
  | wait (s : State)

/-- A number of the free-frame list, as the firmware's key reads it (R124, R125). -/
def listWord (s : State) (pa n : Nat) : Nat := bytesNat (s.mem.read 0 pa n)

/-- Takes a frame from the free-frame list (R124); an entry that is not a frame of region 0x0 or 0x1 is discarded. -/
def takeFrame : Nat → State → FrameRes
  | 0, s => .none s
  | fuel + 1, s =>
    let page := s.churn.fpool * 4096
    let taken := listWord s page 4
    let n := (listWord s (page + 8) 4 + 2 ^ 32 - taken) % 2 ^ 32
    let entry := page + 64 + 8 * (taken % 504)
    if 1 < region page || !paOk s page then .none s
    else match (lineBusy s page true).or (lineBusy s entry false) with
      | some s => .wait s
      | none =>
        if 504 < n then .none (s.setChurn { s.churn with errors := s.churn.errors + 1 })
        else if n = 0 then .none s
        else
          let e := listWord s entry 8
          let s := s.setMem (s.mem.write 0 page (natBytes 8 ((taken + 1) % 2 ^ 32)))
          if 2 ^ 52 ≤ e || e % 4096 != 0 || 1 < region e || !paOk s e then
            takeFrame fuel (s.setChurn { s.churn with errors := s.churn.errors + 1 })
          else .got (e / 4096) s

/-- Whether what waits for a page is a speculative task's, and whether it is a handler's (R111, R133). -/
def waitingTask (s : State) (w : Waiting) : Bool × Bool :=
  let of (id : SlotId) : Bool × Bool := ((s.slotAt id).task.ord, (s.slotAt id).task.handler)
  match w with
  | .thread id => of id
  | .access a => (a.ord, a.handler)
  | .copy cl sid => (s.cp? cl sid).elim (false, false) (fun c => of ⟨c.core, c.slot⟩)
  | .launch id _ _ _ => of id
  | _ => (false, false)

/-- What waits for a page stops at a fault of the churn engine on its behalf (R122). -/
def State.parkWaiting (s : State) (r : Replay) (token : Nat) : State :=
  match r.what with
  | .thread id => s.setSlot id { s.slotAt id with st := .fault token }
  | .copy cl sid => match s.cp? cl sid with
    | none => s
    | some c => if c.job = r.job && c.launch = r.launch then s.setCp cl sid { c with fault := some token } else s
  | _ => s

/-- Whether what waited for a page is still there: a thread or a stream tries by itself, and may have gone. -/
def stillWaits (s : State) (r : Replay) : Bool :=
  match r.what with
  | .thread id => (s.slotAt id).st == .running && (s.slotAt id).task.job == r.job && (s.slotAt id).task.launch == r.launch
  | .copy cl sid => (s.cp? cl sid).any (fun c => c.job == r.job && c.launch == r.launch && c.fault.isNone)
  | _ => true

/-- Removes a waiting page access. -/
def State.dropZwait (s : State) (token : Nat) : State :=
  s.setChurn { s.churn with zwait := s.churn.zwait.filter (fun z => z.2.token != token) }

/-- The number of the buffer in which a slot is read for a waiting access; while its TLBI runs it holds the address of the slot
that is free afterwards. -/
def zBuf (token : Nat) : Nat := 2 ^ 60 + token

/-- A decompression fails on behalf of what waits (R122): a record of a fault ring goes to the host (R133). -/
def State.zFault (s : State) (r : Replay) (cause : Nat) : State :=
  let w := waitingTask s r.what
  let f : FaultRec :=
    { engine := 5, cause := cause, job := r.job, place := gcid s unitChurn, va := r.va, access := accDecomp, size := 6,
      spec := w.1, slot := 0, cmd := 0, level := 0, token := 0 }
  let out := s.dropZwait r.token
  match r.what with
  | .ring i => out.ringFail i
  | _ =>
    if !stillWaits s r then out
    else match out.raiseFault f r.launch w.2 r.what with
      | none => s.after 16 (.zPageDecompress r.token)
      | some s' => s'.parkWaiting r s.mem.nextToken

/-- A page stands in its frame: the access is translated again (R122). -/
def State.zDone (s : State) (r : Replay) : State := (s.dropZwait r.token).resumeWait r.token r.what

/-- After the TLBI of a restored page its slot is free (R122). -/
def State.zSlot (s : State) (token : Nat) : State :=
  let b := s.bufAt (zBuf token)
  if b.length != 8 then s
  else if tlbiRuns s (zBuf token) then s.after 1 (.zPageDecompress token)
  else (s.freeSlotAt (bytesNat b)).dropBuf (zBuf token)

/-- The slot of a page is read and decoded, and the page is restored to a free frame (R122, R124). -/
def State.zRestore (s : State) (at_ pte : Nat) (r : Replay) : State :=
  let again (s : State) (n : Nat) : State := s.after n (.zPageDecompress r.token)
  match readSlot s (zBuf r.token) pte r.job r.va with
  | .wait s => again s 16
  | .bad _ cause s => s.zFault r cause
  | .page page es s => match takeFrame 505 s with
    | .wait s => again s 1
    | .none s => s.after 6800 .freeFramePoll
    | .got frame s =>
      let s := (s.putUnder (zBuf r.token) (s.accKey r.job r.va) (frame * 4096) page).putTags frame es
      let slot := if bits pte 63 50 = s.fabric.self then pteSlot s pte else 0
      again (((s.restorePage (zBuf r.token) at_ pte r.job r.va frame).putBuf (zBuf r.token) (natBytes 8 slot)).zDone r) 1

/-- Z_PAGE_DECOMPRESS (R122): a walk that waits for an entry held elsewhere goes on once the entry is there (R105); the page is
restored to a free frame and the access is translated again; bad data fault on its behalf; with an empty free-frame list it
waits. -/
def execZPageDecompress (token : Nat) (s : State) : Res :=
  match s.churn.zwait.find? (fun z => z.2.token == token) with
  | none => .next (s.zSlot token)
  | some (at_, r) =>
    let pte := s.mem.pte at_
    if entryBusy s at_ then .next (((lineBusy s at_ false).getD s).after 1 (.zPageDecompress token))
    else if !bit pte 6 || !bit pte 9 then .next (s.zDone r)
    else .next (s.zRestore at_ pte r)

/-- FREE_FRAME_POLL (R124): GIVEN is read again for every access that waits. -/
def execFreeFramePoll (s : State) : Res :=
  let s := s.untimer .freeFramePoll
  .next (s.setSched { s.sched with inbox := s.sched.inbox ++ s.churn.zwait.map (fun z => .zPageDecompress z.2.token) })

end Sys2Proof.Machine
end

