-- ==== Sys2Proof/Machine/Float.lean ====
section
/-! DEFINITION. Scalar float instructions: majors 0x0E and 0x0F (spec 13 R321 to R329). -/

namespace Sys2Proof.Machine

open Sys2Proof

/-- The value of a register in a format (R321). -/
def fv (f : BitVec 2) (x : Word) : FVal := (fmtOf f).val x.toNat

/-- A rounded result, zero-extended (R321). -/
def fw (f : BitVec 2) (rm : BitVec 3) (v : FVal) : Word := w64 ((fmtOf f).enc rm.toNat v)

/-- FADD (R322). -/
def execFadd (o : Ops3) (rm : BitVec 3) (f : BitVec 2) (s : State) : Res :=
  alu3 o false (fun a b _ => fw f rm ((fv f a).add rm.toNat (fv f b))) s

/-- FSUB (R322). -/
def execFsub (o : Ops3) (rm : BitVec 3) (f : BitVec 2) (s : State) : Res :=
  alu3 o false (fun a b _ => fw f rm ((fv f a).add rm.toNat (fv f b).neg)) s

/-- FMUL (R322). -/
def execFmul (o : Ops3) (rm : BitVec 3) (f : BitVec 2) (s : State) : Res :=
  alu3 o false (fun a b _ => fw f rm ((fv f a).mul (fv f b))) s

/-- FFMA: x·y + z with one rounding (R322). -/
def execFfma (o : Ops3) (rm : BitVec 3) (f : BitVec 2) (s : State) : Res :=
  alu3 o true (fun a b d => fw f rm (((fv f a).mul (fv f b)).add rm.toNat (fv f d))) s

/-- FMIN (R323). -/
def execFmin (o : Ops3) (f : BitVec 2) (s : State) : Res :=
  alu3 o false (fun a b _ => w64 ((fmtOf f).minmax false a.toNat b.toNat)) s

/-- FMAX (R323). -/
def execFmax (o : Ops3) (f : BitVec 2) (s : State) : Res :=
  alu3 o false (fun a b _ => w64 ((fmtOf f).minmax true a.toNat b.toNat)) s

/-- FDIV: written after 3 rotations (R322, R221). -/
def execFdiv (o : Ops3) (rm : BitVec 3) (f : BitVec 2) (s : State) : Res :=
  aluLate o.d (demand3 { o with t := false } false) o.t 3
    (fun a b => w64 ((fmtOf f).div rm.toNat (fv f a) (fv f b))) s

/-- FSQRT: written after 3 rotations (R322, R221). -/
def execFsqrt (o : Ops2) (rm : BitVec 3) (f : BitVec 2) (s : State) : Res :=
  aluLate o.d (demand2 { o with t := false }) o.t 3 (fun a _ => w64 ((fmtOf f).sqrt rm.toNat (fv f a))) s

/-- The sign bit of a format as a register mask. -/
def signMask (f : BitVec 2) : Word := w64 (2 ^ ((fmtOf f).eb + (fmtOf f).fb))

/-- The F field of a register (R325). -/
def fieldMask (f : BitVec 2) : Word := w64 (2 ^ (fmtOf f).bits - 1)

/-- FABS (R325). -/
def execFabs (o : Ops2) (f : BitVec 2) (s : State) : Res :=
  alu2 o (fun a => a &&& fieldMask f &&& ~~~signMask f) s

/-- FNEG (R325). -/
def execFneg (o : Ops2) (f : BitVec 2) (s : State) : Res :=
  alu2 o (fun a => (a &&& fieldMask f) ^^^ signMask f) s

/-- FCPYS: the sign comes from b (R325). -/
def execFcpys (o : Ops3) (f : BitVec 2) (s : State) : Res :=
  alu3 o false (fun a b _ => (a &&& fieldMask f &&& ~~~signMask f) ||| (b &&& signMask f)) s

/-- A comparison is 0 with a NaN (R324). -/
def fcmp (x y : FVal) (p : Ordering → Bool) : Word := boolWord (!x.isNan && !y.isNan && p (x.cmp y))

/-- FCMPEQ (R324). -/
def execFcmpeq (o : Ops3) (f : BitVec 2) (s : State) : Res :=
  alu3 o false (fun a b _ => fcmp (fv f a) (fv f b) (fun c => c == .eq)) s

/-- FCMPLT (R324). -/
def execFcmplt (o : Ops3) (f : BitVec 2) (s : State) : Res :=
  alu3 o false (fun a b _ => fcmp (fv f a) (fv f b) (fun c => c == .lt)) s

/-- FCMPLE (R324). -/
def execFcmple (o : Ops3) (f : BitVec 2) (s : State) : Res :=
  alu3 o false (fun a b _ => fcmp (fv f a) (fv f b) (fun c => c != .gt)) s

/-- FCMPUN (R324). -/
def execFcmpun (o : Ops3) (f : BitVec 2) (s : State) : Res :=
  alu3 o false (fun a b _ => boolWord ((fv f a).isNan || (fv f b).isNan)) s

/-- FCLASS (R326). -/
def execFclass (o : Ops2) (f : BitVec 2) (s : State) : Res :=
  alu2 o (fun a => w64 ((fmtOf f).cls a.toNat)) s

/-- FCVT: x is the destination format (R327). -/
def execFcvt (o : Ops2) (x : BitVec 2) (rm : BitVec 3) (f : BitVec 2) (s : State) : Res :=
  alu2 o (fun a => fw x rm (fv f a)) s

/-- FCVTI (R328). -/
def execFcvti (o : Ops2) (x : BitVec 2) (rm : BitVec 3) (f : BitVec 2) (s : State) : Res :=
  alu2 o (fun a => floatToInt x rm.toNat (fv f a)) s

/-- ICVTF: f is the destination format (R328). -/
def execIcvtf (o : Ops2) (x : BitVec 2) (rm : BitVec 3) (f : BitVec 2) (s : State) : Res :=
  alu2 o (fun a => fw f rm (FVal.ofInt (intOperand x a))) s

/-- FRND (R329). -/
def execFrnd (o : Ops2) (rm : BitVec 3) (f : BitVec 2) (s : State) : Res :=
  alu2 o (fun a => w64 ((fmtOf f).rnd rm.toNat a.toNat)) s

end Sys2Proof.Machine
end

