-- ==== Sys2Proof/Machine/Integer.lean ====
section
/-! DEFINITION. Integer, compare and immediate instructions: majors 0x02 to 0x0D (spec 13 R313 to R320). -/

namespace Sys2Proof.Machine

open Sys2Proof

/-- ADD: fin(s(a) + s(b)) (R313). -/
def execAdd (o : Ops3) (w : BitVec 2) (s : State) : Res :=
  alu3 o false (fun a b _ => fin w (sOf w a + sOf w b)) s

/-- SUB (R313). -/
def execSub (o : Ops3) (w : BitVec 2) (s : State) : Res :=
  alu3 o false (fun a b _ => fin w (sOf w a - sOf w b)) s

/-- MUL (R313). -/
def execMul (o : Ops3) (w : BitVec 2) (s : State) : Res :=
  alu3 o false (fun a b _ => fin w (sOf w a * sOf w b)) s

/-- MULH: the high half of the signed product (R313). -/
def execMulh (o : Ops3) (w : BitVec 2) (s : State) : Res :=
  alu3 o false (fun a b _ => fin w (Int.fdiv (sOf w a * sOf w b) (2 ^ widthOf w))) s

/-- MULHN: the high half of the unsigned product (R313). -/
def execMulhn (o : Ops3) (w : BitVec 2) (s : State) : Res :=
  alu3 o false (fun a b _ => fin w (uOf w a * uOf w b / 2 ^ widthOf w : Nat)) s

/-- MADD: reads d as the third source (R313). -/
def execMadd (o : Ops3) (w : BitVec 2) (s : State) : Res :=
  alu3 o true (fun a b d => fin w (sOf w d + sOf w a * sOf w b)) s

/-- DIV: written after 4 rotations (R314, R221). -/
def execDiv (o : Ops3) (w : BitVec 2) (s : State) : Res :=
  aluLate o.d (demand3 { o with t := false } false) o.t 4 (divS w) s

/-- DIVN: written after 4 rotations (R314, R221). -/
def execDivn (o : Ops3) (w : BitVec 2) (s : State) : Res :=
  aluLate o.d (demand3 { o with t := false } false) o.t 4 (divU w) s

/-- REM: written after 4 rotations (R314, R221). -/
def execRem (o : Ops3) (w : BitVec 2) (s : State) : Res :=
  aluLate o.d (demand3 { o with t := false } false) o.t 4 (remS w) s

/-- REMN: written after 4 rotations (R314, R221). -/
def execRemn (o : Ops3) (w : BitVec 2) (s : State) : Res :=
  aluLate o.d (demand3 { o with t := false } false) o.t 4 (remU w) s

/-- MIN, signed (R313). -/
def execMin (o : Ops3) (w : BitVec 2) (s : State) : Res :=
  alu3 o false (fun a b _ => fin w (Min.min (sOf w a) (sOf w b))) s

/-- MAX, signed (R313). -/
def execMax (o : Ops3) (w : BitVec 2) (s : State) : Res :=
  alu3 o false (fun a b _ => fin w (Max.max (sOf w a) (sOf w b))) s

/-- MINN, unsigned (R313). -/
def execMinn (o : Ops3) (w : BitVec 2) (s : State) : Res :=
  alu3 o false (fun a b _ => fin w (Min.min (uOf w a) (uOf w b) : Nat)) s

/-- MAXN, unsigned (R313). -/
def execMaxn (o : Ops3) (w : BitVec 2) (s : State) : Res :=
  alu3 o false (fun a b _ => fin w (Max.max (uOf w a) (uOf w b) : Nat)) s

/-- ABS: the most negative value returns itself (R313). -/
def execAbs (o : Ops2) (w : BitVec 2) (s : State) : Res :=
  alu2 o (fun a => fin w (sOf w a).natAbs) s

/-- AND (R313). -/
def execAnd (o : Ops3) (s : State) : Res :=
  alu3 o false (fun a b _ => a &&& b) s

/-- OR (R313). -/
def execOr (o : Ops3) (s : State) : Res :=
  alu3 o false (fun a b _ => a ||| b) s

/-- XOR (R313). -/
def execXor (o : Ops3) (s : State) : Res :=
  alu3 o false (fun a b _ => a ^^^ b) s

/-- ANDN (R313). -/
def execAndn (o : Ops3) (s : State) : Res :=
  alu3 o false (fun a b _ => a &&& ~~~b) s

/-- ORN (R313). -/
def execOrn (o : Ops3) (s : State) : Res :=
  alu3 o false (fun a b _ => a ||| ~~~b) s

/-- XNOR (R313). -/
def execXnor (o : Ops3) (s : State) : Res :=
  alu3 o false (fun a b _ => ~~~(a ^^^ b)) s

/-- SHL (R315). -/
def execShl (o : Ops3) (w : BitVec 2) (s : State) : Res :=
  alu3 o false (fun a b _ => shlW w a b.toNat) s

/-- SHR (R315). -/
def execShr (o : Ops3) (w : BitVec 2) (s : State) : Res :=
  alu3 o false (fun a b _ => shrW w a b.toNat) s

/-- SAR (R315). -/
def execSar (o : Ops3) (w : BitVec 2) (s : State) : Res :=
  alu3 o false (fun a b _ => sarW w a b.toNat) s

/-- ROL (R315). -/
def execRol (o : Ops3) (w : BitVec 2) (s : State) : Res :=
  alu3 o false (fun a b _ => fin w (rolN (widthOf w) (uOf w a) b.toNat : Nat)) s

/-- ROR: a left rotation by the complement (R315). -/
def execRor (o : Ops3) (w : BitVec 2) (s : State) : Res :=
  alu3 o false (fun a b _ => fin w (rolN (widthOf w) (uOf w a) (widthOf w - b.toNat % widthOf w) : Nat)) s

/-- CLZ (R313). -/
def execClz (o : Ops2) (w : BitVec 2) (s : State) : Res :=
  alu2 o (fun a => w64 (clzN (widthOf w) (uOf w a))) s

/-- CTZ (R313). -/
def execCtz (o : Ops2) (w : BitVec 2) (s : State) : Res :=
  alu2 o (fun a => w64 (ctzN (widthOf w) (uOf w a))) s

/-- POPC (R313). -/
def execPopc (o : Ops2) (w : BitVec 2) (s : State) : Res :=
  alu2 o (fun a => w64 (popN (widthOf w) (uOf w a))) s

/-- BREV (R313). -/
def execBrev (o : Ops2) (s : State) : Res :=
  alu2 o (fun a => w64 (revN 64 a.toNat)) s

/-- BSWAP (R313). -/
def execBswap (o : Ops2) (s : State) : Res :=
  alu2 o (fun a => w64 (bswapN 8 a.toNat)) s

/-- SEXT: W gives the source width 8, 16 or 32 (R313). -/
def execSext (o : Ops2) (w : BitVec 2) (s : State) : Res :=
  alu2 o (fun a => if w = 0 then (a.truncate 8).signExtend 64 else if w = 1 then (a.truncate 16).signExtend 64
    else (a.truncate 32).signExtend 64) s

/-- ZEXT (R313). -/
def execZext (o : Ops2) (w : BitVec 2) (s : State) : Res :=
  alu2 o (fun a => if w = 0 then (a.truncate 8).zeroExtend 64 else if w = 1 then (a.truncate 16).zeroExtend 64
    else (a.truncate 32).zeroExtend 64) s

/-- BEXT (R316). -/
def execBext (o : Ops3) (s : State) : Res :=
  alu3 o false (fun a b _ => bextW a b) s

/-- BINS: reads d as the third source (R316). -/
def execBins (o : Ops3) (s : State) : Res :=
  alu3 o true (fun a b d => binsW a b d) s

/-- ADDSC: a + b·2^W (R317). -/
def execAddsc (o : Ops3) (w : BitVec 2) (s : State) : Res :=
  alu3 o false (fun a b _ => a + b * w64 (2 ^ w.toNat)) s

/-- The width of a compare: 00 is 64 bits, 01 is 32 (R318). -/
def cmpWidth (w : BitVec 1) : BitVec 2 := w.zeroExtend 2

/-- CMPEQ (R318). -/
def execCmpeq (o : Ops3) (w : BitVec 1) (s : State) : Res :=
  alu3 o false (fun a b _ => boolWord (decide (uOf (cmpWidth w) a = uOf (cmpWidth w) b))) s

/-- CMPNE (R318). -/
def execCmpne (o : Ops3) (w : BitVec 1) (s : State) : Res :=
  alu3 o false (fun a b _ => boolWord (decide (uOf (cmpWidth w) a ≠ uOf (cmpWidth w) b))) s

/-- CMPLT (R318). -/
def execCmplt (o : Ops3) (w : BitVec 1) (s : State) : Res :=
  alu3 o false (fun a b _ => boolWord (decide (sOf (cmpWidth w) a < sOf (cmpWidth w) b))) s

/-- CMPLTN (R318). -/
def execCmpltn (o : Ops3) (w : BitVec 1) (s : State) : Res :=
  alu3 o false (fun a b _ => boolWord (decide (uOf (cmpWidth w) a < uOf (cmpWidth w) b))) s

/-- CMPLE (R318). -/
def execCmple (o : Ops3) (w : BitVec 1) (s : State) : Res :=
  alu3 o false (fun a b _ => boolWord (decide (sOf (cmpWidth w) a ≤ sOf (cmpWidth w) b))) s

/-- CMPLEN (R318). -/
def execCmplen (o : Ops3) (w : BitVec 1) (s : State) : Res :=
  alu3 o false (fun a b _ => boolWord (decide (uOf (cmpWidth w) a ≤ uOf (cmpWidth w) b))) s

/-- SEL: reads d as its condition (R318). -/
def execSel (o : Ops3) (s : State) : Res :=
  alu3 o true (fun a b d => if d ≠ 0 then a else b) s

/-- A sign-extended immediate (R319). -/
def immS (i : BitVec 15) : Word := i.signExtend 64

/-- A zero-extended immediate (R319). -/
def immZ (i : BitVec 15) : Word := i.zeroExtend 64

/-- ADDI (R319). -/
def execAddi (o : OpsI) (s : State) : Res := aluI o.d o.a o.sa (fun a => a + immS o.imm) s

/-- ANDI (R319). -/
def execAndi (o : OpsI) (s : State) : Res := aluI o.d o.a o.sa (fun a => a &&& immS o.imm) s

/-- ORI (R319). -/
def execOri (o : OpsI) (s : State) : Res := aluI o.d o.a o.sa (fun a => a ||| immZ o.imm) s

/-- XORI (R319). -/
def execXori (o : OpsI) (s : State) : Res := aluI o.d o.a o.sa (fun a => a ^^^ immZ o.imm) s

/-- SHLI (R319). -/
def execShli (o : OpsSh) (s : State) : Res := aluI o.d o.a o.sa (fun a => shlW 0 a o.c.toNat) s

/-- SHRI (R319). -/
def execShri (o : OpsSh) (s : State) : Res := aluI o.d o.a o.sa (fun a => shrW 0 a o.c.toNat) s

/-- SARI (R319). -/
def execSari (o : OpsSh) (s : State) : Res := aluI o.d o.a o.sa (fun a => sarW 0 a o.c.toNat) s

/-- CMPEQI (R319). -/
def execCmpeqi (o : OpsI) (s : State) : Res := aluI o.d o.a o.sa (fun a => boolWord (decide (a = immS o.imm))) s

/-- CMPLTI (R319). -/
def execCmplti (o : OpsI) (s : State) : Res := aluI o.d o.a o.sa (fun a => boolWord (decide (a.toInt < (immS o.imm).toInt))) s

/-- MULI (R319). -/
def execMuli (o : OpsI) (s : State) : Res := aluI o.d o.a o.sa (fun a => BitVec.ofInt 64 (a.toInt * o.imm.toInt)) s

/-- LDI: the sign-extended 32-bit immediate (R320). -/
def execLdi (d : Reg) (imm : BitVec 32) (s : State) : Res :=
  issue s { noDemand with dests := [d.toNat] } noChecks (fun _ sl =>
    .next (s.retire (s.writeG sl d.toNat (imm.signExtend 64))))

/-- LDIH: the immediate above the low half of g[d] (R320). -/
def execLdih (d : Reg) (imm : BitVec 32) (s : State) : Res :=
  issue s { noDemand with d := some d.toNat, dests := [d.toNat] } noChecks (fun v sl =>
    .next (s.retire (s.writeG sl d.toNat (imm ++ (v.d.truncate 32 : BitVec 32)))))

end Sys2Proof.Machine
end

