-- ==== Sys2Proof/Machine/Registers.lean ====
section
/-! DEFINITION. Writes to the supervisor registers that have no instruction of their own: QOVF, PARTCFG, CORECFG, MXMODE,
FABRIC_CFG, SLUICE_CTL, DISPCFG, SYNCRETRY, SEQCFG, CHURN_CFG, CHURN_POOL, MBOX_CTL, the tool tables and TVEC (spec 00
R9, 02 R48, 03 R79, 04 R85, R98, 05 R123, 06 R135, R143, R447, 08 R190, R207, 09 R222, 10 R238). -/

namespace Sys2Proof.Machine

open Sys2Proof

/-- Whether any overflow ring of a die holds a packet (R447). -/
def ringsInUse (s : State) (d : Nat) : Bool :=
  (List.range 128).any (fun g => !(s.cluster (d * 128 + g)).ring.isEmpty)

/-- Whether a value of QOVF[d] places its rings inside the HBM4E of die d (R447). -/
def ringsFit (s : State) (d : Nat) (v : Nat) : Bool :=
  let base := bits v 51 12 * 4096
  let n := bits v 4 0
  if n < 6 || 16 < n then true
  else
    decide (d < dies s.part) && region base == 0 && bits base 47 39 == 0 && bits base 38 36 == d &&
      decide (bits base 35 0 + 64 * 2 ^ n * 128 ≤ 48 * 2 ^ 30)

/-- A write to QOVF[d] (R447). The register of a die that is not populated reads zero (R22). -/
def execQovfWrite (d : Nat) (v : Word) (s : State) : Res :=
  if dies s.part ≤ d || ringsInUse s d then .next s
  else
    let old := (mget s.work.qovf d 0).toNat
    let x := if ringsFit s d v.toNat then bits v.toNat 51 12 * 4096 + bits v.toNat 4 0 else bits old 51 12 * 4096 + 32
    .next (s.setWork { s.work with qovf := mput s.work.qovf d (w64 x) })

/-- Whether a PARTCFG entry is enabled. -/
def partEn (x : Nat) : Bool := bit x 0

/-- Whether the runs of clusters of two PARTCFG entries overlap (R135). -/
def runsOverlap (x y : Nat) : Bool :=
  decide (bits x 31 22 < bits y 31 22 + bits y 21 11) && decide (bits y 31 22 < bits x 31 22 + bits x 21 11)

/-- A write to PARTCFG[n] (R135): ignored while a job of the enabled partition runs; EN stays 0 when the run overlaps
that of another enabled entry. -/
def execPartcfgWrite (n : Nat) (v : Word) (s : State) : Res :=
  let old := (mget s.work.partcfg n 0).toNat
  let busy := partEn old && s.work.jobs.any (fun j => j.2.running && j.2.part == bits old 63 48)
  if 16 ≤ n || busy then .next s
  else
    let w := v.toNat
    let body := bits w 63 48 * 2 ^ 48 + bits w 31 22 * 2 ^ 22 + bits w 21 11 * 2 ^ 11
    let clash := s.work.partcfg.any (fun e => e.1 != n && partEn e.2.toNat && runsOverlap e.2.toNat w)
    .next (s.setWork { s.work with partcfg := mput s.work.partcfg n (w64 (body + b2n (partEn w && !clash))) })

/-- A write to CORECFG through its image (R222): slots may have become free for waiting migrants. -/
def execCorecfgWrite (core : Nat) (v : Word) (s : State) : Res :=
  if isTile s.part core then .next ((writeCorecfg s core v).post (.migrantEntry core)) else .next s

/-- A write to MXMODE through its image (R238). -/
def execMxmodeWrite (core : Nat) (v : Word) (s : State) : Res :=
  if isTile s.part core then .next (writeMxmode s core v) else .next s

/-- Whether SELF lies inside the sizes (R79, R14); the electrical fabric joins modules (0, 0, 0, 0) and (1, 0, 0, 0) alone
(R23). -/
def selfInside (p : Part) (f : Fabric) : Bool :=
  decide (bits f.self 13 9 ≤ f.sx) && decide (bits f.self 8 4 ≤ f.sy) && decide (bits f.self 3 2 ≤ f.sa) &&
    decide (bits f.self 1 0 ≤ f.sb) && (!electrical p || f.self == 0 || f.self == 512)

/-- A write to FABRIC_CFG (R79): the sizes change only while ENABLE is 0, and ENABLE is set only when SELF lies inside
them; otherwise the configuration fault is counted. -/
def execFabricCfgWrite (v : Word) (s : State) : Res :=
  let w := v.toNat
  let f := { s.fabric with markth := bits w 39 32 }
  let f := if f.enable then f else
    { f with sx := bits w 23 19, sy := bits w 18 14, sa := bits w 13 12, sb := bits w 11 10 }
  let bad := bit w 0 && !selfInside s.part f
  let s := s.setFabric { f with enable := bit w 0 && !bad }
  .next (if bad then s.countErr errFabric else s)

/-- A write to SEQCFG (R190): BASE changes only while EN is 0, and names region 0x0 or 0x1. -/
def writeSeqcfg (s : State) (v : Nat) : State :=
  let base := bits v 63 12 * 4096
  let base := if s.agents.seqEn || 2 ^ 52 ≤ base || 1 < region base then s.agents.seqBase else base
  s.setAgents { s.agents with seqBase := base, seqEn := bit v 0 }

/-- A write to CHURN_CFG (R123, R124): OVF is cleared by a 1, and GIVEN is read again. -/
def writeChurnCfg (s : State) (v : Nat) : State :=
  (s.setChurn { s.churn with
    fpool := bits v 51 12, zreg := bits v 11 8, ovf := s.churn.ovf && !bit v 1, en := bit v 0 }).post .freeFramePoll

/-- The fields of a word of the local tool table (R207) and of the remote tool table (R98); reserved bits stay zero (R10). -/
def localToolWord (n : Nat) (v : Word) : Word :=
  w64 (bits v.toNat 63 48 * 2 ^ 48 + (if n = 0 then bits v.toNat 11 0 else bits v.toNat 0 0))
def remoteToolWord (n : Nat) (v : Word) : Word :=
  if n = 3 then w64 (bits v.toNat 63 48 * 2 ^ 48 + bits v.toNat 0 0) else v

/-- A write to a register of the hub without an event of its own (R9). Read-only registers ignore it, and so do the
registers of an absent unit (R22). -/
def execRegisterWrite (r : HubReg) (v : Word) (s : State) : Res :=
  let w := v.toNat
  match r with
  | .sluiceCtl =>
    if s.part != .ny7740 then .next s
    else .next (s.setFabric { s.fabric with berx := bits w 19 16, usrlease := bit w 2, starve := bit w 1, frozen := bit w 0 })
  | .dispcfg => .next (s.setWork { s.work with age := bits w 63 48, predly := bits w 47 32 })
  | .syncretry => .next (s.setMgmt { s.mgmt with syncretry := bits w 7 0 })
  | .seqcfg => .next (writeSeqcfg s w)
  | .churnCfg => .next (writeChurnCfg s w)
  | .churnPool c =>
    if s.churn.en || c < 1 || 3 < c then .next s
    else .next (s.setChurn { s.churn with pools := mput s.churn.pools c (w64 (bits w 61 0)) })
  | .mboxCtl => .next (s.setMboxCtl w)
  | .localTool i n =>
    if s.part == .ny7710 || 4096 ≤ i || 2 ≤ n then .next s
    else .next (s.setAgents { s.agents with localTool := mput s.agents.localTool (2 * i + n) (localToolWord n v) })
  | .remoteTool i n =>
    if s.part == .ny7710 || 1024 ≤ i || 4 ≤ n then .next s
    else .next (s.setAgents { s.agents with remoteTool := mput s.agents.remoteTool (4 * i + n) (remoteToolWord n v) })
  | .tvec core =>
    if isTile s.part core || isDock s.part core || isHubDock core then
      .next (s.setCore core { s.coreAt core with tvec := tvecOf v })
    else .next s
  | .sldir _ | .features | .mboxStat => .next s

end Sys2Proof.Machine
end

