-- ==== Sys2Proof/Machine/Power.lean ====
section
/-! DEFINITION. Power and thermal limits, lifetime counters, the root of trust, reset, and the results of multi-rotation
instructions (spec 01 R16 to R25, 09 R221). -/

namespace Sys2Proof.Machine

open Sys2Proof

/-! ## Power and heat (R18, R19) -/

/-- The dispatch cap one step lower. -/
def lowerCap (s : State) : State := s.setWork { s.work with cap := max 1 (s.work.cap - 1) }

/-- The dispatch cap goes back to 16 slots, all at once, when neither limit holds it down any more (DESIGN CHOICE: R18 and
R19 do not say how it rises, notes/assumptions/27). -/
def liftCap (s : State) : State :=
  if s.mgmt.powerLow || s.mgmt.thermalLow then s else s.setWork { s.work with cap := 16 }

/-- POWER_CAP_CHECK (R18): the average of the last millisecond in watts, which is that millisecond's energy in mJ (R24,
notes/assumptions/27). New copy streams and matrix streams that have not started are held while `powerLow` is set. -/
def execPowerCapCheck (average : Nat) (s : State) : Res :=
  let s := s.countLife lifeEnergy 64 average
  if s.mgmt.powerCap < average then .next (lowerCap (s.setMgmt { s.mgmt with powerLow := true }))
  else if average < s.mgmt.powerCap then .next (liftCap (s.setMgmt { s.mgmt with powerLow := false }))
  else .next (if s.mgmt.powerLow then lowerCap s else s)

/-- The hottest die and its temperature in 1/8 °C. -/
def hottest (m : Map Nat) : Nat × Nat := m.foldl (fun b x => if b.2 < x.2 then x else b) (0, 0)

/-- Records a die's junction temperature. -/
def State.setTemp (s : State) (die temp : Nat) : State :=
  s.setMgmt { s.mgmt with temps := mput s.mgmt.temps die temp }

/-- THERMAL_WARNING: a reading of a die's sensors, in 1/8 °C (R19). From 95 °C the host is told and the cap lowered; it is
lowered further, a step at each reading, until the highest temperature falls below 92 °C. -/
def execThermalWarning (die temp : Nat) (s : State) : Res :=
  let s := s.setTemp die temp
  let h := hottest s.mgmt.temps
  if s.mgmt.thermalLow then
    if h.2 < 736 then .next (liftCap (s.setMgmt { s.mgmt with thermalLow := false })) else .next (lowerCap s)
  else if h.2 < 760 then .next s
  else .next ((lowerCap (s.setMgmt { s.mgmt with thermalLow := true })).event 7 0 (w64 (h.1 % 16)) (w64 (h.2 % 65536)) 0 0)

/-- The partitions present on the module. -/
def activeParts (s : State) : List Nat :=
  (s.work.partcfg.filter (fun x => bit x.2.toNat 0)).map (fun x => bits x.2.toNat 63 48)

/-- FATAL_THERMAL: a reading, in 1/8 °C (R19, R88). From 110 °C every partition is gang-stopped, the fatal notice is queued
and vector 1 raised; only a reset lifts it. -/
def execFatalThermal (die temp : Nat) (s : State) : Res :=
  let s := s.setTemp die temp
  let h := hottest s.mgmt.temps
  if h.2 < 880 then .next s
  else
    let s := (activeParts s).foldl State.fatalStop s
    let s := s.setHost { s.host with fatal := true }
    .next ((s.event 8 0 (w64 (h.1 % 16)) (w64 (h.2 % 65536)) 0 0).irq 1)

/-! ## Lifetime counters (R24, R25) -/

/-- The volatile increments go to the non-volatile store, saturating. -/
def flushCounters (m : Mgmt) : Mgmt :=
  { m with
    stored := m.counters.foldl (fun st x => mput st x.1 (min (mget st x.1 0 + x.2) (2 ^ lifeWidth x.1 - 1))) m.stored,
    counters := [] }

/-- COUNTER_FLUSH (R25), every 10 minutes. -/
def execCounterFlush (s : State) : Res := .next (s.setMgmt (flushCounters s.mgmt))

/-- ORDERLY_SHUTDOWN (R25). -/
def execOrderlyShutdown (s : State) : Res := .next (s.setMgmt (flushCounters s.mgmt))

/-- MCTP_COUNTER_READ (R25): the stored values plus the increments, with the STAMP of the snapshot. -/
def execMctpCounterRead (s : State) : Res := .next (s.emit (.mctp s.now (counterSnapshot s)))

/-- The temperature bin of R24: 5 °C each from 40 °C, the last open-ended. -/
def tempBin (temp : Nat) : Option Nat := if temp < 320 then none else some (min ((temp - 320) / 40) 15)

/-- SECONDS_SPENT (R24): a second passes for each die at its temperature in 1/8 °C, and for each lane slot in the
bit-error-rate bin given; 8 says that the slot carries nothing. -/
def execSecondsSpent (temps bers : List Nat) (s : State) : Res :=
  let s := (temps.zipIdx).foldl (fun (s : State) (x : Nat × Nat) => match tempBin x.1 with
    | none => s
    | some b => s.countLife (lifeTemp + x.2 * 16 + b) 40 1) s
  .next ((bers.zipIdx).foldl (fun (s : State) (x : Nat × Nat) =>
    if x.1 < 8 then s.countLife (lifeOptical + x.2 * 16 + x.1) 40 1 else s) s)

/-- ECC has found an error in a bank of a channel: HBM4E channel 32·die + slice, LPDDR 6 channel 256 + n, weight-store bank
group 288 + 16·die + g (R24, notes/assumptions/87). -/
def execEccError (channel bank : Nat) (corrected : Bool) (s : State) : Res :=
  if 416 ≤ channel || 64 ≤ bank then .next s
  else .next (s.countLife (lifeEcc + (channel * 64 + bank) * 2 + b2n !corrected) 48 1)

/-! ## Reset and the root of trust (R16, R20) -/

/-- The module as it stands when reset is released: STAMP zero, everything at its reset value; what the non-volatile
store, the part and the chassis hold stays, and an accepted firmware image takes effect. -/
def freshState (s : State) (m : Mgmt) : State :=
  { State.reset with
    part := s.part,
    sched := { Sched.reset with free := s.sched.free, out := s.sched.out },
    fabric := { Fabric.reset with self := s.fabric.self },
    mgmt := { Mgmt.reset with
      step := m.step, serial := m.serial, stored := m.stored, counters := m.counters,
      fwVersion := if m.nextFw.isSome then Config.freeWord Config.useAbsent s.sched.free else m.fwVersion } }

/-- Extends a digest into a measurement register: SHA-512 over the register and the digest (R20; notes/assumptions/26). -/
def extendMeasure (m : Map (BitVec 512)) (i : Nat) (digest : BitVec 512) : Map (BitVec 512) :=
  mput m i (Config.sha512 (natBytes 64 (mget m i 0).toNat ++ natBytes 64 digest.toNat))

/-- POWER_ON: the outcome of the verification of the firmware stages, and the digests of the stages that ran, the n-th
extended into register n mod 8 (R20). A failed verification halts the boot; otherwise JOBSTART is accepted from then on, and
the messages that waited are taken (R84, R82). -/
def execPowerOn (verified : Bool) (digests : List (BitVec 512)) (s : State) : Res :=
  let measure := digests.zipIdx.foldl (fun m x => extendMeasure m (x.2 % 8) x.1) s.mgmt.measure
  .next (((s.setMgmt { s.mgmt with measure := measure, booted := verified, bootFailed := !verified }).setHost
    { s.host with ready := verified }).postHead)

/-- MODULE_RESET (R16, R25): the counters are written to the store, and the module starts anew. -/
def execModuleReset (s : State) : Res := .next (freshState s (flushCounters s.mgmt))

/-- POWER_LOSS (R25): the increments since the last write are lost. -/
def execPowerLoss (s : State) : Res := .next (freshState s { s.mgmt with counters := [] })

/-! ## Multi-rotation results (R221) -/

/-- Writes the results of a slot that are due on a cycle. -/
def Slot.writeDue (sl : Slot) (now : Nat) : Slot :=
  let due := sl.late.filter (fun l => decide (l.due ≤ now))
  { (due.foldl (fun a l => a.setG l.reg l.val) sl) with late := sl.late.filter (fun l => !decide (l.due ≤ now)) }

/-- MULTI_ROTATION_RESULT (R221). -/
def execMultiRotationResult (id : SlotId) (s : State) : Res := .next (s.setSlot id ((s.slotAt id).writeDue s.now))

end Sys2Proof.Machine
end

