-- ==== Sys2Proof/Machine/Vector.lean ====
section
/-! DEFINITION. Vector instructions: majors 0x24 to 0x27 (spec 15 R364 to R372). -/

namespace Sys2Proof.Machine

open Sys2Proof

/-! ## Arithmetic (R364) -/

/-- VADD. -/
def execVadd (v : V2) (ty : BitVec 4) (s : State) : Res :=
  map2 v (elemW ty) 1 (arithE ty (FVal.add 0) (· + ·)) s

/-- VSUB. -/
def execVsub (v : V2) (ty : BitVec 4) (s : State) : Res :=
  map2 v (elemW ty) 1 (arithE ty (fun a b => a.add 0 b.neg) (· - ·)) s

/-- VMUL. -/
def execVmul (v : V2) (ty : BitVec 4) (s : State) : Res :=
  map2 v (elemW ty) 1 (arithE ty FVal.mul (· * ·)) s

/-- VFMA: rounded once. -/
def execVfma (v : V3) (ty : BitVec 4) (s : State) : Res :=
  map3 v (elemW ty) 1 (fun a b c =>
    if isFloatTy ty then (vfmt ty).enc 0 ((((vfmt ty).val a).mul ((vfmt ty).val b)).add 0 ((vfmt ty).val c))
    else wrapE (elemW ty) (ielem ty a * ielem ty b + ielem ty c)) s

/-- VMIN. -/
def execVmin (v : V2) (ty : BitVec 4) (s : State) : Res := map2 v (elemW ty) 1 (minmaxE ty false) s

/-- VMAX. -/
def execVmax (v : V2) (ty : BitVec 4) (s : State) : Res := map2 v (elemW ty) 1 (minmaxE ty true) s

/-- VABS. -/
def execVabs (v : V1) (ty : BitVec 4) (s : State) : Res :=
  map1 v (elemW ty) 1 (fun a =>
    if isFloatTy ty then a % signE ty else wrapE (elemW ty) ((ielem ty a).natAbs : Nat)) s

/-- VNEG. -/
def execVneg (v : V1) (ty : BitVec 4) (s : State) : Res :=
  map1 v (elemW ty) 1 (fun a =>
    if isFloatTy ty then (a + signE ty) % 2 ^ (8 * elemW ty) else wrapE (elemW ty) (-(ielem ty a))) s

/-- VADD.sat. -/
def execVaddSat (v : V2) (ty : BitVec 4) (s : State) : Res :=
  map2 v (elemW ty) 1 (fun a b => clampE ty (ielem ty a + ielem ty b)) s

/-- VSUB.sat. -/
def execVsubSat (v : V2) (ty : BitVec 4) (s : State) : Res :=
  map2 v (elemW ty) 1 (fun a b => clampE ty (ielem ty a - ielem ty b)) s

/-! ## Logic, shift, compare, select (R365) -/

/-- VAND. -/
def execVand (v : V2) (s : State) : Res := map2 v 4 1 (· &&& ·) s

/-- VOR. -/
def execVor (v : V2) (s : State) : Res := map2 v 4 1 (· ||| ·) s

/-- VXOR. -/
def execVxor (v : V2) (s : State) : Res := map2 v 4 1 (· ^^^ ·) s

/-- VSHL, row form. -/
def execVshl (v : V2) (ty : BitVec 4) (s : State) : Res := map2 v (elemW ty) 1 (shlE ty) s

/-- VSHR, row form. -/
def execVshr (v : V2) (ty : BitVec 4) (s : State) : Res := map2 v (elemW ty) 1 (shrE ty) s

/-- VSHL, scalar form. -/
def execVshlS (v : V1) (ty : BitVec 4) (g : Reg) (s : State) : Res :=
  mapS v g (elemW ty) 1 (fun a x => shlE ty a x.toNat) s

/-- VSHR, scalar form. -/
def execVshrS (v : V1) (ty : BitVec 4) (g : Reg) (s : State) : Res :=
  mapS v g (elemW ty) 1 (fun a x => shrE ty a x.toNat) s

/-- VCMP.EQ. -/
def execVcmpEq (v : V2) (ty : BitVec 4) (s : State) : Res :=
  map2 v (elemW ty) 1 (fun a b => maskE ty (cmpE ty (fun c => c == .eq) a b)) s

/-- VCMP.NE: all ones if not (a = b). -/
def execVcmpNe (v : V2) (ty : BitVec 4) (s : State) : Res :=
  map2 v (elemW ty) 1 (fun a b => maskE ty (!cmpE ty (fun c => c == .eq) a b)) s

/-- VCMP.LT. -/
def execVcmpLt (v : V2) (ty : BitVec 4) (s : State) : Res :=
  map2 v (elemW ty) 1 (fun a b => maskE ty (cmpE ty (fun c => c == .lt) a b)) s

/-- VCMP.LE. -/
def execVcmpLe (v : V2) (ty : BitVec 4) (s : State) : Res :=
  map2 v (elemW ty) 1 (fun a b => maskE ty (cmpE ty (fun c => c != .gt) a b)) s

/-- VCMP.UN. -/
def execVcmpUn (v : V2) (ty : BitVec 4) (s : State) : Res :=
  map2 v (elemW ty) 1 (fun a b => maskE ty (((vfmt ty).val a).isNan || ((vfmt ty).val b).isNan)) s

/-- VSEL. -/
def execVsel (v : V3) (ty : BitVec 4) (s : State) : Res :=
  map3 v (elemW ty) 1 (fun a b c => if c != 0 then a else b) s

/-! ## Conversion, table, scale (R366 to R368) -/

/-- VCVT: part k widened to f32, or f32 narrowed into part k (R366). -/
def execVcvt (v : V1) (ty : BitVec 4) (narrow : Bool) (k : BitVec 2) (s : State) : Res :=
  let w := elemW ty
  if narrow then
    vecForm (.part (v.pd, v.sd) (16 * w * k.toNat)) [(v.pa, v.sa)] none 1 (fun _ => none)
      (fun _ rs _ => rowOfElems w ((rowElems 4 (rs.getD 0 [])).map (fromF32 ty))) s
  else
    vecForm (.row (v.pd, v.sd)) [(v.pa, v.sa)] none 1 (fun _ => none)
      (fun _ rs _ => rowOfElems 4 ((elems w 16 ((rs.getD 0 []).drop (16 * w * k.toNat))).map (toF32 ty))) s

/-- The code width of a table type: .t4, .t6, .t8 (R299). -/
def tblWidth (ty : BitVec 4) : Nat := if ty = 12 then 4 else if ty = 13 then 6 else 8

/-- The trap of a task without a table of the instruction's width (R367). -/
def tblTrap (ty : BitVec 4) (s : State) : Option Trap :=
  match s.taskTable s.me.task with
  | none => some s.badOperand
  | some t => if tblWid t != tblWidth ty then some s.badOperand else none

/-- The 16 codes of part k (R367). -/
def partCodes (ty : BitVec 4) (k : Nat) (row : List Byte) : List Nat :=
  if ty = 12 then ((row.drop (8 * k)).take 8).flatMap (fun b => [b.toNat % 16, b.toNat / 16])
  else ((row.drop (16 * k)).take 16).map (fun b => if ty = 13 then b.toNat % 64 else b.toNat)

/-- Pairs of nibbles as bytes. -/
def nibbles : List Nat → List Byte
  | a :: b :: l => BitVec.ofNat 8 (a % 16 + 16 * b) :: nibbles l
  | _ => []

/-- VDEC (R367). -/
def execVdec (v : V1) (ty : BitVec 4) (k : BitVec 3) (s : State) : Res :=
  vecForm (.row (v.pd, v.sd)) [(v.pa, v.sa)] none 2 (tblTrap ty)
    (fun s rs _ => rowOfElems 4 ((partCodes ty k.toNat (rs.getD 0 [])).map (tblDecode ((s.taskTable s.me.task).getD [])))) s

/-- VENC (R367, R257). -/
def execVenc (v : V1) (ty : BitVec 4) (k : BitVec 3) (s : State) : Res :=
  vecForm (.part (v.pd, v.sd) ((if ty = 12 then 8 else 16) * k.toNat)) [(v.pa, v.sa)] none 4 (tblTrap ty)
    (fun s rs _ =>
      let cs := (rowElems 4 (rs.getD 0 [])).map (fun x => tblEncode ((s.taskTable s.me.task).getD []) (fmtF32.val x))
      if ty = 12 then nibbles cs else cs.map (BitVec.ofNat 8)) s

/-- VSCL (R368). -/
def execVscl (v : V1) (ty : BitVec 4) (g : Reg) (s : State) : Res :=
  mapS v g (elemW ty) 1 (fun a x => (vfmt ty).enc 0 (((vfmt ty).val a).mul (fmtF32.val (x.toNat % 2 ^ 32)))) s

/-! ## Reduction, approximation, move, permutation (R369 to R372) -/

/-- VSUM. -/
def execVsum (v : VS) (ty : BitVec 4) (s : State) : Res := reduce v (elemW ty) 2 (vsumE ty) s

/-- VMAXR. -/
def execVmaxr (v : VS) (ty : BitVec 4) (s : State) : Res := reduce v (elemW ty) 2 (vmaxE ty) s

/-- VEXP. -/
def execVexp (v : V1) (s : State) : Res := map1 v 4 4 vexpE s

/-- VRCP. -/
def execVrcp (v : V1) (s : State) : Res := map1 v 4 4 vrcpE s

/-- VRSQ. -/
def execVrsq (v : V1) (s : State) : Res := map1 v 4 4 vrsqE s

/-- VBCST. -/
def execVbcst (pd : Ptr) (sd : Bool) (ty : BitVec 4) (g : Reg) (s : State) : Res :=
  vecForm (.row (pd, sd)) [] (some g) 1 (fun _ => none)
    (fun _ _ x => rowOfElems (elemW ty) (List.replicate (64 / elemW ty) x.toNat)) s

/-- VMOV. -/
def execVmov (v : V1) (s : State) : Res := map1 v 4 1 id s

/-- VPERM: a[b[i] mod n]. -/
def execVperm (v : V2) (ty : BitVec 4) (s : State) : Res :=
  let w := elemW ty
  vecForm (.row (v.pd, v.sd)) [(v.pa, v.sa), (v.pb, v.sb)] none 2 (fun _ => none)
    (fun _ rs _ =>
      let a := rowElems w (rs.getD 0 [])
      rowOfElems w ((rowElems w (rs.getD 1 [])).map (fun i => a.getD (i % (64 / w)) 0))) s

/-- The wide type of a narrow one (R372). -/
def wideTy (ty : BitVec 4) : BitVec 4 := if isFloatTy ty then 10 else ty + 1

/-- VPACK: two rows of the wide type into one of the narrow. -/
def execVpack (v : V2) (ty : BitVec 4) (s : State) : Res :=
  let w := elemW ty
  let narrow (x : Nat) : Nat := if isFloatTy ty then (vfmt ty).enc 0 (fmtF32.val x) else clampE ty (ielem (wideTy ty) x)
  vecForm (.row (v.pd, v.sd)) [(v.pa, v.sa), (v.pb, v.sb)] none 1 (fun _ => none)
    (fun _ rs _ => rowOfElems w ((rowElems (2 * w) (rs.getD 0 []) ++ rowElems (2 * w) (rs.getD 1 [])).map narrow)) s

/-- One half of a row widened (R372). -/
def unpack (v : V1) (ty : BitVec 4) (hi : Bool) (s : State) : Res :=
  let w := elemW ty
  let wide (x : Nat) : Nat := if isFloatTy ty then toF32 ty x else wrapE (2 * w) (ielem ty x)
  vecForm (.row (v.pd, v.sd)) [(v.pa, v.sa)] none 1 (fun _ => none)
    (fun _ rs _ => rowOfElems (2 * w) ((elems w (32 / w) ((rs.getD 0 []).drop (if hi then 32 else 0))).map wide)) s

/-- VUNPACK.lo. -/
def execVunpackLo (v : V1) (ty : BitVec 4) (s : State) : Res := unpack v ty false s

/-- VUNPACK.hi. -/
def execVunpackHi (v : V1) (ty : BitVec 4) (s : State) : Res := unpack v ty true s

/-- VMASK. -/
def execVmask (v : VS) (ty : BitVec 4) (s : State) : Res :=
  reduce v (elemW ty) 1 (fun l => w64 ((List.range l.length).foldl (fun t i => t + (if l.getD i 0 != 0 then 2 ^ i else 0)) 0)) s

end Sys2Proof.Machine
end

