-- ==== Sys2Proof/Machine/Dispatch.lean ====
section
/-! DEFINITION. The meaning of each instruction, stream command and event: one arm for each constructor of Instr. -/

namespace Sys2Proof.Machine

open Sys2Proof

/-- The effect of one instruction, command or event. -/
def exec (i : Instr) (s : State) : Host.Outcome State Fault Refusal :=
  match i with
  | .nop => Sys2Proof.Machine.execNop s
  | .trap n a => Sys2Proof.Machine.execTrap n a s
  | .bkpt => Sys2Proof.Machine.execBkpt s
  | .stamp d => Sys2Proof.Machine.execStamp d s
  | .feat d sel => Sys2Proof.Machine.execFeat d sel s
  | .impl d sel => Sys2Proof.Machine.execImpl d sel s
  | .srr d n => Sys2Proof.Machine.execSrr d n s
  | .add o w => Sys2Proof.Machine.execAdd o w s
  | .sub o w => Sys2Proof.Machine.execSub o w s
  | .mul o w => Sys2Proof.Machine.execMul o w s
  | .mulh o w => Sys2Proof.Machine.execMulh o w s
  | .mulhn o w => Sys2Proof.Machine.execMulhn o w s
  | .madd o w => Sys2Proof.Machine.execMadd o w s
  | .div o w => Sys2Proof.Machine.execDiv o w s
  | .divn o w => Sys2Proof.Machine.execDivn o w s
  | .rem o w => Sys2Proof.Machine.execRem o w s
  | .remn o w => Sys2Proof.Machine.execRemn o w s
  | .min o w => Sys2Proof.Machine.execMin o w s
  | .max o w => Sys2Proof.Machine.execMax o w s
  | .minn o w => Sys2Proof.Machine.execMinn o w s
  | .maxn o w => Sys2Proof.Machine.execMaxn o w s
  | .abs o w => Sys2Proof.Machine.execAbs o w s
  | .and o => Sys2Proof.Machine.execAnd o s
  | .or o => Sys2Proof.Machine.execOr o s
  | .xor o => Sys2Proof.Machine.execXor o s
  | .andn o => Sys2Proof.Machine.execAndn o s
  | .orn o => Sys2Proof.Machine.execOrn o s
  | .xnor o => Sys2Proof.Machine.execXnor o s
  | .shl o w => Sys2Proof.Machine.execShl o w s
  | .shr o w => Sys2Proof.Machine.execShr o w s
  | .sar o w => Sys2Proof.Machine.execSar o w s
  | .rol o w => Sys2Proof.Machine.execRol o w s
  | .ror o w => Sys2Proof.Machine.execRor o w s
  | .clz o w => Sys2Proof.Machine.execClz o w s
  | .ctz o w => Sys2Proof.Machine.execCtz o w s
  | .popc o w => Sys2Proof.Machine.execPopc o w s
  | .brev o => Sys2Proof.Machine.execBrev o s
  | .bswap o => Sys2Proof.Machine.execBswap o s
  | .sext o w => Sys2Proof.Machine.execSext o w s
  | .zext o w => Sys2Proof.Machine.execZext o w s
  | .bext o => Sys2Proof.Machine.execBext o s
  | .bins o => Sys2Proof.Machine.execBins o s
  | .addsc o w => Sys2Proof.Machine.execAddsc o w s
  | .cmpeq o w => Sys2Proof.Machine.execCmpeq o w s
  | .cmpne o w => Sys2Proof.Machine.execCmpne o w s
  | .cmplt o w => Sys2Proof.Machine.execCmplt o w s
  | .cmpltn o w => Sys2Proof.Machine.execCmpltn o w s
  | .cmple o w => Sys2Proof.Machine.execCmple o w s
  | .cmplen o w => Sys2Proof.Machine.execCmplen o w s
  | .sel o => Sys2Proof.Machine.execSel o s
  | .addi o => Sys2Proof.Machine.execAddi o s
  | .andi o => Sys2Proof.Machine.execAndi o s
  | .ori o => Sys2Proof.Machine.execOri o s
  | .xori o => Sys2Proof.Machine.execXori o s
  | .shli o => Sys2Proof.Machine.execShli o s
  | .shri o => Sys2Proof.Machine.execShri o s
  | .sari o => Sys2Proof.Machine.execSari o s
  | .cmpeqi o => Sys2Proof.Machine.execCmpeqi o s
  | .cmplti o => Sys2Proof.Machine.execCmplti o s
  | .muli o => Sys2Proof.Machine.execMuli o s
  | .ldi d imm => Sys2Proof.Machine.execLdi d imm s
  | .ldih d imm => Sys2Proof.Machine.execLdih d imm s
  | .fadd o rm f => Sys2Proof.Machine.execFadd o rm f s
  | .fsub o rm f => Sys2Proof.Machine.execFsub o rm f s
  | .fmul o rm f => Sys2Proof.Machine.execFmul o rm f s
  | .ffma o rm f => Sys2Proof.Machine.execFfma o rm f s
  | .fmin o f => Sys2Proof.Machine.execFmin o f s
  | .fmax o f => Sys2Proof.Machine.execFmax o f s
  | .fdiv o rm f => Sys2Proof.Machine.execFdiv o rm f s
  | .fsqrt o rm f => Sys2Proof.Machine.execFsqrt o rm f s
  | .fabs o f => Sys2Proof.Machine.execFabs o f s
  | .fneg o f => Sys2Proof.Machine.execFneg o f s
  | .fcpys o f => Sys2Proof.Machine.execFcpys o f s
  | .fcmpeq o f => Sys2Proof.Machine.execFcmpeq o f s
  | .fcmplt o f => Sys2Proof.Machine.execFcmplt o f s
  | .fcmple o f => Sys2Proof.Machine.execFcmple o f s
  | .fcmpun o f => Sys2Proof.Machine.execFcmpun o f s
  | .fclass o f => Sys2Proof.Machine.execFclass o f s
  | .fcvt o x rm f => Sys2Proof.Machine.execFcvt o x rm f s
  | .fcvti o x rm f => Sys2Proof.Machine.execFcvti o x rm f s
  | .icvtf o x rm f => Sys2Proof.Machine.execIcvtf o x rm f s
  | .frnd o rm f => Sys2Proof.Machine.execFrnd o rm f s
  | .br disp => Sys2Proof.Machine.execBr disp s
  | .call d disp => Sys2Proof.Machine.execCall d disp s
  | .brz a disp => Sys2Proof.Machine.execBrz a disp s
  | .brnz a disp => Sys2Proof.Machine.execBrnz a disp s
  | .brltz a disp => Sys2Proof.Machine.execBrltz a disp s
  | .brgez a disp => Sys2Proof.Machine.execBrgez a disp s
  | .brbit a bit disp => Sys2Proof.Machine.execBrbit a bit disp s
  | .jmp o => Sys2Proof.Machine.execJmp o s
  | .nest o => Sys2Proof.Machine.execNest o s
  | .iter d n => Sys2Proof.Machine.execIter d n s
  | .ld d base sb func3 disp => Sys2Proof.Machine.execLd d base sb func3 disp s
  | .ldx d base sb b => Sys2Proof.Machine.execLdx d base sb b s
  | .st d base sb size disp => Sys2Proof.Machine.execSt d base sb size disp s
  | .stx d base sb b => Sys2Proof.Machine.execStx d base sb b s
  | .ldf o => Sys2Proof.Machine.execLdf o s
  | .stf o => Sys2Proof.Machine.execStf o s
  | .tagr o => Sys2Proof.Machine.execTagr o s
  | .tagwE a sa => Sys2Proof.Machine.execTagwE a sa s
  | .tagwF a sa => Sys2Proof.Machine.execTagwF a sa s
  | .ldacq o scope => Sys2Proof.Machine.execLdacq o scope s
  | .strel o scope => Sys2Proof.Machine.execStrel o scope s
  | .std o size => Sys2Proof.Machine.execStd o size s
  | .home => Sys2Proof.Machine.execHome s
  | .visit a sa => Sys2Proof.Machine.execVisit a sa s
  | .amo o aop width => Sys2Proof.Machine.execAmo o aop width s
  | .cas o => Sys2Proof.Machine.execCas o s
  | .cas2 o => Sys2Proof.Machine.execCas2 o s
  | .red o op ty => Sys2Proof.Machine.execRed o op ty s
  | .fence kind scope => Sys2Proof.Machine.execFence kind scope s
  | .promote a sa => Sys2Proof.Machine.execPromote a sa s
  | .phase o => Sys2Proof.Machine.execPhase o s
  | .ackw scope => Sys2Proof.Machine.execAckw scope s
  | .barjoin o => Sys2Proof.Machine.execBarjoin o s
  | .barleave o => Sys2Proof.Machine.execBarleave o s
  | .bararr o scope => Sys2Proof.Machine.execBararr o scope s
  | .bararn o scope => Sys2Proof.Machine.execBararn o scope s
  | .lds o => Sys2Proof.Machine.execLds o s
  | .ldsN o => Sys2Proof.Machine.execLdsN o s
  | .sts o => Sys2Proof.Machine.execSts o s
  | .ldbit d sx step p len => Sys2Proof.Machine.execLdbit d sx step p len s
  | .stbit d step p len => Sys2Proof.Machine.execStbit d step p len s
  | .pset d p => Sys2Proof.Machine.execPset d p s
  | .pget d p => Sys2Proof.Machine.execPget d p s
  | .rowtagR d base sb => Sys2Proof.Machine.execRowtagR d base sb s
  | .rowtagF base sb => Sys2Proof.Machine.execRowtagF base sb s
  | .rowtagE base sb => Sys2Proof.Machine.execRowtagE base sb s
  | .rowtagC base sb => Sys2Proof.Machine.execRowtagC base sb s
  | .vadd v ty => Sys2Proof.Machine.execVadd v ty s
  | .vsub v ty => Sys2Proof.Machine.execVsub v ty s
  | .vmul v ty => Sys2Proof.Machine.execVmul v ty s
  | .vfma v ty => Sys2Proof.Machine.execVfma v ty s
  | .vmin v ty => Sys2Proof.Machine.execVmin v ty s
  | .vmax v ty => Sys2Proof.Machine.execVmax v ty s
  | .vabs v ty => Sys2Proof.Machine.execVabs v ty s
  | .vneg v ty => Sys2Proof.Machine.execVneg v ty s
  | .vaddSat v ty => Sys2Proof.Machine.execVaddSat v ty s
  | .vsubSat v ty => Sys2Proof.Machine.execVsubSat v ty s
  | .vand v => Sys2Proof.Machine.execVand v s
  | .vor v => Sys2Proof.Machine.execVor v s
  | .vxor v => Sys2Proof.Machine.execVxor v s
  | .vshl v ty => Sys2Proof.Machine.execVshl v ty s
  | .vshr v ty => Sys2Proof.Machine.execVshr v ty s
  | .vshlS v ty g => Sys2Proof.Machine.execVshlS v ty g s
  | .vshrS v ty g => Sys2Proof.Machine.execVshrS v ty g s
  | .vcmpEq v ty => Sys2Proof.Machine.execVcmpEq v ty s
  | .vcmpNe v ty => Sys2Proof.Machine.execVcmpNe v ty s
  | .vcmpLt v ty => Sys2Proof.Machine.execVcmpLt v ty s
  | .vcmpLe v ty => Sys2Proof.Machine.execVcmpLe v ty s
  | .vcmpUn v ty => Sys2Proof.Machine.execVcmpUn v ty s
  | .vsel v ty => Sys2Proof.Machine.execVsel v ty s
  | .vcvt v ty narrow k => Sys2Proof.Machine.execVcvt v ty narrow k s
  | .vdec v ty k => Sys2Proof.Machine.execVdec v ty k s
  | .venc v ty k => Sys2Proof.Machine.execVenc v ty k s
  | .vscl v ty g => Sys2Proof.Machine.execVscl v ty g s
  | .vsum v ty => Sys2Proof.Machine.execVsum v ty s
  | .vmaxr v ty => Sys2Proof.Machine.execVmaxr v ty s
  | .vexp v => Sys2Proof.Machine.execVexp v s
  | .vrcp v => Sys2Proof.Machine.execVrcp v s
  | .vrsq v => Sys2Proof.Machine.execVrsq v s
  | .vbcst pd sd ty g => Sys2Proof.Machine.execVbcst pd sd ty g s
  | .vmov v => Sys2Proof.Machine.execVmov v s
  | .vperm v ty => Sys2Proof.Machine.execVperm v ty s
  | .vpack v ty => Sys2Proof.Machine.execVpack v ty s
  | .vunpackLo v ty => Sys2Proof.Machine.execVunpackLo v ty s
  | .vunpackHi v ty => Sys2Proof.Machine.execVunpackHi v ty s
  | .vmask v ty => Sys2Proof.Machine.execVmask v ty s
  | .movqPush g q stampv func => Sys2Proof.Machine.execMovqPush g q stampv func s
  | .movqPop g q func => Sys2Proof.Machine.execMovqPop g q func s
  | .quit => Sys2Proof.Machine.execQuit s
  | .spawn d a b sa => Sys2Proof.Machine.execSpawn d a b sa s
  | .spawnw d a b sa => Sys2Proof.Machine.execSpawnw d a b sa s
  | .post o => Sys2Proof.Machine.execPost o s
  | .launch o => Sys2Proof.Machine.execLaunch o s
  | .graph o => Sys2Proof.Machine.execGraph o s
  | .cancel o => Sys2Proof.Machine.execCancel o s
  | .joinw o => Sys2Proof.Machine.execJoinw o s
  | .send a b sa => Sys2Proof.Machine.execSend a b sa s
  | .recv d => Sys2Proof.Machine.execRecv d s
  | .recvp d b sb => Sys2Proof.Machine.execRecvp d b sb s
  | .vtkey d => Sys2Proof.Machine.execVtkey d s
  | .levee d => Sys2Proof.Machine.execLevee d s
  | .irrev a => Sys2Proof.Machine.execIrrev a s
  | .sendvt d a b sa => Sys2Proof.Machine.execSendvt d a b sa s
  | .callt o => Sys2Proof.Machine.execCallt o s
  | .waitf o => Sys2Proof.Machine.execWaitf o s
  | .pollf o => Sys2Proof.Machine.execPollf o s
  | .canf o => Sys2Proof.Machine.execCanf o s
  | .tokc o => Sys2Proof.Machine.execTokc o s
  | .tokenc o => Sys2Proof.Machine.execTokenc o s
  | .tokdec o => Sys2Proof.Machine.execTokdec o s
  | .maskq o => Sys2Proof.Machine.execMaskq o s
  | .lease o => Sys2Proof.Machine.execLease o s
  | .leaserel o => Sys2Proof.Machine.execLeaserel o s
  | .leaseq o => Sys2Proof.Machine.execLeaseq o s
  | .eret => Sys2Proof.Machine.execEret s
  | .srw d n => Sys2Proof.Machine.execSrw d n s
  | .tlbiPage o scope => Sys2Proof.Machine.execTlbiPage o scope s
  | .tlbiJob b sb scope => Sys2Proof.Machine.execTlbiJob b sb scope s
  | .tlbiAll scope => Sys2Proof.Machine.execTlbiAll scope s
  | .wsopen o => Sys2Proof.Machine.execWsopen o s
  | .wsclose o => Sys2Proof.Machine.execWsclose o s
  | .keykill o => Sys2Proof.Machine.execKeykill o s
  | .haltgStop d => Sys2Proof.Machine.execHaltgStop d s
  | .haltgStopl o => Sys2Proof.Machine.execHaltgStopl o s
  | .haltgResume d => Sys2Proof.Machine.execHaltgResume d s
  | .keySweepDone key => Sys2Proof.Machine.execKeySweepDone key s
  | .tlbiComplete id => Sys2Proof.Machine.execTlbiComplete id s
  | .mmnop stampv => Sys2Proof.Machine.execMmnop stampv s
  | .mma stampv o => Sys2Proof.Machine.execMma stampv o s
  | .mmaz stampv o => Sys2Proof.Machine.execMmaz stampv o s
  | .mmst stampv o => Sys2Proof.Machine.execMmst stampv o s
  | .mmld stampv o => Sys2Proof.Machine.execMmld stampv o s
  | .mmz stampv tile => Sys2Proof.Machine.execMmz stampv tile s
  | .mmwait stampv core row full => Sys2Proof.Machine.execMmwait stampv core row full s
  | .mmwaitMatch core => Sys2Proof.Machine.execMmwaitMatch core s
  | .mmsig stampv val => Sys2Proof.Machine.execMmsig stampv val s
  | .mmend stampv => Sys2Proof.Machine.execMmend stampv s
  | .cpnop => Sys2Proof.Machine.execCpnop s
  | .cpget o => Sys2Proof.Machine.execCpget o s
  | .cpput o => Sys2Proof.Machine.execCpput o s
  | .cpmc o => Sys2Proof.Machine.execCpmc o s
  | .cpws o => Sys2Proof.Machine.execCpws o s
  | .cpww o => Sys2Proof.Machine.execCpww o s
  | .cpfill core row nrow pat => Sys2Proof.Machine.execCpfill core row nrow pat s
  | .cptag core row nrow act => Sys2Proof.Machine.execCptag core row nrow act s
  | .cpwait core row full => Sys2Proof.Machine.execCpwait core row full s
  | .cpwaitMatch cluster sid => Sys2Proof.Machine.execCpwaitMatch cluster sid s
  | .cpsig val => Sys2Proof.Machine.execCpsig val s
  | .cpend => Sys2Proof.Machine.execCpend s
  | .copySourceRowFull cluster sid => Sys2Proof.Machine.execCopySourceRowFull cluster sid s
  | .copyWritebackAck cluster sid => Sys2Proof.Machine.execCopyWritebackAck cluster sid s
  | .lineRecall cluster line => Sys2Proof.Machine.execLineRecall cluster line s
  | .futArgTake rs2 rs1 rd => Sys2Proof.Machine.execFutArgTake rs2 rs1 rd s
  | .futArgLen rs2 rs1 rd => Sys2Proof.Machine.execFutArgLen rs2 rs1 rd s
  | .futArgDeadline rs2 rs1 rd => Sys2Proof.Machine.execFutArgDeadline rs2 rs1 rd s
  | .futArgTool rs2 rs1 rd => Sys2Proof.Machine.execFutArgTool rs2 rs1 rd s
  | .futArgCopy rs2 rs1 rd => Sys2Proof.Machine.execFutArgCopy rs2 rs1 rd s
  | .futResolve rs2 rs1 rd => Sys2Proof.Machine.execFutResolve rs2 rs1 rd s
  | .futFail rs2 rs1 rd => Sys2Proof.Machine.execFutFail rs2 rs1 rd s
  | .capProbe rs2 rs1 rd => Sys2Proof.Machine.execCapProbe rs2 rs1 rd s
  | .capCsrWrite hart csr mMode v => Sys2Proof.Machine.execCapCsrWrite hart csr mMode v s
  | .toolAccessFault hart cause va => Sys2Proof.Machine.execToolAccessFault hart cause va s
  | .toolException hart cause served => Sys2Proof.Machine.execToolException hart cause served s
  | .jobstart m => Sys2Proof.Machine.execJobstart m s
  | .jobcancel m => Sys2Proof.Machine.execJobcancel m s
  | .futres m => Sys2Proof.Machine.execFutres m s
  | .mgmtReadCounters m => Sys2Proof.Machine.execMgmtReadCounters m s
  | .mgmtAttest m => Sys2Proof.Machine.execMgmtAttest m s
  | .mgmtLoadKey m => Sys2Proof.Machine.execMgmtLoadKey m s
  | .mgmtSetPowerCap m => Sys2Proof.Machine.execMgmtSetPowerCap m s
  | .mgmtFirmwareImage m => Sys2Proof.Machine.execMgmtFirmwareImage m s
  | .h2dBadType m => Sys2Proof.Machine.execH2dBadType m s
  | .h2dEnqueueDrop => Sys2Proof.Machine.execH2dEnqueueDrop s
  | .d2hDequeue => Sys2Proof.Machine.execD2hDequeue s
  | .mboxIrqTimeout => Sys2Proof.Machine.execMboxIrqTimeout s
  | .atsCompletion pasid page read write => Sys2Proof.Machine.execAtsCompletion pasid page read write s
  | .priResponseSuccess pasid page => Sys2Proof.Machine.execPriResponseSuccess pasid page s
  | .priResponseInvalid pasid page => Sys2Proof.Machine.execPriResponseInvalid pasid page s
  | .priResponseFailure pasid page => Sys2Proof.Machine.execPriResponseFailure pasid page s
  | .priTimeout pasid page => Sys2Proof.Machine.execPriTimeout pasid page s
  | .atsInvalidateRequest pasid base len => Sys2Proof.Machine.execAtsInvalidateRequest pasid base len s
  | .atsInvalidateCompletion pasid base len => Sys2Proof.Machine.execAtsInvalidateCompletion pasid base len s
  | .poolCompletion token data poison => Sys2Proof.Machine.execPoolCompletion token data poison s
  | .poolTimeout token => Sys2Proof.Machine.execPoolTimeout token s
  | .cxlwinWrite n v => Sys2Proof.Machine.execCxlwinWrite n v s
  | .uetReplyArrival r => Sys2Proof.Machine.execUetReplyArrival r s
  | .uetUndeliverable handle => Sys2Proof.Machine.execUetUndeliverable handle s
  | .faultRingRetry launch => Sys2Proof.Machine.execFaultRingRetry launch s
  | .replayQueueFree => Sys2Proof.Machine.execReplayQueueFree s
  | .freplayReplay token => Sys2Proof.Machine.execFreplayReplay token s
  | .freplayAbort token => Sys2Proof.Machine.execFreplayAbort token s
  | .heatDecay => Sys2Proof.Machine.execHeatDecay s
  | .heatcfgWrite v => Sys2Proof.Machine.execHeatcfgWrite v s
  | .migrate cmd => Sys2Proof.Machine.execMigrate cmd s
  | .compress cmd => Sys2Proof.Machine.execCompress cmd s
  | .decompress cmd => Sys2Proof.Machine.execDecompress cmd s
  | .churnQOverflow cmd => Sys2Proof.Machine.execChurnQOverflow cmd s
  | .freeze cmd => Sys2Proof.Machine.execFreeze cmd s
  | .copy cmd => Sys2Proof.Machine.execCopy cmd s
  | .release cmd => Sys2Proof.Machine.execRelease cmd s
  | .done cmd => Sys2Proof.Machine.execDone cmd s
  | .zPageDecompress token => Sys2Proof.Machine.execZPageDecompress token s
  | .freeFramePoll => Sys2Proof.Machine.execFreeFramePoll s
  | .dispatchStep cluster => Sys2Proof.Machine.execDispatchStep cluster s
  | .waitWordRead cluster task => Sys2Proof.Machine.execWaitWordRead cluster task s
  | .footprintFetchDone id => Sys2Proof.Machine.execFootprintFetchDone id s
  | .save id => Sys2Proof.Machine.execSave id s
  | .saveComplete id => Sys2Proof.Machine.execSaveComplete id s
  | .taskPacketArrival cluster src colour pkt => Sys2Proof.Machine.execTaskPacketArrival cluster src colour pkt s
  | .overflowReturn cluster => Sys2Proof.Machine.execOverflowReturn cluster s
  | .messageArrival core level src msg => Sys2Proof.Machine.execMessageArrival core level src msg s
  | .messagePlacement core level => Sys2Proof.Machine.execMessagePlacement core level s
  | .msgack id launch task => Sys2Proof.Machine.execMsgack id launch task s
  | .spawnRequestArrival r => Sys2Proof.Machine.execSpawnRequestArrival r s
  | .spawnwResend r => Sys2Proof.Machine.execSpawnwResend r s
  | .primarySlotFree core => Sys2Proof.Machine.execPrimarySlotFree core s
  | .launchComplete idx => Sys2Proof.Machine.execLaunchComplete idx s
  | .phaseAdvance part => Sys2Proof.Machine.execPhaseAdvance part s
  | .lmigGo v => Sys2Proof.Machine.execLmigGo v s
  | .lmigStreamDone => Sys2Proof.Machine.execLmigStreamDone s
  | .lmigFwdClear n => Sys2Proof.Machine.execLmigFwdClear n s
  | .qovfWrite d v => Sys2Proof.Machine.execQovfWrite d v s
  | .partcfgWrite n v => Sys2Proof.Machine.execPartcfgWrite n v s
  | .corecfgWrite core v => Sys2Proof.Machine.execCorecfgWrite core v s
  | .mxmodeWrite core v => Sys2Proof.Machine.execMxmodeWrite core v s
  | .fabricCfgWrite v => Sys2Proof.Machine.execFabricCfgWrite v s
  | .registerWrite r v => Sys2Proof.Machine.execRegisterWrite r v s
  | .routeHop p => Sys2Proof.Machine.execRouteHop p s
  | .norouteArrival p => Sys2Proof.Machine.execNorouteArrival p s
  | .homeAccess a => Sys2Proof.Machine.execHomeAccess a s
  | .migrantArrival m => Sys2Proof.Machine.execMigrantArrival m s
  | .migrantEntry core => Sys2Proof.Machine.execMigrantEntry core s
  | .mack id => Sys2Proof.Machine.execMack id s
  | .mnak id => Sys2Proof.Machine.execMnak id s
  | .migrantResend id => Sys2Proof.Machine.execMigrantResend id s
  | .pwack id count => Sys2Proof.Machine.execPwack id count s
  | .pwackCombineTimeout id => Sys2Proof.Machine.execPwackCombineTimeout id s
  | .weirMark target => Sys2Proof.Machine.execWeirMark target s
  | .weirTick => Sys2Proof.Machine.execWeirTick s
  | .weirFree => Sys2Proof.Machine.execWeirFree s
  | .weirAdmit target => Sys2Proof.Machine.execWeirAdmit target s
  | .peerOwnershipRequest line modid agent => Sys2Proof.Machine.execPeerOwnershipRequest line modid agent s
  | .peerRecallDone line => Sys2Proof.Machine.execPeerRecallDone line s
  | .peerLoss modid => Sys2Proof.Machine.execPeerLoss modid s
  | .gprep m => Sys2Proof.Machine.execGprep m s
  | .gpack m => Sys2Proof.Machine.execGpack m s
  | .gpnak m => Sys2Proof.Machine.execGpnak m s
  | .gcommit m => Sys2Proof.Machine.execGcommit m s
  | .gstart m => Sys2Proof.Machine.execGstart m s
  | .gabort m => Sys2Proof.Machine.execGabort m s
  | .gstop m => Sys2Proof.Machine.execGstop m s
  | .gangTaskFetchDone init launch => Sys2Proof.Machine.execGangTaskFetchDone init launch s
  | .gangPrepareTimeout launch => Sys2Proof.Machine.execGangPrepareTimeout launch s
  | .gangStartTimeout launch => Sys2Proof.Machine.execGangStartTimeout launch s
  | .orphanTimeout init launch => Sys2Proof.Machine.execOrphanTimeout init launch s
  | .lgreq m => Sys2Proof.Machine.execLgreq m s
  | .lgack m => Sys2Proof.Machine.execLgack m s
  | .lgnak m => Sys2Proof.Machine.execLgnak m s
  | .lshrink m => Sys2Proof.Machine.execLshrink m s
  | .lrecall m => Sys2Proof.Machine.execLrecall m s
  | .lswap m next => Sys2Proof.Machine.execLswap m next s
  | .llit m => Sys2Proof.Machine.execLlit m s
  | .lalive m => Sys2Proof.Machine.execLalive m s
  | .laliveSend => Sys2Proof.Machine.execLaliveSend s
  | .sluiceBadType m => Sys2Proof.Machine.execSluiceBadType m s
  | .lgreqTimeout d => Sys2Proof.Machine.execLgreqTimeout d s
  | .reversionResend d => Sys2Proof.Machine.execReversionResend d s
  | .leaseExpiry d => Sys2Proof.Machine.execLeaseExpiry d s
  | .retuneTimeout d lane => Sys2Proof.Machine.execRetuneTimeout d lane s
  | .drainDone d lane => Sys2Proof.Machine.execDrainDone d lane s
  | .drainTimeout d lane => Sys2Proof.Machine.execDrainTimeout d lane s
  | .laneFailure d lane => Sys2Proof.Machine.execLaneFailure d lane s
  | .slotClear d lane => Sys2Proof.Machine.execSlotClear d lane s
  | .directionTrained d modid => Sys2Proof.Machine.execDirectionTrained d modid s
  | .directionDown d => Sys2Proof.Machine.execDirectionDown d s
  | .leveeSweepStart part => Sys2Proof.Machine.execLeveeSweepStart part s
  | .sweep m => Sys2Proof.Machine.execSweep m s
  | .report m => Sys2Proof.Machine.execReport m s
  | .levpub m => Sys2Proof.Machine.execLevpub m s
  | .csweepStart idx => Sys2Proof.Machine.execCsweepStart idx s
  | .csweep m => Sys2Proof.Machine.execCsweep m s
  | .creport m => Sys2Proof.Machine.execCreport m s
  | .rollBack core victims => Sys2Proof.Machine.execRollBack core victims s
  | .antiMessageArrival cluster colour hdr => Sys2Proof.Machine.execAntiMessageArrival cluster colour hdr s
  | .futureQueueEntry ctx => Sys2Proof.Machine.execFutureQueueEntry ctx s
  | .futureTimeout idx => Sys2Proof.Machine.execFutureTimeout idx s
  | .injection idx => Sys2Proof.Machine.execInjection idx s
  | .waitingToCalling => Sys2Proof.Machine.execWaitingToCalling s
  | .syncRetry a => Sys2Proof.Machine.execSyncRetry a s
  | .codeLineFill cluster line => Sys2Proof.Machine.execCodeLineFill cluster line s
  | .wsRefresh group => Sys2Proof.Machine.execWsRefresh group s
  | .powerCapCheck average => Sys2Proof.Machine.execPowerCapCheck average s
  | .thermalWarning die temp => Sys2Proof.Machine.execThermalWarning die temp s
  | .fatalThermal die temp => Sys2Proof.Machine.execFatalThermal die temp s
  | .counterFlush => Sys2Proof.Machine.execCounterFlush s
  | .mctpCounterRead => Sys2Proof.Machine.execMctpCounterRead s
  | .powerOn verified digests => Sys2Proof.Machine.execPowerOn verified digests s
  | .moduleReset => Sys2Proof.Machine.execModuleReset s
  | .powerLoss => Sys2Proof.Machine.execPowerLoss s
  | .multiRotationResult id => Sys2Proof.Machine.execMultiRotationResult id s
  | .hostReadCompletion token data => Sys2Proof.Machine.execHostReadCompletion token data s
  | .lineFill cluster dev line data => Sys2Proof.Machine.execLineFill cluster dev line data s
  | .creditReturn modid set flits => Sys2Proof.Machine.execCreditReturn modid set flits s
  | .priEnable pasid => Sys2Proof.Machine.execPriEnable pasid s
  | .orderlyShutdown => Sys2Proof.Machine.execOrderlyShutdown s
  | .toolCoreAccess hart va size k => Sys2Proof.Machine.execToolCoreAccess hart va size k s
  | .secondsSpent temps bers => Sys2Proof.Machine.execSecondsSpent temps bers s
  | .illegalInstruction w => Sys2Proof.Machine.execIllegalInstruction w s
  | .streamDecodeCondition copy core sid dsub => Sys2Proof.Machine.execStreamDecodeCondition copy core sid dsub s

end Sys2Proof.Machine
end

