-- ==== Sys2Proof/Machine/Riscv.lean ====
section
/-! DEFINITION. The base instructions of the tool cores: RV64IMAFDC with Zicsr and Zifencei, which R207 names
(spec 01 R16, 08 R207 to R210, 11 R276, R279). What they do is taken from the RISC-V manuals (notes/assumptions/96). The
vector unit, which R207 names too, is not modelled: with its unit on, a vector instruction is refused by name. -/

namespace Sys2Proof.Machine

open Sys2Proof

/-! ## Compressed instructions -/

/-- The words of the formats, from their fields. -/
def rvR (op f3 f7 rd rs1 rs2 : Nat) : Nat := f7 * 2 ^ 25 + rs2 * 2 ^ 20 + rs1 * 2 ^ 15 + f3 * 2 ^ 12 + rd * 2 ^ 7 + op
def rvI (op f3 rd rs1 imm : Nat) : Nat := imm % 2 ^ 12 * 2 ^ 20 + rs1 * 2 ^ 15 + f3 * 2 ^ 12 + rd * 2 ^ 7 + op
def rvS (op f3 rs1 rs2 imm : Nat) : Nat :=
  bits imm 11 5 * 2 ^ 25 + rs2 * 2 ^ 20 + rs1 * 2 ^ 15 + f3 * 2 ^ 12 + bits imm 4 0 * 2 ^ 7 + op
def rvB (f3 rs1 rs2 imm : Nat) : Nat :=
  bits imm 12 12 * 2 ^ 31 + bits imm 10 5 * 2 ^ 25 + rs2 * 2 ^ 20 + rs1 * 2 ^ 15 + f3 * 2 ^ 12 + bits imm 4 1 * 2 ^ 8 +
  bits imm 11 11 * 2 ^ 7 + 0x63
def rvJ (rd imm : Nat) : Nat :=
  bits imm 20 20 * 2 ^ 31 + bits imm 10 1 * 2 ^ 21 + bits imm 11 11 * 2 ^ 20 + bits imm 19 12 * 2 ^ 12 + rd * 2 ^ 7 + 0x6F

/-- A two's complement field of n bits as a number of 64 bits. -/
def sextN (n v : Nat) : Nat := if bit v (n - 1) then v + 2 ^ 64 - 2 ^ n else v

/-- A field gathered from single bits: each pair is a bit of the halfword and its place. -/
def gather (c : Nat) (l : List (Nat × Nat)) : Nat := (l.map (fun x => bits c x.1 x.1 * 2 ^ x.2)).foldl (· + ·) 0

/-- Quadrant 0: loads and stores of the eight registers from x8. -/
def expand0 (c : Nat) : Option Nat :=
  let rd := 8 + bits c 4 2
  let rs := 8 + bits c 9 7
  let wide := bits c 12 10 * 8 + bits c 6 5 * 64
  let word := bits c 12 10 * 8 + gather c [(6, 2), (5, 6)]
  let sp := bits c 12 11 * 16 + bits c 10 7 * 64 + gather c [(6, 2), (5, 3)]
  match bits c 15 13 with
  | 0 => if sp = 0 then none else some (rvI 0x13 0 rd 2 sp)
  | 1 => some (rvI 0x07 3 rd rs wide)
  | 2 => some (rvI 0x03 2 rd rs word)
  | 3 => some (rvI 0x03 3 rd rs wide)
  | 5 => some (rvS 0x27 3 rs rd wide)
  | 6 => some (rvS 0x23 2 rs rd word)
  | 7 => some (rvS 0x23 3 rs rd wide)
  | _ => none

/-- The arithmetic instructions of quadrant 1 on the eight registers from x8. -/
def expandAlu (c : Nat) : Option Nat :=
  let rd := 8 + bits c 9 7
  let rs := 8 + bits c 4 2
  let sh := bits c 12 12 * 32 + bits c 6 2
  match bits c 11 10, bit c 12, bits c 6 5 with
  | 0, _, _ => some (rvI 0x13 5 rd rd sh)
  | 1, _, _ => some (rvI 0x13 5 rd rd (sh + 0x400))
  | 2, _, _ => some (rvI 0x13 7 rd rd (sextN 6 sh))
  | _, false, 0 => some (rvR 0x33 0 0x20 rd rd rs)
  | _, false, 1 => some (rvR 0x33 4 0 rd rd rs)
  | _, false, 2 => some (rvR 0x33 6 0 rd rd rs)
  | _, false, _ => some (rvR 0x33 7 0 rd rd rs)
  | _, true, 0 => some (rvR 0x3B 0 0x20 rd rd rs)
  | _, true, 1 => some (rvR 0x3B 0 0 rd rd rs)
  | _, _, _ => none

/-- Quadrant 1: immediates, arithmetic and branches. -/
def expand1 (c : Nat) : Option Nat :=
  let rd := bits c 11 7
  let v := bits c 12 12 * 32 + bits c 6 2
  let imm := sextN 6 v
  let jump := sextN 12 (gather c [(12, 11), (11, 4), (8, 10), (7, 6), (6, 7), (2, 5)] + bits c 10 9 * 256 + bits c 5 3 * 2)
  let branch := sextN 9 (gather c [(12, 8), (2, 5)] + bits c 11 10 * 8 + bits c 6 5 * 64 + bits c 4 3 * 2)
  let sp := sextN 10 (gather c [(12, 9), (6, 4), (5, 6), (2, 5)] + bits c 4 3 * 128)
  match bits c 15 13 with
  | 0 => some (rvI 0x13 0 rd rd imm)
  | 1 => if rd = 0 then none else some (rvI 0x1B 0 rd rd imm)
  | 2 => some (rvI 0x13 0 rd 0 imm)
  | 3 =>
    if v = 0 then none
    else if rd = 2 then some (rvI 0x13 0 2 2 sp)
    else some (imm % 2 ^ 20 * 2 ^ 12 + rd * 2 ^ 7 + 0x37)
  | 4 => expandAlu c
  | 5 => some (rvJ 0 jump)
  | 6 => some (rvB 0 (8 + bits c 9 7) 0 branch)
  | _ => some (rvB 1 (8 + bits c 9 7) 0 branch)

/-- Quadrant 2: shifts, accesses at the stack pointer, jumps to registers and moves. -/
def expand2 (c : Nat) : Option Nat :=
  let rd := bits c 11 7
  let rs := bits c 6 2
  let wide := bits c 12 12 * 32 + bits c 6 5 * 8 + bits c 4 2 * 64
  let word := bits c 12 12 * 32 + bits c 6 4 * 4 + bits c 3 2 * 64
  let swide := bits c 12 10 * 8 + bits c 9 7 * 64
  match bits c 15 13 with
  | 0 => some (rvI 0x13 1 rd rd (bits c 12 12 * 32 + rs))
  | 1 => some (rvI 0x07 3 rd 2 wide)
  | 2 => if rd = 0 then none else some (rvI 0x03 2 rd 2 word)
  | 3 => if rd = 0 then none else some (rvI 0x03 3 rd 2 wide)
  | 4 =>
    if !bit c 12 then
      if rs != 0 then some (rvR 0x33 0 0 rd 0 rs) else if rd = 0 then none else some (rvI 0x67 0 0 rd 0)
    else if rs != 0 then some (rvR 0x33 0 0 rd rd rs)
    else if rd = 0 then some 0x00100073 else some (rvI 0x67 0 1 rd 0)
  | 5 => some (rvS 0x27 3 2 rs swide)
  | 6 => some (rvS 0x23 2 2 rs (bits c 12 9 * 4 + bits c 8 7 * 64))
  | _ => some (rvS 0x23 3 2 rs swide)

/-- The 32-bit instruction that a halfword stands for. -/
def expandC (c : Nat) : Option Nat :=
  match c % 4 with
  | 0 => expand0 c
  | 1 => expand1 c
  | 2 => expand2 c
  | _ => none

/-! ## What an instruction comes to -/

/-- The outcome of a base instruction: the hart changed, an exception with its value, a line that has to come first, or a
vector instruction. -/
inductive RvRes
  | ok (s : State) (h : Hart)
  | trap (cause : Nat) (tval : Nat)
  | wait (s : State)
  | vector

/-- An integer register; x0 reads zero. -/
def Hart.x_ (h : Hart) (i : Nat) : Word := if i = 0 then 0 else mget h.x i 0

/-- Writes an integer register; x0 stays zero. -/
def Hart.setX (h : Hart) (i : Nat) (v : Word) : Hart := if i = 0 then h else { h with x := mput h.x i v }

/-- Control goes on behind the instruction. -/
def Hart.step (h : Hart) (len : Nat) : Hart := { h with pc := h.pc + w64 len }

/-- A result in a register. -/
def rvPut (s : State) (h : Hart) (len rd : Nat) (v : Word) : RvRes := .ok s ((h.setX rd v).step len)

-- Fields of a word.
def rvRd (w : Nat) : Nat := bits w 11 7
def rvF3 (w : Nat) : Nat := bits w 14 12
def rvRs1 (w : Nat) : Nat := bits w 19 15
def rvRs2 (w : Nat) : Nat := bits w 24 20
def rvF7 (w : Nat) : Nat := bits w 31 25
def immI (w : Nat) : Word := w64 (sextN 12 (bits w 31 20))
def rvImmS (w : Nat) : Word := w64 (sextN 12 (bits w 31 25 * 32 + bits w 11 7))
def immB (w : Nat) : Word :=
  w64 (sextN 13 (bits w 31 31 * 2 ^ 12 + bits w 7 7 * 2 ^ 11 + bits w 30 25 * 32 + bits w 11 8 * 2))
def immU (w : Nat) : Word := w64 (sextN 32 (bits w 31 12 * 2 ^ 12))
def immJ (w : Nat) : Word :=
  w64 (sextN 21 (bits w 31 31 * 2 ^ 20 + bits w 19 12 * 2 ^ 12 + bits w 20 20 * 2 ^ 11 + bits w 30 21 * 2))

/-- The illegal-instruction exception. -/
def rvIllegal (w : Nat) : RvRes := .trap 2 w

/-! ## Integer instructions -/

/-- The low 32 bits, sign-extended. -/
def sext32 (v : Word) : Word := (v.truncate 32).signExtend 64

/-- OP and OP-IMM: the operation of func3, `alt` its second form. -/
def rvAlu (f3 : Nat) (alt : Bool) (a b : Word) : Word :=
  match f3 with
  | 0 => if alt then a - b else a + b
  | 1 => a <<< (b.toNat % 64)
  | 2 => boolWord (decide (a.toInt < b.toInt))
  | 3 => boolWord (decide (a.toNat < b.toNat))
  | 4 => a ^^^ b
  | 5 => if alt then BitVec.sshiftRight a (b.toNat % 64) else a >>> (b.toNat % 64)
  | 6 => a ||| b
  | _ => a &&& b

/-- OP-32 and OP-IMM-32. -/
def rvAlu32 (f3 : Nat) (alt : Bool) (a b : Word) : Option Word :=
  let x : BitVec 32 := a.truncate 32
  let n := b.toNat % 32
  match f3 with
  | 0 => some (sext32 (if alt then a - b else a + b))
  | 1 => if alt then none else some ((x <<< n).signExtend 64)
  | 5 => some ((if alt then BitVec.sshiftRight x n else x >>> n).signExtend 64)
  | _ => none

/-- The M extension: `w` says 32 bits (0) or 64 (1) by the codes of R313 (0 is 64 bits, 1 is 32). -/
def rvMul (f3 : Nat) (a b : Word) : Word :=
  match f3 with
  | 0 => a * b
  | 1 => BitVec.ofInt 64 (a.toInt * b.toInt / 2 ^ 64)
  | 2 => BitVec.ofInt 64 (a.toInt * b.toNat / 2 ^ 64)
  | 3 => w64 (a.toNat * b.toNat / 2 ^ 64)
  | 4 => divS 0 a b
  | 5 => divU 0 a b
  | 6 => remS 0 a b
  | _ => remU 0 a b

/-- The M extension on 32 bits. -/
def rvMul32 (f3 : Nat) (a b : Word) : Option Word :=
  match f3 with
  | 0 => some (sext32 (a * b))
  | 4 => some (divS 1 a b)
  | 5 => some (divU 1 a b)
  | 6 => some (remS 1 a b)
  | 7 => some (remU 1 a b)
  | _ => none

/-- Whether a branch is taken; none for a reserved func3. -/
def rvTaken (f3 : Nat) (a b : Word) : Option Bool :=
  match f3 with
  | 0 => some (a == b)
  | 1 => some (a != b)
  | 4 => some (decide (a.toInt < b.toInt))
  | 5 => some (decide (b.toInt ≤ a.toInt))
  | 6 => some (decide (a.toNat < b.toNat))
  | 7 => some (decide (b.toNat ≤ a.toNat))
  | _ => none

/-- OP (0x33) and OP-32 (0x3B), with the M extension. -/
def rvOp (s : State) (h : Hart) (w len : Nat) (narrow : Bool) : RvRes :=
  let a := h.x_ (rvRs1 w)
  let b := h.x_ (rvRs2 w)
  let f3 := rvF3 w
  let alt := rvF7 w == 0x20
  let r : Option Word :=
    if rvF7 w = 1 then (if narrow then rvMul32 f3 a b else some (rvMul f3 a b))
    else if rvF7 w != 0 && !(alt && (f3 == 0 || f3 == 5)) then none
    else if narrow then rvAlu32 f3 alt a b else some (rvAlu f3 alt a b)
  r.elim (rvIllegal w) (rvPut s h len (rvRd w))

/-- OP-IMM (0x13) and OP-IMM-32 (0x1B): a shift's count and form stand in the immediate. -/
def rvOpImm (s : State) (h : Hart) (w len : Nat) (narrow : Bool) : RvRes :=
  let a := h.x_ (rvRs1 w)
  let f3 := rvF3 w
  let shift := f3 == 1 || f3 == 5
  let top := if narrow then bits w 31 25 else bits w 31 26 * 2
  let alt := f3 == 5 && top == 0x20
  let r : Option Word :=
    if shift && !(top == 0 || alt) then none
    else
      let b := if shift then w64 (if narrow then bits w 24 20 else bits w 25 20) else immI w
      if narrow then rvAlu32 f3 alt a b else some (rvAlu f3 alt a b)
  r.elim (rvIllegal w) (rvPut s h len (rvRd w))

/-! ## Loads, stores, atomics -/

/-- What a hart reads: a number, an exception, or a line that has to come first. -/
inductive RvMem
  | ok (n : Nat) (s : State)
  | trap (cause : Nat) (va : Nat)
  | wait (s : State)

/-- Whether a core performs a misaligned access, which R210 leaves to it. -/
def performs (s : State) : Bool := s.choice (Config.useTool + 64)

/-- A load of n bytes of a hart: coherent at its home (R279). -/
def rvLoad (s : State) (h : Hart) (va n : Nat) : RvMem :=
  if va % n = 0 then
    match hartAccess s h.data va n .load with
    | .inr c => .trap c va
    | .inl pa => match lineBusy s pa false with
      | some s => .wait s
      | none => .ok (bytesNat (s.mem.read 0 pa n)) (s.heat pa)
  else if performs s then
    match hartRead s h.data va n with
    | .inr f => .trap f.1 f.2
    | .inl l => .ok (bytesNat l) s
  else .trap 4 va

/-- A store of n bytes of a hart. -/
def rvStore (s : State) (h : Hart) (va n v : Nat) : RvMem :=
  if va % n = 0 then
    match hartAccess s h.data va n .store with
    | .inr c => .trap c va
    | .inl pa => match lineBusy s pa true with
      | some s => .wait s
      | none =>
        let s := s.heat pa
        .ok 0 (s.setMem (clearPoison (s.mem.write 0 pa (natBytes n v)) pa n))
  else if performs s then
    match hartStoreFault s h.data va n with
    | some f => .trap f.1 f.2
    | none => .ok 0 (s.hartStore h.data va (natBytes n v))
  else .trap 6 va

/-- A loaded number in a register, by func3: signed up to 3, unsigned from 4. -/
def loaded (f3 n : Nat) : Word :=
  if f3 = 0 then w64 (sextN 8 n) else if f3 = 1 then w64 (sextN 16 n) else if f3 = 2 then w64 (sextN 32 n) else w64 n

/-- LOAD (0x03). -/
def rvLoads (s : State) (h : Hart) (w len : Nat) : RvRes :=
  if rvF3 w = 7 then rvIllegal w
  else match rvLoad s h (h.x_ (rvRs1 w) + immI w).toNat (2 ^ (rvF3 w % 4)) with
    | .ok n s => rvPut s h len (rvRd w) (loaded (rvF3 w) n)
    | .trap c va => .trap c va
    | .wait s => .wait s

/-- STORE (0x23). -/
def rvStores (s : State) (h : Hart) (w len : Nat) : RvRes :=
  if 3 < rvF3 w then rvIllegal w
  else match rvStore s h (h.x_ (rvRs1 w) + rvImmS w).toNat (2 ^ rvF3 w) (h.x_ (rvRs2 w)).toNat with
    | .ok _ s => .ok s (h.step len)
    | .trap c va => .trap c va
    | .wait s => .wait s

/-- The operation of an AMO by its func5, as those of R349. -/
def amoCode (f5 : Nat) : Option Nat :=
  match f5 with
  | 0 => some 0
  | 1 => some 8
  | 4 => some 3
  | 8 => some 2
  | 12 => some 1
  | 16 => some 4
  | 20 => some 5
  | 24 => some 6
  | 28 => some 7
  | _ => none

/-- LR: the line is reserved for the hart until another write to it (R276). -/
def rvLr (s : State) (n : Nat) (h : Hart) (w len size va : Nat) : RvRes :=
  match hartAccess s h.data va size .load with
  | .inr c => .trap c va
  | .inl pa => match lineBusy s pa false with
    | some s => .wait s
    | none =>
      let v := bytesNat (s.mem.read 0 pa size)
      let s := s.heat pa
      let s := s.setMem { s.mem with resvs := s.mem.resvs.filter (fun r => r.1 != n) ++ [(n, pa / 64)] }
      rvPut s h len (rvRd w) (w64 (sextN (8 * size) v))

/-- SC: it succeeds only while the hart's reservation stands, and may fail without cause. -/
def rvSc (s : State) (n : Nat) (h : Hart) (w len size va : Nat) : RvRes :=
  match hartAccess s h.data va size .store with
  | .inr c => .trap c va
  | .inl pa => match lineBusy s pa true with
    | some s => .wait s
    | none =>
      let held := s.mem.resvs.contains (n, pa / 64) && !s.choice (Config.useTool + 128)
      let s := s.setMem { s.mem with resvs := s.mem.resvs.filter (fun r => r.1 != n) }
      if held then
        let s := s.heat pa
        rvPut (s.setMem (clearPoison (s.mem.write 0 pa (natBytes size (h.x_ (rvRs2 w)).toNat)) pa size)) h len (rvRd w) 0
      else rvPut s h len (rvRd w) 1

/-- AMO (0x2F): a read-modify-write at the home (R276). -/
def rvAmo (s : State) (n : Nat) (h : Hart) (w len : Nat) : RvRes :=
  let size := 2 ^ rvF3 w
  let va := (h.x_ (rvRs1 w)).toNat
  let f5 := bits w 31 27
  if rvF3 w != 2 && rvF3 w != 3 then rvIllegal w
  else if f5 = 2 then
    if rvRs2 w != 0 then rvIllegal w else if va % size != 0 then .trap 4 va else rvLr s n h w len size va
  else if f5 = 3 then (if va % size != 0 then .trap 6 va else rvSc s n h w len size va)
  else match amoCode f5 with
    | none => rvIllegal w
    | some op =>
      if va % size != 0 then .trap 6 va
      else match hartAccess s h.data va size .amo with
        | .inr c => .trap c va
        | .inl pa => match lineBusy s pa true with
          | some s => .wait s
          | none =>
            let s := s.heat pa
            let old := bytesNat (s.mem.read 0 pa size)
            let new := amoOp op (8 * size) old (h.x_ (rvRs2 w)).toNat
            rvPut (s.setMem (clearPoison (s.mem.write 0 pa (natBytes size new)) pa size)) h len (rvRd w)
              (w64 (sextN (8 * size) old))

/-! ## Floating point -/

def fmtF64 : Fmt := ⟨11, 52, 1023⟩

/-- The format of an FP instruction: bit 0 of its fmt field says double. -/
def rvFmt (d : Bool) : Fmt := if d then fmtF64 else fmtF32

/-- An operand's bits: a single that is not NaN-boxed is the canonical NaN. -/
def Hart.fbits (h : Hart) (d : Bool) (i : Nat) : Nat :=
  let v := (mget h.f i 0).toNat
  if d then v else if bits v 63 32 = 2 ^ 32 - 1 then bits v 31 0 else fmtF32.nan

/-- The state of the FP unit becomes dirty. -/
def Hart.fdirty (h : Hart) : Hart := h.setReg csrMstatus (putBits (h.reg csrMstatus) 14 13 3)

/-- Writes an FP register, a single NaN-boxed. -/
def Hart.setF (h : Hart) (d : Bool) (i v : Nat) : Hart :=
  { h with f := mput h.f i (w64 (if d then v else (2 ^ 32 - 1) * 2 ^ 32 + v)) }.fdirty

/-- Raises exception flags: 16 NV, 8 DZ, 4 OF, 2 UF, 1 NX. -/
def Hart.flags (h : Hart) (n : Nat) : Hart :=
  if n = 0 then h else (h.setReg csrFcsr (h.reg csrFcsr ||| n)).fdirty

/-- Whether bits are a signalling NaN. -/
def Fmt.snan (f : Fmt) (x : Nat) : Bool := (f.val x).isNan && !bit x (f.fb - 1)

/-- The format with a wider exponent, in which nothing overflows or is subnormal. -/
def Fmt.wide (f : Fmt) : Fmt := ⟨f.eb + 6, f.fb, 2 ^ (f.eb + 5) - 1⟩

/-- The top bit's weight of a value. -/
def FVal.top : FVal → Int
  | .num _ m e => (Nat.log2 m : Int) + e
  | _ => 0

/-- Rounds ±(m + part)·2^e to a format, with the flags OF, UF and NX; tininess is seen after rounding. -/
def Fmt.rounded (f : Fmt) (rm : Nat) (neg : Bool) (m : Nat) (e : Int) (sticky : Bool) : Nat × Nat :=
  let r := f.round rm neg m e sticky
  let t := (f.wide.val (f.wide.round rm neg m e sticky)).top
  if m = 0 && !sticky then (r, 0)
  else if (f.bias : Int) < t then (r, 5)
  else
    let inexact := sticky || f.val r == .nan || (f.val r).cmp (.num neg m e) != .eq
    (r, if inexact then (if t < 1 - (f.bias : Int) then 3 else 1) else 0)

/-- A value rounded to a format, with flags. -/
def Fmt.result (f : Fmt) (rm : Nat) : FVal → Nat × Nat
  | .nan => (f.nan, 0)
  | .inf n => (f.inf n, 0)
  | .num n m e => f.rounded rm n m e false

/-- NV when an operand signals, or when a NaN comes of operands that are none. -/
def invalid (f : Fmt) (ops : List Nat) (r : FVal) : Nat :=
  if ops.any f.snan || (r.isNan && !ops.any (fun x => (f.val x).isNan)) then 16 else 0

/-- The quotient, with flags. -/
def Fmt.quot (f : Fmt) (rm x y : Nat) : Nat × Nat :=
  let nv := if f.snan x || f.snan y then 16 else 0
  match f.val x, f.val y with
  | .num a m e, .num b n g =>
    if n = 0 then (if m = 0 then (f.nan, 16) else (f.inf (a != b), 8))
    else
      let sh := f.fb + 6 + Nat.log2 n
      f.rounded rm (a != b) (m * 2 ^ sh / n) (e - g - sh) (m * 2 ^ sh % n != 0)
  | .inf _, .inf _ => (f.nan, 16)
  | u, v => (f.div rm u v, nv)

/-- The square root, with flags. -/
def Fmt.root (f : Fmt) (rm x : Nat) : Nat × Nat :=
  match f.val x with
  | .nan => (f.nan, if f.snan x then 16 else 0)
  | .inf a => if a then (f.nan, 16) else (f.inf false, 0)
  | .num a m e =>
    if m = 0 then (f.enc rm (.num a 0 0), 0)
    else if a then (f.nan, 16)
    else
      let sh : Nat := 2 * (f.fb + 4) + (if e % 2 = 0 then 0 else 1)
      let r := isqrt (m * 2 ^ sh) (Nat.log2 (m * 2 ^ sh) / 2 + 1) 0
      f.rounded rm false r ((e - sh) / 2) (r * r != m * 2 ^ sh)

/-- x·y + z with one rounding, with flags: an infinity times zero is invalid even beside a NaN. -/
def Fmt.fused (f : Fmt) (rm : Nat) (x y z : Nat) (negP negZ : Bool) : Nat × Nat :=
  let p := (f.val x).mul (f.val y)
  let p := if negP then p.neg else p
  let z' := if negZ then (f.val z).neg else f.val z
  let r := p.add rm z'
  let lost := p.isNan && !(f.val x).isNan && !(f.val y).isNan
  let nv := if lost then 16 else invalid f [x, y, z] r
  let q := f.result rm r
  (q.1, q.2 ||| nv)

/-- A value as an integer of 32 or 64 bits, signed or not (type codes of R324), with flags: what does not fit, and a NaN,
is invalid and gives the nearest bound, for a NaN the upper one. -/
def toInteger (x : BitVec 2) (rm : Nat) (v : FVal) : Word × Nat :=
  let put (i : Int) : Word := if x = 0 || x = 2 then (BitVec.ofInt 32 i).signExtend 64 else BitVec.ofInt 64 i
  match v with
  | .nan => (put (intMax x), 16)
  | .inf a => (put (if a then intMin x else intMax x), 16)
  | .num a m e =>
    let i := roundInt rm a m e
    if i < intMin x then (put (intMin x), 16)
    else if intMax x < i then (put (intMax x), 16)
    else (put i, if (FVal.num a m e).cmp (FVal.ofInt i) = .eq then 0 else 1)

/-- The rounding mode of an instruction; none when it is reserved. -/
def Hart.rm (h : Hart) (w : Nat) : Option Nat :=
  let r := if rvF3 w = 7 then bits (h.reg csrFcsr) 7 5 else rvF3 w
  if 4 < r then none else some r

/-- A result in an FP register, with flags. -/
def fPut (s : State) (h : Hart) (w len : Nat) (d : Bool) (r : Nat × Nat) : RvRes :=
  .ok s (((h.setF d (rvRd w) r.1).flags r.2).step len)

/-- A result in an integer register, with flags. -/
def fPutX (s : State) (h : Hart) (w len : Nat) (v : Word) (fl : Nat) : RvRes :=
  .ok s (((h.setX (rvRd w) v).flags fl).step len)

/-- FMADD, FMSUB, FNMSUB, FNMADD (0x43, 0x47, 0x4B, 0x4F). -/
def rvFma (s : State) (h : Hart) (w len : Nat) : RvRes :=
  let d := bit w 25
  let op := bits w 3 2
  match h.rm w with
  | none => rvIllegal w
  | some rm =>
    fPut s h w len d ((rvFmt d).fused rm (h.fbits d (rvRs1 w)) (h.fbits d (rvRs2 w)) (h.fbits d (bits w 31 27))
      (2 ≤ op) (op == 1 || op == 3))

/-- FSGNJ, FSGNJN, FSGNJX. -/
def signInject (f : Fmt) (f3 x y : Nat) : Option Nat :=
  let top := 2 ^ (f.eb + f.fb)
  let sx := x / top
  let sy := y / top
  match f3 with
  | 0 => some (x % top + sy * top)
  | 1 => some (x % top + (1 - sy) * top)
  | 2 => some (x % top + (sx + sy) % 2 * top)
  | _ => none

/-- FEQ, FLT, FLE: a NaN makes the result 0; FLT and FLE find any NaN invalid, FEQ a signalling one. -/
def rvCompare (f : Fmt) (f3 x y : Nat) : Option (Word × Nat) :=
  let u := f.val x
  let v := f.val y
  let un := u.isNan || v.isNan
  let c := u.cmp v
  match f3 with
  | 2 => some (boolWord (!un && c == .eq), if f.snan x || f.snan y then 16 else 0)
  | 1 => some (boolWord (!un && c == .lt), if un then 16 else 0)
  | 0 => some (boolWord (!un && c != .gt), if un then 16 else 0)
  | _ => none

/-- FCLASS: bit numbers from −∞ to quiet NaN. -/
def rvClass (f : Fmt) (x : Nat) : Word :=
  match f.val x with
  | .nan => if f.snan x then 256 else 512
  | .inf a => if a then 1 else 128
  | .num a m _ =>
    if m = 0 then (if a then 8 else 16)
    else if m < 2 ^ f.fb then (if a then 4 else 32) else (if a then 2 else 64)

/-- The integer types of FCVT by rs2: W, WU, L, LU as the codes of R324. -/
def cvtType (rs2 : Nat) : Option (BitVec 2) :=
  match rs2 with
  | 0 => some 0
  | 1 => some 2
  | 2 => some 1
  | 3 => some 3
  | _ => none

/-- The instructions of OP-FP that round: arithmetic and conversions. -/
def rvFround (s : State) (h : Hart) (w len rm : Nat) (d : Bool) : RvRes :=
  let f := rvFmt d
  let x := h.fbits d (rvRs1 w)
  let y := h.fbits d (rvRs2 w)
  let sum (v : FVal) : RvRes :=
    let q := f.result rm v
    fPut s h w len d (q.1, q.2 ||| invalid f [x, y] v)
  match bits w 31 27 with
  | 0 => sum ((f.val x).add rm (f.val y))
  | 1 => sum ((f.val x).add rm (f.val y).neg)
  | 2 => sum ((f.val x).mul (f.val y))
  | 3 => fPut s h w len d (f.quot rm x y)
  | 11 => if rvRs2 w != 0 then rvIllegal w else fPut s h w len d (f.root rm x)
  | 8 =>
    if rvRs2 w != (if d then 0 else 1) then rvIllegal w
    else
      let g := rvFmt (!d)
      let z := h.fbits (!d) (rvRs1 w)
      let q := f.result rm (g.val z)
      fPut s h w len d (q.1, q.2 ||| (if g.snan z then 16 else 0))
  | 24 => match cvtType (rvRs2 w) with
    | none => rvIllegal w
    | some t => let r := toInteger t rm (f.val x); fPutX s h w len r.1 r.2
  | 26 => match cvtType (rvRs2 w) with
    | none => rvIllegal w
    | some t => fPut s h w len d (f.result rm (FVal.ofInt (intOperand t (h.x_ (rvRs1 w)))))
  | _ => rvIllegal w

/-- OP-FP (0x53). -/
def rvFp (s : State) (h : Hart) (w len : Nat) : RvRes :=
  let d := bit w 25
  let f := rvFmt d
  let x := h.fbits d (rvRs1 w)
  let y := h.fbits d (rvRs2 w)
  let plain := rvRs2 w == 0
  match bits w 31 27 with
  | 4 => (signInject f (rvF3 w) x y).elim (rvIllegal w) (fun r => fPut s h w len d (r, 0))
  | 5 =>
    if 1 < rvF3 w then rvIllegal w
    else fPut s h w len d (f.minmax (rvF3 w == 1) x y, if f.snan x || f.snan y then 16 else 0)
  | 20 => (rvCompare f (rvF3 w) x y).elim (rvIllegal w) (fun r => fPutX s h w len r.1 r.2)
  | 28 =>
    if plain && rvF3 w = 1 then fPutX s h w len (rvClass f x) 0
    else if plain && rvF3 w = 0 then
      let v := (mget h.f (rvRs1 w) 0)
      fPutX s h w len (if d then v else sext32 v) 0
    else rvIllegal w
  | 30 =>
    if plain && rvF3 w = 0 then fPut s h w len d ((h.x_ (rvRs1 w)).toNat % 2 ^ f.bits, 0) else rvIllegal w
  | _ => (h.rm w).elim (rvIllegal w) (fun rm => rvFround s h w len rm d)

/-- LOAD-FP (0x07). -/
def rvLoadF (s : State) (h : Hart) (w len : Nat) : RvRes :=
  match rvLoad s h (h.x_ (rvRs1 w) + immI w).toNat (2 ^ rvF3 w) with
  | .ok n s => .ok s ((h.setF (rvF3 w == 3) (rvRd w) n).step len)
  | .trap c va => .trap c va
  | .wait s => .wait s

/-- STORE-FP (0x27). -/
def rvStoreF (s : State) (h : Hart) (w len : Nat) : RvRes :=
  match rvStore s h (h.x_ (rvRs1 w) + rvImmS w).toNat (2 ^ rvF3 w) (mget h.f (rvRs2 w) 0).toNat with
  | .ok _ s => .ok s (h.step len)
  | .trap c va => .trap c va
  | .wait s => .wait s

/-! ## CSRs and the system instructions -/

/-- What reading a CSR finds. -/
inductive CsrRead
  | val (v : Nat)
  | illegal
  | vector

-- The bits of mstatus that a hart holds, and those that sstatus shows.
def mstatusMask : Nat := 0x7E7FAA
def sstatusMask : Nat := 0xC6722

/-- mstatus as it reads: 64-bit S and U levels, and SD when a unit's state is dirty. -/
def mstatusView (v : Nat) : Nat :=
  v + 0xA00000000 + (if bits v 14 13 == 3 || bits v 10 9 == 3 then 2 ^ 63 else 0)

/-- Whether a counter may be read below machine level. -/
def counterOpen (h : Hart) (i : Nat) : Bool :=
  (h.mMode || bit (h.reg csrMcounteren) i) && (!h.userMode || h.mMode || bit (h.reg csrScounteren) i)

/-- Whether a CSR number is one of the hardware performance counters or their selectors, or of physical memory protection:
they read zero. -/
def csrZero (n : Nat) : Bool :=
  (0xB03 ≤ n && n ≤ 0xB1F) || (0x323 ≤ n && n ≤ 0x33F) || (0x3A0 ≤ n && n ≤ 0x3EF) || n == 0x320 || n == 0xF15

/-- The CSRs that hold what was written to them. -/
def csrHeld (n : Nat) : Bool :=
  n == csrStvec || n == csrScounteren || n == 0x10A || n == 0x140 || n == csrSepc || n == csrScause || n == csrStval ||
  n == csrMedeleg || n == csrMideleg || n == csrMie || n == csrMtvec || n == csrMcounteren || n == 0x30A || n == 0x340 ||
  n == csrMepc || n == csrMcause || n == csrMtval || n == csrMip

/-- Reads a CSR (R16, R208): time is STAMP; cycle and instret count at a rate that R207 leaves open. -/
def csrRead (s : State) (n : Nat) (h : Hart) (c : Nat) : CsrRead :=
  let st := h.reg csrMstatus
  let count (i : Nat) (v : Nat) : CsrRead := if counterOpen h i then .val v else .illegal
  let free := (Config.freeWord (Config.useTool + 64 * c) s.sched.free).toNat
  if h.level < bits c 9 8 then .illegal
  else if 1 ≤ c && c ≤ 3 then
    (if bits st 14 13 = 0 then .illegal
     else .val (if c = 1 then bits (h.reg csrFcsr) 4 0 else if c = 2 then bits (h.reg csrFcsr) 7 5 else h.reg csrFcsr))
  else if (8 ≤ c && c ≤ 15) || (0xC20 ≤ c && c ≤ 0xC22) then (if bits st 10 9 = 0 then .illegal else .vector)
  else if c = 0xC01 then count 1 (s.now % 2 ^ 64)
  else if c = 0xC00 then count 0 free
  else if c = 0xC02 then count 2 free
  else if 0xC03 ≤ c && c ≤ 0xC1F then count (c - 0xC00) 0
  else if c = 0xB00 || c = 0xB02 then .val free
  else if 0xF11 ≤ c && c ≤ 0xF13 then .val (Config.freeWord Config.useTool c).toNat
  else if c = 0xF14 then .val n
  else if c = 0x100 then .val (mstatusView (st &&& sstatusMask) % 2 ^ 32 + 2 ^ 33 + (mstatusView st / 2 ^ 63) * 2 ^ 63)
  else if c = csrMstatus then .val (mstatusView st)
  else if c = 0x301 then .val (2 * 2 ^ 62 + 0x34112D)
  else if c = 0x104 then .val (h.reg csrMie &&& h.reg csrMideleg)
  else if c = 0x144 then .val (h.reg csrMip &&& h.reg csrMideleg)
  else if c = 0x180 then (if !h.mMode && bit st 20 then .illegal else .val h.satp.toNat)
  else if 0x5C0 ≤ c && c ≤ 0x5DF then
    .val (mget (if c % 2 = 0 then h.capBase else h.capCtl) ((c - 0x5C0) / 2) 0).toNat
  else if c = 0x5E0 then .val h.ctx
  else if csrZero c then .val 0
  else if csrHeld c then .val (h.reg c)
  else .illegal

/-- mstatus once written: MPP keeps its value when the new one is no level. -/
def mstatusPut (old v : Nat) : Nat :=
  let v := v &&& mstatusMask
  if bits v 12 11 = 2 then putBits v 12 11 (bits old 12 11) else v

/-- Some bits of a number replaced by those of another. -/
def maskPut (old v mask : Nat) : Nat := (old &&& (2 ^ 64 - 1 - mask)) + (v &&& mask)

/-- Writes a CSR that is held; legal values only. -/
def csrPut (h : Hart) (c v : Nat) : Hart :=
  let fcsr (h : Hart) (x : Nat) : Hart := (h.setReg csrFcsr x).fdirty
  if c = 1 then fcsr h (putBits (h.reg csrFcsr) 4 0 v)
  else if c = 2 then fcsr h (putBits (h.reg csrFcsr) 7 5 v)
  else if c = 3 then fcsr h (v % 256)
  else if c = 0x100 then h.setReg csrMstatus (mstatusPut (h.reg csrMstatus) (maskPut (h.reg csrMstatus) v sstatusMask))
  else if c = csrMstatus then h.setReg csrMstatus (mstatusPut (h.reg csrMstatus) v)
  else if c = 0x104 then h.setReg csrMie (maskPut (h.reg csrMie) v (h.reg csrMideleg))
  else if c = 0x144 then h.setReg csrMip (maskPut (h.reg csrMip) v (h.reg csrMideleg &&& 2))
  else if c = 0x180 then (if bits v 63 60 = 0 || bits v 63 60 = 9 then { h with satp := w64 v } else h)
  else if c = csrMedeleg then h.setReg c (v &&& 0xB3FF)
  else if c = csrMideleg then h.setReg c (v &&& 0x222)
  else if c = csrMie then h.setReg c (v &&& 0xAAA)
  else if c = csrMip then h.setReg c (v &&& 0x222)
  else if c = csrMtvec || c = csrStvec then h.setReg c (putBits v 1 1 0)
  else if c = csrMepc || c = csrSepc then h.setReg c (v / 2 * 2)
  else if c = csrMcounteren || c = csrScounteren then h.setReg c (v % 2 ^ 32)
  else if c = 0x10A || c = 0x30A then h.setReg c (v % 2)
  else if csrHeld c then h.setReg c v
  else h

/-- Writes a CSR of hart n: those of the capabilities as R208 says. -/
def csrWrite (s : State) (n : Nat) (h : Hart) (c v : Nat) : State × Hart :=
  if (0x5C0 ≤ c && c ≤ 0x5DF) || c = 0x5E0 then
    match execCapCsrWrite n c h.mMode (w64 v) s with
    | .next s =>
      let g := s.hartAt n
      (s, { h with capBase := g.capBase, capCtl := g.capCtl, ctx := g.ctx })
    | _ => (s, h)
  else (s, csrPut h c v)

/-- CSRRW, CSRRS, CSRRC and their immediate forms. -/
def rvCsr (s : State) (n : Nat) (h : Hart) (w len : Nat) : RvRes :=
  let c := bits w 31 20
  let f3 := rvF3 w
  let x := if bit f3 2 then rvRs1 w else (h.x_ (rvRs1 w)).toNat
  let writes := f3 % 4 == 1 || rvRs1 w != 0
  match csrRead s n h c with
  | .illegal => rvIllegal w
  | .vector => .vector
  | .val old =>
    if writes && bits c 11 10 == 3 then rvIllegal w
    else
      let v := if f3 % 4 = 1 then x else if f3 % 4 = 2 then old ||| x else maskPut old 0 x
      let r := if writes then csrWrite s n h c v else (s, h)
      rvPut r.1 r.2 len (rvRd w) (w64 old)

/-- ECALL (R210): the tool supervisor serves it or not; what a served call leaves in a0 and a1 is free. -/
def rvEcall (s : State) (n : Nat) (h : Hart) (len : Nat) : RvRes :=
  if h.userMode && !h.mMode then
    if s.choice Config.useTool then
      let v (i : Nat) : Word := Config.freeWord (Config.useTool + 64 * i) s.sched.free
      .ok (s.post (.toolException n 8 true)) (((h.setX 10 (v 10)).setX 11 (v 11)).step len)
    else .trap 8 0
  else .trap (if h.mMode then 11 else 9) 0

/-- SYSTEM (0x73). -/
def rvSystem (s : State) (n : Nat) (h : Hart) (w len : Nat) : RvRes :=
  let st := h.reg csrMstatus
  if rvF3 w = 4 then rvIllegal w
  else if rvF3 w != 0 then rvCsr s n h w len
  else if w = 0x00000073 then rvEcall s n h len
  else if w = 0x00100073 then .trap 3 h.pc.toNat
  else if w = 0x30200073 then (if h.mMode then .ok s h.mret else rvIllegal w)
  else if w = 0x10200073 then
    (if h.mMode || (!h.userMode && !bit st 22) then .ok s h.sret else rvIllegal w)
  else if w = 0x10500073 then .ok s (h.step len)
  else if rvF7 w = 9 && rvRd w = 0 then
    (if h.mMode || (!h.userMode && !bit st 20) then .ok s (h.step len) else rvIllegal w)
  else rvIllegal w

/-! ## Control and dispatch -/

/-- BRANCH (0x63). -/
def rvBranch (s : State) (h : Hart) (w len : Nat) : RvRes :=
  match rvTaken (rvF3 w) (h.x_ (rvRs1 w)) (h.x_ (rvRs2 w)) with
  | none => rvIllegal w
  | some t => .ok s (if t then { h with pc := h.pc + immB w } else h.step len)

/-- Whether a word is a vector instruction: OP-V, or a load or store of FP whose width is none of F and D. -/
def rvVector (w : Nat) : Bool :=
  bits w 6 0 == 0x57 ||
  ((bits w 6 0 == 0x07 || bits w 6 0 == 0x27) && (rvF3 w == 0 || (5 ≤ rvF3 w && rvF3 w ≤ 7)))

/-- Whether a word is an instruction of F or D. -/
def rvFloat (w : Nat) : Bool :=
  let op := bits w 6 0
  ((op == 0x07 || op == 0x27) && (rvF3 w == 2 || rvF3 w == 3)) ||
  ((op == 0x43 || op == 0x47 || op == 0x4B || op == 0x4F || op == 0x53) && bits w 26 26 == 0)

/-- An instruction of F or D with the unit on. -/
def rvFloats (s : State) (h : Hart) (w len : Nat) : RvRes :=
  match bits w 6 0 with
  | 0x07 => rvLoadF s h w len
  | 0x27 => rvStoreF s h w len
  | 0x53 => rvFp s h w len
  | _ => rvFma s h w len

/-- Runs a base instruction of `len` bytes on hart n. FENCE and FENCE.I find every earlier access performed (R279). -/
def rvExec (s : State) (n : Nat) (h : Hart) (w len : Nat) : RvRes :=
  let st := h.reg csrMstatus
  if rvVector w then (if bits st 10 9 = 0 then rvIllegal w else .vector)
  else if rvFloat w then (if bits st 14 13 = 0 then rvIllegal w else rvFloats s h w len)
  else match bits w 6 0 with
    | 0x37 => rvPut s h len (rvRd w) (immU w)
    | 0x17 => rvPut s h len (rvRd w) (h.pc + immU w)
    | 0x6F => .ok s { h.setX (rvRd w) (h.pc + w64 len) with pc := h.pc + immJ w }
    | 0x67 =>
      if rvF3 w != 0 then rvIllegal w
      else .ok s { h.setX (rvRd w) (h.pc + w64 len) with pc := (h.x_ (rvRs1 w) + immI w) &&& ~~~1#64 }
    | 0x63 => rvBranch s h w len
    | 0x03 => rvLoads s h w len
    | 0x23 => rvStores s h w len
    | 0x13 => rvOpImm s h w len false
    | 0x1B => rvOpImm s h w len true
    | 0x33 => rvOp s h w len false
    | 0x3B => rvOp s h w len true
    | 0x0F => if rvF3 w ≤ 1 then .ok s (h.step len) else rvIllegal w
    | 0x2F => rvAmo s n h w len
    | 0x73 => rvSystem s n h w len
    | _ => rvIllegal w

/-- A base instruction of hart n, with what it comes to. -/
def hartBase (n w len : Nat) (s : State) : Res :=
  match rvExec s n (s.hartAt n) w len with
  | .ok s h => .next (s.setHart n h)
  | .trap c va => hartTrap s n c va
  | .wait s => .next s
  | .vector => .refused (.toolVectorInstruction (BitVec.ofNat 32 w))

/-! ## What a hart fetches -/

/-- What a hart fetches: a halfword's instruction or a word, or an exception with its address. -/
inductive HartFetch
  | word (w : BitVec 32)
  | half (c : Nat)
  | fault (cause : Nat) (va : Nat)
  deriving DecidableEq, Repr

/-- Fetches at the pc of a hart: the two halves of a word are fetched each by itself (R207). -/
def hartFetch (s : State) (h : Hart) : HartFetch :=
  match hartAccess s h h.pc.toNat 2 .fetch with
  | .inr c => .fault c h.pc.toNat
  | .inl pa =>
    let lo := bytesNat (s.mem.read 0 pa 2)
    if lo % 4 != 3 then .half lo
    else match hartAccess s h (h.pc + 2).toNat 2 .fetch with
      | .inr c => .fault c (h.pc + 2).toNat
      | .inl pa2 => .word (BitVec.ofNat 32 (lo + bytesNat (s.mem.read 0 pa2 2) * 2 ^ 16))

/-- Whether a hart runs at all: it is one of the part's tool cores, and the two steward cores run machine-mode firmware only
(R23, R207). -/
def hartRuns (s : State) (n : Nat) (h : Hart) : Bool :=
  decide (n < toolCores s.part) && (h.mMode || decide (n + 2 < toolCores s.part))

end Sys2Proof.Machine
end

