-- ==== Sys2Proof/Machine/Run.lean ====
section
/-! DEFINITION. What the step runs: the events, the turns of the slots, the matrix and copy streams and the tool harts,
and the clock (spec 01 R16, R17, 09 R220, 10 R240, R250, 12 R283 to R291). -/

namespace Sys2Proof.Machine

open Sys2Proof

/-! ## Events -/

/-- The meaning of an event, that of its row of the table. -/
def evMeaning (e : Ev) (s : State) : Res :=
  match e with
  | .keySweepDone key => execKeySweepDone key s
  | .tlbiComplete id => execTlbiComplete id s
  | .mmwaitMatch core => execMmwaitMatch core s
  | .cpwaitMatch cluster sid => execCpwaitMatch cluster sid s
  | .copySourceRowFull cluster sid => execCopySourceRowFull cluster sid s
  | .copyWritebackAck cluster sid => execCopyWritebackAck cluster sid s
  | .lineRecall cluster line => execLineRecall cluster line s
  | .capCsrWrite hart csr mMode v => execCapCsrWrite hart csr mMode v s
  | .toolAccessFault hart cause va => execToolAccessFault hart cause va s
  | .toolException hart cause served => execToolException hart cause served s
  | .jobstart m => execJobstart m s
  | .jobcancel m => execJobcancel m s
  | .futres m => execFutres m s
  | .mgmtReadCounters m => execMgmtReadCounters m s
  | .mgmtAttest m => execMgmtAttest m s
  | .mgmtLoadKey m => execMgmtLoadKey m s
  | .mgmtSetPowerCap m => execMgmtSetPowerCap m s
  | .mgmtFirmwareImage m => execMgmtFirmwareImage m s
  | .h2dBadType m => execH2dBadType m s
  | .h2dEnqueueDrop => execH2dEnqueueDrop s
  | .d2hDequeue => execD2hDequeue s
  | .mboxIrqTimeout => execMboxIrqTimeout s
  | .atsCompletion pasid page read write => execAtsCompletion pasid page read write s
  | .priResponseSuccess pasid page => execPriResponseSuccess pasid page s
  | .priResponseInvalid pasid page => execPriResponseInvalid pasid page s
  | .priResponseFailure pasid page => execPriResponseFailure pasid page s
  | .priTimeout pasid page => execPriTimeout pasid page s
  | .atsInvalidateRequest pasid base len => execAtsInvalidateRequest pasid base len s
  | .atsInvalidateCompletion pasid base len => execAtsInvalidateCompletion pasid base len s
  | .poolCompletion token data poison => execPoolCompletion token data poison s
  | .poolTimeout token => execPoolTimeout token s
  | .cxlwinWrite n v => execCxlwinWrite n v s
  | .uetReplyArrival r => execUetReplyArrival r s
  | .uetUndeliverable handle => execUetUndeliverable handle s
  | .faultRingRetry launch => execFaultRingRetry launch s
  | .replayQueueFree => execReplayQueueFree s
  | .freplayReplay token => execFreplayReplay token s
  | .freplayAbort token => execFreplayAbort token s
  | .heatDecay => execHeatDecay s
  | .heatcfgWrite v => execHeatcfgWrite v s
  | .migrate cmd => execMigrate cmd s
  | .compress cmd => execCompress cmd s
  | .decompress cmd => execDecompress cmd s
  | .churnQOverflow cmd => execChurnQOverflow cmd s
  | .freeze cmd => execFreeze cmd s
  | .copy cmd => execCopy cmd s
  | .release cmd => execRelease cmd s
  | .done cmd => execDone cmd s
  | .zPageDecompress token => execZPageDecompress token s
  | .freeFramePoll => execFreeFramePoll s
  | .dispatchStep cluster => execDispatchStep cluster s
  | .waitWordRead cluster task => execWaitWordRead cluster task s
  | .footprintFetchDone id => execFootprintFetchDone id s
  | .save id => execSave id s
  | .saveComplete id => execSaveComplete id s
  | .taskPacketArrival cluster src colour pkt => execTaskPacketArrival cluster src colour pkt s
  | .overflowReturn cluster => execOverflowReturn cluster s
  | .messageArrival core level src msg => execMessageArrival core level src msg s
  | .messagePlacement core level => execMessagePlacement core level s
  | .msgack id launch task => execMsgack id launch task s
  | .spawnRequestArrival r => execSpawnRequestArrival r s
  | .spawnwResend r => execSpawnwResend r s
  | .primarySlotFree core => execPrimarySlotFree core s
  | .launchComplete idx => execLaunchComplete idx s
  | .phaseAdvance part => execPhaseAdvance part s
  | .lmigGo v => execLmigGo v s
  | .lmigStreamDone => execLmigStreamDone s
  | .lmigFwdClear i => execLmigFwdClear i s
  | .qovfWrite d v => execQovfWrite d v s
  | .partcfgWrite n v => execPartcfgWrite n v s
  | .corecfgWrite core v => execCorecfgWrite core v s
  | .mxmodeWrite core v => execMxmodeWrite core v s
  | .fabricCfgWrite v => execFabricCfgWrite v s
  | .registerWrite r v => execRegisterWrite r v s
  | .routeHop p => execRouteHop p s
  | .norouteArrival p => execNorouteArrival p s
  | .homeAccess a => execHomeAccess a s
  | .migrantArrival m => execMigrantArrival m s
  | .migrantEntry core => execMigrantEntry core s
  | .mack id => execMack id s
  | .mnak id => execMnak id s
  | .migrantResend id => execMigrantResend id s
  | .pwack id count => execPwack id count s
  | .pwackCombineTimeout id => execPwackCombineTimeout id s
  | .weirMark target => execWeirMark target s
  | .weirTick => execWeirTick s
  | .weirFree => execWeirFree s
  | .weirAdmit target => execWeirAdmit target s
  | .peerOwnershipRequest line modid agent => execPeerOwnershipRequest line modid agent s
  | .peerRecallDone line => execPeerRecallDone line s
  | .peerLoss modid => execPeerLoss modid s
  | .gprep m => execGprep m s
  | .gpack m => execGpack m s
  | .gpnak m => execGpnak m s
  | .gcommit m => execGcommit m s
  | .gstart m => execGstart m s
  | .gabort m => execGabort m s
  | .gstop m => execGstop m s
  | .gangTaskFetchDone init launch => execGangTaskFetchDone init launch s
  | .gangPrepareTimeout launch => execGangPrepareTimeout launch s
  | .gangStartTimeout launch => execGangStartTimeout launch s
  | .orphanTimeout init launch => execOrphanTimeout init launch s
  | .lgreq m => execLgreq m s
  | .lgack m => execLgack m s
  | .lgnak m => execLgnak m s
  | .lshrink m => execLshrink m s
  | .lrecall m => execLrecall m s
  | .lswap m next => execLswap m next s
  | .llit m => execLlit m s
  | .lalive m => execLalive m s
  | .laliveSend => execLaliveSend s
  | .sluiceBadType m => execSluiceBadType m s
  | .lgreqTimeout d => execLgreqTimeout d s
  | .reversionResend d => execReversionResend d s
  | .leaseExpiry d => execLeaseExpiry d s
  | .retuneTimeout d lane => execRetuneTimeout d lane s
  | .drainDone d lane => execDrainDone d lane s
  | .drainTimeout d lane => execDrainTimeout d lane s
  | .laneFailure d lane => execLaneFailure d lane s
  | .slotClear d lane => execSlotClear d lane s
  | .directionTrained d modid => execDirectionTrained d modid s
  | .directionDown d => execDirectionDown d s
  | .leveeSweepStart part => execLeveeSweepStart part s
  | .sweep m => execSweep m s
  | .report m => execReport m s
  | .levpub m => execLevpub m s
  | .csweepStart idx => execCsweepStart idx s
  | .csweep m => execCsweep m s
  | .creport m => execCreport m s
  | .rollBack core victims => execRollBack core victims s
  | .antiMessageArrival cluster colour hdr => execAntiMessageArrival cluster colour hdr s
  | .futureQueueEntry ctx => execFutureQueueEntry ctx s
  | .futureTimeout idx => execFutureTimeout idx s
  | .injection idx => execInjection idx s
  | .waitingToCalling => execWaitingToCalling s
  | .syncRetry a => execSyncRetry a s
  | .codeLineFill cluster line => execCodeLineFill cluster line s
  | .wsRefresh group => execWsRefresh group s
  | .powerCapCheck average => execPowerCapCheck average s
  | .thermalWarning die temp => execThermalWarning die temp s
  | .fatalThermal die temp => execFatalThermal die temp s
  | .counterFlush => execCounterFlush s
  | .mctpCounterRead => execMctpCounterRead s
  | .powerOn verified digests => execPowerOn verified digests s
  | .moduleReset => execModuleReset s
  | .powerLoss => execPowerLoss s
  | .multiRotationResult id => execMultiRotationResult id s
  | .hostReadCompletion token data => execHostReadCompletion token data s
  | .lineFill cluster dev line data => execLineFill cluster dev line data s
  | .creditReturn modid set flits => execCreditReturn modid set flits s
  | .priEnable pasid => execPriEnable pasid s
  | .orderlyShutdown => execOrderlyShutdown s
  | .toolCoreAccess hart va size k => execToolCoreAccess hart va size k s
  | .secondsSpent temps bers => execSecondsSpent temps bers s
  | .illegalInstruction w => execIllegalInstruction w s
  | .streamDecodeCondition copy core sid dsub => execStreamDecodeCondition copy core sid dsub s
  | .sluiceIn d w0 w1 w2 w3 => execSluiceIn d w0 w1 w2 w3 s
  | .tuneBegin d lane => execTuneBegin d lane s
  | .rxTune d lane => execRxTune d lane s
  | .rxLock d lane => execRxLock d lane s
  | .laneWindow d lane errs bits => execLaneWindow d lane errs bits s
  | .flitCheck d lane ok => execFlitCheck d lane ok s
  | .linkAck d num => execLinkAck d num s
  | .packetIn d num p => execPacketIn d num p s
  | .resultArrival a v0 v1 => execResultArrival a v0 v1 s
  | .abortArrival a psn => execAbortArrival a psn s
  | .spawnReply r v => execSpawnReply r v s
  | .requestArrival q => execRequestArrival q s
  | .answer id regs nest trap => execAnswer id regs nest trap s
  | .lineAsked modid line cache shared => execLineAsked modid line cache shared s
  | .lineDataArrival modid cache line data psn key => execLineDataArrival modid cache line data psn key s
  | .lineStored modid line cache data mask psn key => execLineStored modid line cache data mask psn key s
  | .lineWritten cache dev line => execLineWritten cache dev line s
  | .lineFaulted modid cache line cause => execLineFaulted modid cache line cause s
  | .recallArrival modid line => execRecallArrival modid line s
  | .recalledArrival modid line data => execRecalledArrival modid line data s
  | .tlbiArrival src slot job vpage => execTlbiArrival src slot job vpage s
  | .tlbiReply id => execTlbiReply id s
  | .phaseArrival src part => execPhaseArrival src part s
  | .phaseReply part => execPhaseReply part s
  | .cancelAgain launch => execCancelAgain launch s
  | .promoteArrival modid cluster id => execPromoteArrival modid cluster id s
  | .promoted id => execPromoted id s
  | .haltDone id d part => execHaltDone id d part s
  | .stopArrival modid part launch resume fatal => execStopArrival modid part launch resume fatal s
  | .endedArrival dcore launch spec sgen nest quit fail => execEndedArrival dcore launch spec sgen nest quit fail s
  | .commitGo core => execCommitGo core s
  | .doomedArrival dcore launch spec sgen => execDoomedArrival dcore launch spec sgen s
  | .recordArrival launch job w0 w1 w2 w3 => execRecordArrival launch job w0 w1 w2 w3 s
  | .cancelledArrival modid launch => execCancelledArrival modid launch s
  | .launchOver modid launch st => execLaunchOver modid launch st s
  | .churnGo n => execChurnGo n s
  | .eccError channel bank corrected => execEccError channel bank corrected s
  | .barRead bar off size => execBarRead bar off size s
  | .barWrite bar off size v => execBarWrite bar off size v s

/-- Whether an event still happens on a module whose boot has halted: the mailbox, management messages, power and reset
(R20). -/
def inFailedBoot : Ev → Bool
  | .mgmtReadCounters _ | .mgmtAttest _ | .mgmtLoadKey _ | .mgmtSetPowerCap _ | .mgmtFirmwareImage _ => true
  | .jobstart _ | .jobcancel _ | .futres _ | .h2dBadType _ | .barRead _ _ _ | .barWrite _ _ _ _ => true
  | .h2dEnqueueDrop | .d2hDequeue | .mboxIrqTimeout | .hostReadCompletion _ _ => true
  | .counterFlush | .mctpCounterRead | .orderlyShutdown | .secondsSpent _ _ | .eccError _ _ _ => true
  | .powerCapCheck _ | .thermalWarning _ _ | .fatalThermal _ _ => true
  | .powerOn _ _ | .moduleReset | .powerLoss => true
  | _ => false

/-- Runs an event. -/
def runEv (e : Ev) (s : State) : Res :=
  if s.mgmt.bootFailed && !inFailedBoot e then .next s else evMeaning e s

/-! ## A slot's turn (R220, R224, R284, R287) -/

/-- The checks of a thread line at the word to be issued, after subcode 6 and in the order of R287; an address that is no
multiple of 4 names no word (R331). -/
def threadLineFault (sl : Slot) (k : Link) (word : Nat) : Option Nat :=
  match lineFault 0 k with
  | some n => some n
  | none =>
    if word = 0 || k.cnt < word || sl.pc.toNat % 4 != 0 then some 3
    else if sl.entry && (!k.ent || word != 1) then some 4
    else none

/-- The instruction at word n of a line: its word, the fall-through address and whether the chain ends there (R284); past
the end of a chain the address is that after the instruction (R330). -/
def fetchedAt (pc : Word) (k : Link) (ws : List (BitVec 32)) (word : Nat) : Fetched :=
  let w := ws.getD word 0
  let len := if isLong w.toNat then 2 else 1
  if word + len ≤ k.cnt then ⟨w, pc, pc + BitVec.ofNat 64 (4 * len), false, k.q⟩
  else if k.next = 0 then ⟨w, pc, pc + BitVec.ofNat 64 (4 * len), true, k.q⟩
  else ⟨w, pc, lineOf pc + BitVec.ofInt 64 (64 * k.next) + 4, false, k.q⟩

/-- Issues from a line: the instruction it holds at the word, or the illegal-instruction trap (R285, R303). -/
def issueLine (s : State) (pc : Word) (k : Link) (ws : List (BitVec 32)) (word : Nat) : Res :=
  let f := fetchedAt pc k ws word
  let s := s.setSched { s.sched with ir := f }
  if isLong f.word.toNat && k.cnt < word + 2 then execIllegalInstruction f.word s
  else match decodeThread f.word.toNat (ws.getD (word + 1) 0).toNat with
    | .ok i => exec i s
    | .error _ => execIllegalInstruction f.word s

/-- Fetches and issues the instruction at a slot's pc (R287, R290): past the end of a chain the slot takes subcode 5, else
the line is fetched. A miss loses the turn. -/
def issueAt (id : SlotId) (s : State) : Res :=
  let sl := s.slotAt id
  let trap (n : Nat) : Trap := ⟨trapFetch, n, sl.pc, sl.pc⟩
  if sl.fell then .next (s.raise id (trap 5))
  else match fetchLine s id.core sl.task.job (!sl.sup) sl.pc with
  | (.miss, s) => .next s
  | (.fault c lv, s) => .next (s.parkFault c accFetch 6 lv sl.pc)
  | (.zpage pte, s) => .next (s.askPage pte sl.task.job sl.pc sl.task.launch (.thread id))
  | (.bad, s) => .next (s.raise id (trap 6))
  | (.line ws, s) =>
    let k := linkOf (ws.headD 0)
    let word := bits sl.pc.toNat 5 2
    match threadLineFault sl k word with
    | some n => .next (s.raise id (trap n))
    | none => issueLine s sl.pc k ws word

/-- Completes the acquire of the issuing slot once its read has been performed (R267, R352). -/
def settleAcquire (s : State) : State :=
  match s.me.acq with
  | some sc =>
    if s.me.outst = 0 then (s.acquireLines s.here sc.toNat).setMe { s.me with acq := none } else s
  | none => s

/-- A slot's turn: it ends when its task has been rolled back or cancelled, is saved, takes a quiet-point trap, or
issues one instruction (R220, R134, R149, R152). A save that has begun is not abandoned (R152). -/
def slotTurn (id : SlotId) (s : State) : Res :=
  let s := s.setSched { s.sched with cur := id }
  let sl := s.slotAt id
  let begun := match sl.st with
    | .saving (some _) => true
    | _ => false
  if sl.st == .free || sl.st == .away || begun then .next s
  else if sl.doomed then .next (s.dropThread id)
  else if taskCancelled s sl.task then .next (s.killTask id)
  else if sl.halted then .next s
  else if sl.st == .saving none then execSave id s
  else if sl.st != .running then .next s
  else match sl.quietBad with
    | some (n, v) => .next ((s.setMe { sl with quietBad := none }).raise id ⟨trapQuiet, n, v, sl.pc⟩)
    | none => issueAt id (settleAcquire s)

/-! ## A guest's request at its module (notes/assumptions/91) -/

/-- The answer goes back to the guest, and the slot that served it is free; the core keeps the task as the request leaves
it. -/
def State.answerRequest (s : State) (id : SlotId) (q : GuestReq) (trap : Option (Nat × Nat × Word × GuestReq)) : State :=
  let sl := s.slotAt id
  let t0 := s.dcoreNow (packetTask q.m)
  let c := s.coreAt id.core
  let s := match c.away.find? (sameTask t0) with
    | some t => s.setCore id.core { c with away := c.away.erase t ++ [sl.task] }
    | none => s
  let regs := if trap.isSome then [] else q.dests.map (fun i => (i, if i < 32 then sl.g i else 0))
  ((s.respond 1 q.m.src q.m.slot id.core (.answer ⟨coreOf q.m.src, q.m.slot⟩ regs sl.task.nest trap))).freeSlot id

/-- The turn of a slot that serves a guest's request: the instruction is tried until it issues, and answered once its results
stand or it has met a trap. -/
def serveTurn (id : SlotId) (s : State) : Res :=
  let sl := s.slotAt id
  match sl.serving with
  | none => .next s
  | some q =>
    let pc := sext54 q.m.h0
    let s := s.setSched { s.sched with cur := id, ir := ⟨q.word, pc, pc + 4, false, false⟩ }
    if sl.doomed || staleTask s sl.task || taskCancelled s sl.task then .next (s.freeSlot id)
    else match sl.st with
      | .trapHeld t => .next (s.answerRequest id q (some (t.cause, t.sub, t.val, q)))
      | .running =>
        if sl.halted then .next s
        else if sl.pc = pc then
          match decodeThread q.word.toNat 0 with
          | .ok i => exec i s
          | .error _ => execIllegalInstruction q.word s
        else .next (if q.dests.any (fun i => (sl.cell i).pend) then s else s.answerRequest id q none)
      | _ => .next s

/-! ## A matrix stream's array cycle (R240, R289, R160) -/

/-- Runs the command at hand of a stream. -/
def matrixCommand (k : Nat) (m : MxStream) (s : State) : Res :=
  match m.cmds[m.idx]? with
  | none => execStreamDecodeCondition false k 0 m.ends s
  | some (w0, w1) =>
    match decodeMatrix w0.toNat w1.toNat with
    | .error r => execStreamDecodeCondition false k 0 r.dsub s
    | .ok i =>
      if m.pause.isNone then exec i s
      else match i with
        | .mmwait _ core row full =>
          if waitMet s (clusterOf k) core.toNat row.toNat full then execMmwaitMatch k s else .next s
        | _ => exec i s

/-- The turn of a core's matrix stream. A stopped stream, and under a power limit one that has not begun, loses its array
cycles, and its stamps move by them (R160, R18). -/
def matrixTurn (k : Nat) (s : State) : Res :=
  match (s.coreAt k).mx with
  | [] => .next s
  | m :: _ =>
    let s := s.setSched { s.sched with cur := ⟨k, m.slot⟩ }
    if m.stop && m.off.isNone then .next (s.dropMx k)
    else if mxHeld s k m && m.off.isNone then
      .next (if m.pause.isNone && ((s.arrayAt k).cycle (parity k) s.now).isSome
        then s.setMx k { m with base := m.base + 1, free := m.free + 1 } else s)
    else matrixCommand k m s

/-! ## A copy stream's turn (R250, R285, R289) -/

/-- Runs the command at hand of a copy stream from its line. -/
def copyCommand (cl sid : Nat) (c : CpStream) (ws : List (BitVec 32)) (s : State) : Res :=
  let l := linkOf (ws.headD 0)
  let at_ (i : Nat) : Nat := (ws.getD (4 * c.cmd + i) 0).toNat
  match streamLineFault 1 c.first l with
  | some d => execStreamDecodeCondition true c.core sid d s
  | none =>
    if l.cnt ≤ 4 * c.cmd then
      match nextLine c.line l with
      | none => execStreamDecodeCondition true c.core sid 5 s
      | some nx => .next (s.setCp cl sid { c with line := nx, cmd := 0, first := false })
    else match decodeCopy (at_ 1) (at_ 2) (at_ 3) (at_ 4) with
      | .error r => execStreamDecodeCondition true c.core sid r.dsub s
      | .ok i => exec i s

/-- Fetches a copy stream's line and runs its command. -/
def copyFetch (cl sid : Nat) (c : CpStream) (s : State) : Res :=
  match fetchLine s c.core c.job c.user c.line with
  | (.miss, s) => .next s
  | (.fault cause lv, s) => .next (s.cpFault cl sid c cause lv accFetch c.line)
  | (.zpage pte, s) => .next (s.askPage pte c.job c.line c.launch (.copy cl sid))
  | (.bad, s) => execStreamDecodeCondition true c.core sid 6 s
  | (.line ws, s) => copyCommand cl sid c ws s

/-- The turn of a copy stream: one line. -/
def copyTurn (cl sid : Nat) (s : State) : Res :=
  match s.cp? cl sid with
  | none => .next s
  | some c =>
    let s := s.setSched { s.sched with cur := ⟨cl, sid⟩ }
    let held := (s.slotAt ⟨c.core, c.slot⟩).halted || (s.mgmt.powerLow && c.first && c.idx == 0)
    if c.fin.isSome then .next (s.finishCp cl sid c)
    else if c.stop && (!c.begun || c.waitFor.isSome || c.fault.isSome) then .next ((s.returnAll cl sid).dropCp cl sid)
    else if c.fault.isSome || (held && !c.begun) then .next s
    else match c.waitFor with
      | none => copyFetch cl sid c s
      | some (wait, k, row, full) =>
        if ((s.coreAt k).row row).full != full then .next s
        else if wait then execCpwaitMatch cl sid s else execCopySourceRowFull cl sid s

/-! ## A tool hart's turn (R207 to R211) -/

/-- A tool hart's turn (R207 to R211). -/
def hartTurn (n : Nat) (s : State) : Res :=
  let h := s.hartAt n
  if h.stall.isSome || !hartRuns s n h then .next s
  else match h.interrupt with
  | some i => .next (s.setHart n (h.enter i 0 true))
  | none => match hartFetch s h with
    | .fault c va => hartTrap s n c va
    | .half c =>
      let s := s.setSched { s.sched with hart := n, ir := { Fetched.reset with word := BitVec.ofNat 32 c, pc := h.pc } }
      (expandC c).elim (hartTrap s n 2 c) (fun w => hartBase n w 2 s)
    | .word w =>
      let s := s.setSched { s.sched with hart := n, ir := { Fetched.reset with word := w, pc := h.pc } }
      match decodeTool w.toNat with
      | some i => exec i s
      | none => if w.toNat % 128 = 0x0B then hartTrap s n 2 w.toNat else hartBase n w.toNat 4 s

/-- Runs the turn of an agent. -/
def runTurn (a : Agent) (s : State) : Res :=
  match a with
  | .slot k n => if serves ⟨k, n⟩ then serveTurn ⟨k, n⟩ s else slotTurn ⟨k, n⟩ s
  | .matrix k => matrixTurn k s
  | .copy cl sid => copyTurn cl sid s
  | .hart n => hartTurn n s

/-! ## The clock -/

/-- The packets that may arrive next: the first of each sender and home, with its place (R264). -/
def firstFlights : List Flight → List (Nat × Nat) → Nat → List (Nat × Ev)
  | [], _, _ => []
  | f :: l, seen, i =>
    if seen.contains (f.src, f.dst) then firstFlights l seen (i + 1)
    else (i, f.ev) :: firstFlights l ((f.src, f.dst) :: seen) (i + 1)

/-- The place of an event among those that arrive on one cycle: accesses by ascending originator (R262). -/
def arrivalKey (e : Ev) : Nat :=
  match e with
  | .homeAccess a => a.org + 1
  | _ => 0

/-- Puts an event behind those whose key is not above its own. -/
def putArrival (e : Ev) : List Ev → List Ev
  | [] => [e]
  | x :: l => if arrivalKey x ≤ arrivalKey e then x :: putArrival e l else e :: x :: l

/-- The packets that arrive on this cycle: a free choice (notes/assumptions/5); accesses that arrive together are served in
ascending order of originator (R262). -/
def arrivals (s : State) : List Ev :=
  (((firstFlights s.sched.net [] 0).filter (fun x => s.choice (Config.useDelivery + 64 * x.1))).map (·.2)).foldl
    (fun l e => putArrival e l) []

/-- A cached line may leave its cache at any cycle, written back if it is dirty (R270, notes/assumptions/28). -/
def evictLines (s : State) : State :=
  (s.mem.clines.zipIdx).foldl (fun (s : State) (x : CLine × Nat) =>
    if s.choice (Config.useEvict + 64 * x.2) then s.evictLine x.1 else s) s

/-- So may a code line (R290). -/
def evictCode (s : State) : State :=
  let kept := (s.mem.code.zipIdx).filter (fun x => !s.choice (Config.useCodeLine + 64 * (x.2 + 1)))
  s.setMem { s.mem with code := kept.map (·.1) }

/-- The turns of the slots on a cycle (R220), and behind them those of the slots that serve guests' requests. -/
def slotTurns (s : State) : List Agent :=
  s.cores.filterMap (fun c =>
    let n := (s.now + 16 - coreNum c.1) % 16
    if (mget? c.2.slots n).isSome then some (.slot c.1 n) else none) ++
  s.cores.flatMap (fun c => (c.2.slots.filter (fun x => x.2.serving.isSome)).map (fun x => Agent.slot c.1 x.1))

/-- The turns of the engines and harts: the copy engines and the tool harts work at a rate the spec leaves open. -/
def engineTurns (s : State) : List Agent :=
  (s.work.clusters.filter (fun c => !c.2.copies.isEmpty && s.choice (Config.useCopy + 64 * c.1))).flatMap
      (fun c => c.2.copies.map (fun x => Agent.copy c.1 x.1)) ++
    ((s.cores.filter (fun c => !c.2.mx.isEmpty)).reverse.map (fun c => Agent.matrix c.1)) ++
    ((s.agents.harts.filter (fun h => s.choice (Config.useTool + 64 * h.1))).map (fun h => Agent.hart h.1))

/-- Whether the token engine or the future table has work that waits. -/
def unitsWait (s : State) : Bool :=
  !s.agents.tokOps.isEmpty || !s.agents.calls.isEmpty || !s.agents.futOps.isEmpty

/-- The events of the clock: a dispatch step once a rotation (R144), the weir (R70), the weight-store refresh (R253) and
the counters (R25). -/
def clockEvents (s : State) : List Ev :=
  (if s.now % 16 = 0 then
    ((s.work.clusters.filter (fun c => !c.2.queue.isEmpty)).map (fun c => Ev.dispatchStep c.1)) ++
      (if unitsWait s then [.replayQueueFree] else []) else []) ++
    (if s.now % 27200 = 0 && !s.fabric.weirs.isEmpty then [.weirTick] else []) ++
    (if s.now % 54400 = 0 then [.wsRefresh (s.now % 870400 / 54400)] else []) ++
    (if s.now % 1020000000000 = 0 then [.counterFlush] else [])

/-- The writes of a core that are due are made (R227, R232). -/
def flushCore (s : State) (c : Nat × Core) : State :=
  let s := if c.2.writes.isEmpty then s else s.flushWrites c.1
  if c.2.cWrites.isEmpty then s else s.flushC c.1

/-- The next cycle. -/
def tick (s : State) : State :=
  let s := s.setSched { s.sched with stamp := s.now + 1 }
  let s := s.cores.foldl flushCore s
  let s := evictCode (evictLines s)
  let s := s.drainLinks
  s.setSched { s.sched with inbox := clockEvents s ++ arrivals s, turns := slotTurns s ++ engineTurns s }

/-- The direction of an LGREQ or LRECALL (R42). -/
def leaseKey : Ev → Option Nat
  | .lgreq m | .lrecall m => some m.dir.toNat
  | _ => none

/-- The event that is taken next, and the rest: the oldest, but LGREQs and LRECALLs of one cycle in ascending order of
direction (R42). -/
def nextDue : List Ev → Option (Ev × List Ev)
  | [] => none
  | e :: l =>
    match leaseKey e with
    | none => some (e, l)
    | some d =>
      let best := l.foldl (fun (b : Nat × Ev) x => match leaseKey x with
        | some i => if i < b.1 then (i, x) else b
        | none => b) (d, e)
      some (best.2, (e :: l).erase best.2)

/-- The first timer that is due. -/
def dueTimer (s : State) : Option Timer := s.sched.timers.find? (fun t => decide (t.due ≤ s.now))

/-! ## Placing an instruction at the fetch -/

/-- Where the probes place a line: its address, and the place of the instruction. -/
def probeLine : Nat := 0x4000
def probePc : Nat := 0x4004

/-- The page table of the probe: three levels at 0x1000, 0x2000 and 0x3000, and a leaf that maps 1 GiB of this module
(R103 to R105). -/
def probeTable (self : Nat) : List (Nat × Nat) :=
  [(0x1000, 2 * 1024 + 512), (0x2000, 3 * 1024 + 512), (0x3000, self % 16384 * 2 ^ 50 + 903)]

/-- The sixteen words of the probe's line: a link word of a thread line with CNT 15 and ENT, then the instruction. -/
def probeWords (v : Nat) : List (BitVec 32) :=
  [BitVec.ofNat 32 (15 * 2 ^ 25 + 2 ^ 24), BitVec.ofNat 32 v, BitVec.ofNat 32 (v / 2 ^ 32)] ++ List.replicate 13 0

/-- Memory with the probe's line and page table in it, and nothing cached that would hide them. -/
def probeMem (m : Mem) (self v : Nat) : Mem :=
  let cells := (probeTable self).foldl (fun c x => setBytes c x.1 (natBytes 8 x.2)) m.cells
  let cells := setBytes cells probeLine ((probeWords v).flatMap (fun w => natBytes 4 w.toNat))
  let line := self * 2 ^ 46 + probeLine / 64
  { m with cells := cells, keys := mdel m.keys (probeLine / 64), tcache := [],
           code := ⟨codeLoc 0, line, 0, probeLine / 4096, probeWords v⟩ :: m.code.filter (fun c => !(c.loc == codeLoc 0 && c.line == line)) }

/-- A job 0 whose page table is the probe's. -/
def probeJob : Job :=
  { root := 0x1000, pasid := 0, key := 0, part := 0, running := true, cancelled := false, rootLaunch := 0, launches := [],
    graphs := [], tag := 0, anyFailed := false, started := 0 }

/-- A running slot at the probe's pc, with 32 registers. -/
def probeSlot (sl : Slot) : Slot :=
  { sl with st := .running, pc := BitVec.ofNat 64 probePc, fell := false, entry := false, halted := false, doomed := false,
            quietBad := none, acq := none, task := { sl.task with job := 0, regs := 3 } }

/-- A tool hart at the probe's pc, in U-mode with bare translation and one capability for all of it. -/
def probeHart (h : Hart) : Hart :=
  { h with pc := BitVec.ofNat 64 probePc, stall := none, mMode := false, userMode := true, satp := 0,
           capBase := mput h.capBase 0 0, capCtl := mput h.capCtl 0 (w64 (2 ^ 40 * 2 ^ 16 + 15)) }

/-- The state with a thread instruction where core 0's slot 0 fetches next, and that slot's turn next. -/
def placeThread (s : State) (v : Nat) : State :=
  let s := s.setMem (probeMem s.mem s.fabric.self v)
  let s := s.setWork { s.work with jobs := mput s.work.jobs 0 probeJob }
  let s := s.setSlot ⟨0, 0⟩ (probeSlot (s.slotAt ⟨0, 0⟩))
  s.setSched { s.sched with inbox := [], timers := [], turns := [.slot 0 0] }

/-- The state with a custom-0 instruction where tool hart 0 fetches next, and that hart's turn next. -/
def placeTool (s : State) (v : Nat) : State :=
  let s := s.setMem (probeMem s.mem s.fabric.self v)
  let s := s.setHart 0 (probeHart (s.hartAt 0))
  s.setSched { s.sched with inbox := [], timers := [], turns := [.hart 0] }

end Sys2Proof.Machine
end

