-- ==== Sys2Proof/Machine/Step.lean ====
section
/-! DEFINITION. One step of the machine: the next event that is due, else the next turn of the cycle, else the next
cycle (notes/assumptions/4); and the placing of an instruction where the next step fetches it (notes/assumptions/6). -/

namespace Sys2Proof.Machine

open Sys2Proof

/-- One step. Every step takes a fresh number for its free values (notes/assumptions/7). -/
def step (s : State) : Host.Outcome State Fault Refusal :=
  let s := s.setSched { s.sched with free := s.sched.free + 1 }
  match nextDue s.sched.inbox with
  | some (e, l) => runEv e (s.setSched { s.sched with inbox := l })
  | none =>
    match dueTimer s with
    | some t => runEv t.ev (s.setSched { s.sched with timers := s.sched.timers.erase t })
    | none =>
      match s.sched.turns with
      | a :: l => runTurn a (s.setSched { s.sched with turns := l })
      | [] => .next (tick s)

/-- The state with an instruction stored where the next step fetches: a thread instruction at core 0's slot 0, else a
custom-0 instruction at tool hart 0. -/
def State.withFetchWord (s : State) (nbits w : Nat) : State :=
  let v := w % 2 ^ nbits
  match decodeThread (v % 2 ^ 32) (v / 2 ^ 32 % 2 ^ 32) with
  | .ok _ => placeThread s v
  | .error _ => if (decodeTool (v % 2 ^ 32)).isSome then placeTool s v else placeThread s v

end Sys2Proof.Machine
end

