-- ==== Sys2Proof/Safety.lean ====
section
/-! DEFINITION. The terms in which the statements are written: when an instruction issues, what a step leaves alone, and
the results of the register instructions as spec chapter 13 tabulates them. -/

namespace Sys2Proof.Safety

open Sys2Proof Sys2Proof.Machine

/-! ## Issue -/

/-- Every register that an instruction names lies in the allocation, every source can be read, and no destination has a
write pending (R223 to R225). -/
structure Ready (s : State) (m : Demand) : Prop where
  named : ∀ r ∈ m.names, r < s.me.task.nregs
  reads : ∀ r ∈ m.reads, (s.view s.me r).val?.isSome
  dests : ∀ r ∈ m.dests, (s.me.cell r).pend = false

/-- One source in g[a]. -/
abbrev readsA (a : Reg) (sync : Bool) : Demand := ⟨some (a.toNat, sync), none, none, [], []⟩

/-- A plain read of g[d]. -/
abbrev readsD (d : Reg) : Demand := ⟨none, none, some d.toNat, [], []⟩

/-- No source and a run of n destinations. -/
abbrev writesRun (d : Reg) (n : Nat) : Demand := ⟨none, none, none, [], regRun d.toNat n⟩

/-! ## What a step leaves alone -/

/-- From s to t only the issuing slot may have changed. -/
structure OnlySlot (s t : State) : Prop where
  part : t.part = s.part
  sched : t.sched = s.sched
  mem : t.mem = s.mem
  arrays : t.arrays = s.arrays
  work : t.work = s.work
  agents : t.agents = s.agents
  fabric : t.fabric = s.fabric
  host : t.host = s.host
  churn : t.churn = s.churn
  mgmt : t.mgmt = s.mgmt
  cores : ∀ k, k ≠ s.here → t.coreAt k = s.coreAt k
  own : { t.coreAt s.here with slots := [] } = { s.coreAt s.here with slots := [] }
  slots : ∀ n, n ≠ s.sched.cur.slot → (t.coreAt s.here).slotAt n = (s.coreAt s.here).slotAt n

/-- A slot keeps everything but its general registers and where control stands: pointers, trap registers, level, task,
counts, tokens and what it waits for. -/
def KeepsSlot (a b : Slot) : Prop :=
  b = { a with st := b.st, pc := b.pc, fell := b.fell, entry := b.entry, quietBad := b.quietBad, lines := b.lines,
               regs := b.regs, latches := b.latches, expired := b.expired, late := b.late }

/-- The cell of a register once the synchronising reads of a demand are made: an ordinary register so read is empty
(R225). -/
def cellAfter (s : State) (m : Demand) (r : Nat) : RegCell := (s.taken m).cell r

/-- An instruction issued and wrote one result, plain or transient, or none where d is g0 (R221, R223, R225, R226), and
did nothing else but go on at an address. -/
structure WroteAt (s t : State) (m : Demand) (d : Nat) (tr : Bool) (v : Word) (target : Word) : Prop where
  only : OnlySlot s t
  keeps : KeepsSlot s.me t.me
  pc : t.me.pc = target
  plain : d ≠ 0 → tr = false → t.me.cell d = ⟨v, true, false⟩ ∧ t.me.latch? d = none ∧ t.me.expired.getLsbD d = false
  latch : d ≠ 0 → tr = true → t.me.latch? d = some ⟨d, v, s.now⟩ ∧ t.me.expired.getLsbD d = false
  kept : ∀ r, r ≠ d ∨ d = 0 ∨ tr = true → t.me.cell r = cellAfter s m r

/-- The same, going on at the fall-through address (R284). -/
abbrev Wrote (s t : State) (m : Demand) (d : Nat) (tr : Bool) (v : Word) : Prop :=
  WroteAt s t m d tr v s.sched.ir.npc

/-- An instruction issued, wrote no register and went on at an address. -/
abbrev WentTo (s t : State) (m : Demand) (target : Word) : Prop := WroteAt s t m 0 false 0 target

/-- An instruction issued, wrote a run of registers plainly and went on at the fall-through address. -/
structure WroteRun (s t : State) (m : Demand) (d : Nat) (vs : List Word) : Prop where
  only : OnlySlot s t
  keeps : KeepsSlot s.me t.me
  pc : t.me.pc = s.sched.ir.npc
  run : ∀ i v, vs[i]? = some v → d + i ≠ 0 → t.me.cell (d + i) = ⟨v, true, false⟩
  kept : ∀ r, r < d ∨ d + vs.length ≤ r → t.me.cell r = cellAfter s m r

/-- An instruction whose demand is met, and whose destination lies in the allocation, completes with one result. -/
def Completes (i : Instr) (s : State) (m : Demand) (d : Nat) (v : Word) : Prop :=
  ∃ t, exec i s = .next t ∧ Wrote s t m d false v

/-! ## Register results (spec 13) -/

/-- An instruction that writes one register from its sources: its demand, its destination, whether that is transient, and
the result. -/
structure RegForm where
  demand : Demand
  d : Reg
  tr : Bool
  value : Vals → Word

/-- The form of a G3 instruction with two sources, and d as a third where `third` says so. -/
def form3 (o : Ops3) (third : Bool) (f : Word → Word → Word → Word) : RegForm :=
  ⟨demand3 o third, o.d, o.t, fun v => f v.a v.b v.d⟩

/-- The form of a G3 instruction with one source. -/
def form2 (o : Ops2) (f : Word → Word) : RegForm := ⟨demand2 o, o.d, o.t, fun v => f v.a⟩

/-- The form of a GI instruction. -/
def formI (d a : Reg) (sa : Bool) (f : Word → Word) : RegForm := ⟨giDemand d a sa, d, false, fun v => f v.a⟩

/-- The integer results of R313, R315, R316 and R317. -/
def integerForm : Instr → Option RegForm
  | .add o w => some (form3 o false fun a b _ => fin w (sOf w a + sOf w b))
  | .sub o w => some (form3 o false fun a b _ => fin w (sOf w a - sOf w b))
  | .mul o w => some (form3 o false fun a b _ => fin w (sOf w a * sOf w b))
  | .mulh o w => some (form3 o false fun a b _ => fin w (Int.fdiv (sOf w a * sOf w b) (2 ^ widthOf w)))
  | .mulhn o w => some (form3 o false fun a b _ => fin w (uOf w a * uOf w b / 2 ^ widthOf w : Nat))
  | .madd o w => some (form3 o true fun a b d => fin w (sOf w d + sOf w a * sOf w b))
  | .min o w => some (form3 o false fun a b _ => fin w (Min.min (sOf w a) (sOf w b)))
  | .max o w => some (form3 o false fun a b _ => fin w (Max.max (sOf w a) (sOf w b)))
  | .minn o w => some (form3 o false fun a b _ => fin w (Min.min (uOf w a) (uOf w b) : Nat))
  | .maxn o w => some (form3 o false fun a b _ => fin w (Max.max (uOf w a) (uOf w b) : Nat))
  | .abs o w => some (form2 o fun a => fin w (sOf w a).natAbs)
  | .and o => some (form3 o false fun a b _ => a &&& b)
  | .or o => some (form3 o false fun a b _ => a ||| b)
  | .xor o => some (form3 o false fun a b _ => a ^^^ b)
  | .andn o => some (form3 o false fun a b _ => a &&& ~~~b)
  | .orn o => some (form3 o false fun a b _ => a ||| ~~~b)
  | .xnor o => some (form3 o false fun a b _ => ~~~(a ^^^ b))
  | .shl o w => some (form3 o false fun a b _ => if b.toNat < widthOf w then fin w (uOf w a * 2 ^ b.toNat : Nat) else 0)
  | .shr o w => some (form3 o false fun a b _ => if b.toNat < widthOf w then fin w (uOf w a / 2 ^ b.toNat : Nat) else 0)
  | .sar o w => some (form3 o false fun a b _ =>
      if b.toNat < widthOf w then fin w (Int.fdiv (sOf w a) (2 ^ b.toNat)) else if sOf w a < 0 then fin w (-1) else 0)
  | .rol o w => some (form3 o false fun a b _ => fin w (rolN (widthOf w) (uOf w a) b.toNat : Nat))
  | .ror o w => some (form3 o false fun a b _ => fin w (rolN (widthOf w) (uOf w a) (widthOf w - b.toNat % widthOf w) : Nat))
  | .clz o w => some (form2 o fun a => w64 (clzN (widthOf w) (uOf w a)))
  | .ctz o w => some (form2 o fun a => w64 (ctzN (widthOf w) (uOf w a)))
  | .popc o w => some (form2 o fun a => w64 (popN (widthOf w) (uOf w a)))
  | .brev o => some (form2 o fun a => w64 (revN 64 a.toNat))
  | .bswap o => some (form2 o fun a => w64 (bswapN 8 a.toNat))
  | .sext o w => some (form2 o fun a =>
      if w = 0 then (a.truncate 8).signExtend 64 else if w = 1 then (a.truncate 16).signExtend 64
      else (a.truncate 32).signExtend 64)
  | .zext o w => some (form2 o fun a =>
      if w = 0 then (a.truncate 8).zeroExtend 64 else if w = 1 then (a.truncate 16).zeroExtend 64
      else (a.truncate 32).zeroExtend 64)
  | .bext o => some (form3 o false fun a b _ => bextW a b)
  | .bins o => some (form3 o true fun a b d => binsW a b d)
  | .addsc o w => some (form3 o false fun a b _ => a + b * BitVec.ofNat 64 (2 ^ w.toNat))
  | _ => none

/-- The results of the compares, of SEL and of the immediates (R318 to R320). -/
def compareForm : Instr → Option RegForm
  | .cmpeq o w => some (form3 o false fun a b _ => boolWord (decide (uOf (cmpWidth w) a = uOf (cmpWidth w) b)))
  | .cmpne o w => some (form3 o false fun a b _ => boolWord (decide (uOf (cmpWidth w) a ≠ uOf (cmpWidth w) b)))
  | .cmplt o w => some (form3 o false fun a b _ => boolWord (decide (sOf (cmpWidth w) a < sOf (cmpWidth w) b)))
  | .cmpltn o w => some (form3 o false fun a b _ => boolWord (decide (uOf (cmpWidth w) a < uOf (cmpWidth w) b)))
  | .cmple o w => some (form3 o false fun a b _ => boolWord (decide (sOf (cmpWidth w) a ≤ sOf (cmpWidth w) b)))
  | .cmplen o w => some (form3 o false fun a b _ => boolWord (decide (uOf (cmpWidth w) a ≤ uOf (cmpWidth w) b)))
  | .sel o => some (form3 o true fun a b d => if d ≠ 0 then a else b)
  | .addi o => some (formI o.d o.a o.sa fun a => a + o.imm.signExtend 64)
  | .andi o => some (formI o.d o.a o.sa fun a => a &&& o.imm.signExtend 64)
  | .ori o => some (formI o.d o.a o.sa fun a => a ||| o.imm.zeroExtend 64)
  | .xori o => some (formI o.d o.a o.sa fun a => a ^^^ o.imm.zeroExtend 64)
  | .shli o => some (formI o.d o.a o.sa fun a => shlW 0 a o.c.toNat)
  | .shri o => some (formI o.d o.a o.sa fun a => shrW 0 a o.c.toNat)
  | .sari o => some (formI o.d o.a o.sa fun a => sarW 0 a o.c.toNat)
  | .cmpeqi o => some (formI o.d o.a o.sa fun a => boolWord (decide (a = o.imm.signExtend 64)))
  | .cmplti o => some (formI o.d o.a o.sa fun a => boolWord (decide (a.toInt < (o.imm.signExtend 64).toInt)))
  | .muli o => some (formI o.d o.a o.sa fun a => BitVec.ofInt 64 (a.toInt * o.imm.toInt))
  | .ldi d imm => some ⟨{ noDemand with dests := [d.toNat] }, d, false, fun _ => imm.signExtend 64⟩
  | .ldih d imm => some ⟨{ noDemand with d := some d.toNat, dests := [d.toNat] }, d, false,
      fun v => (imm ++ v.d.truncate 32 : BitVec 64)⟩
  | _ => none

/-- The float results of R322 to R329. -/
def floatForm : Instr → Option RegForm
  | .fadd o rm f => some (form3 o false fun a b _ => w64 ((fmtOf f).enc rm.toNat ((fv f a).add rm.toNat (fv f b))))
  | .fsub o rm f => some (form3 o false fun a b _ => w64 ((fmtOf f).enc rm.toNat ((fv f a).add rm.toNat (fv f b).neg)))
  | .fmul o rm f => some (form3 o false fun a b _ => w64 ((fmtOf f).enc rm.toNat ((fv f a).mul (fv f b))))
  | .ffma o rm f => some (form3 o true fun a b d =>
      w64 ((fmtOf f).enc rm.toNat (((fv f a).mul (fv f b)).add rm.toNat (fv f d))))
  | .fmin o f => some (form3 o false fun a b _ => w64 ((fmtOf f).minmax false a.toNat b.toNat))
  | .fmax o f => some (form3 o false fun a b _ => w64 ((fmtOf f).minmax true a.toNat b.toNat))
  | .fabs o f => some (form2 o fun a => a &&& fieldMask f &&& ~~~signMask f)
  | .fneg o f => some (form2 o fun a => (a &&& fieldMask f) ^^^ signMask f)
  | .fcpys o f => some (form3 o false fun a b _ => (a &&& fieldMask f &&& ~~~signMask f) ||| (b &&& signMask f))
  | .fcmpeq o f => some (form3 o false fun a b _ =>
      boolWord (!(fv f a).isNan && !(fv f b).isNan && (fv f a).cmp (fv f b) == .eq))
  | .fcmplt o f => some (form3 o false fun a b _ =>
      boolWord (!(fv f a).isNan && !(fv f b).isNan && (fv f a).cmp (fv f b) == .lt))
  | .fcmple o f => some (form3 o false fun a b _ =>
      boolWord (!(fv f a).isNan && !(fv f b).isNan && (fv f a).cmp (fv f b) != .gt))
  | .fcmpun o f => some (form3 o false fun a b _ => boolWord ((fv f a).isNan || (fv f b).isNan))
  | .fclass o f => some (form2 o fun a => w64 ((fmtOf f).cls a.toNat))
  | .fcvt o x rm f => some (form2 o fun a => w64 ((fmtOf x).enc rm.toNat (fv f a)))
  | .fcvti o x rm f => some (form2 o fun a => floatToInt x rm.toNat (fv f a))
  | .icvtf o x rm f => some (form2 o fun a => w64 ((fmtOf f).enc rm.toNat (FVal.ofInt (intOperand x a))))
  | .frnd o rm f => some (form2 o fun a => w64 ((fmtOf f).rnd rm.toNat a.toNat))
  | _ => none

/-- The instructions whose result is written after a latency: the form and the rotations (R221, R314, R322). -/
def lateForm : Instr → Option (RegForm × Nat)
  | .div o w => some (⟨demand3 { o with t := false } false, o.d, o.t, fun v => divS w v.a v.b⟩, 4)
  | .divn o w => some (⟨demand3 { o with t := false } false, o.d, o.t, fun v => divU w v.a v.b⟩, 4)
  | .rem o w => some (⟨demand3 { o with t := false } false, o.d, o.t, fun v => remS w v.a v.b⟩, 4)
  | .remn o w => some (⟨demand3 { o with t := false } false, o.d, o.t, fun v => remU w v.a v.b⟩, 4)
  | .fdiv o rm f => some (⟨demand3 { o with t := false } false, o.d, o.t,
      fun v => w64 ((fmtOf f).div rm.toNat (fv f v.a) (fv f v.b))⟩, 3)
  | .fsqrt o rm f => some (⟨demand2 { o with t := false }, o.d, o.t, fun v => w64 ((fmtOf f).sqrt rm.toNat (fv f v.a))⟩, 3)
  | _ => none

/-- The conditional branches: the register read, the displacement and when the branch is taken (R295, R330). -/
def branchForm : Instr → Option (Reg × BitVec 12 × (Word → Bool))
  | .brz a disp => some (a, disp, fun x => decide (x = 0))
  | .brnz a disp => some (a, disp, fun x => decide (x ≠ 0))
  | .brltz a disp => some (a, disp, fun x => decide (x.toInt < 0))
  | .brgez a disp => some (a, disp, fun x => decide (0 ≤ x.toInt))
  | .brbit a bit disp => some (a, disp, fun x => x.getLsbD bit.toNat)
  | _ => none

/-- The instructions of majors 0x01 and 0x2E that write one register or an even pair from the machine's state: the first
register, the number of registers and their values (R403, R409 to R412). -/
def readForm (s : State) : Instr → Option (Reg × List Word)
  | .stamp d => some (d, [w64 s.now])
  | .feat d sel => some (d, [featValue s s.me sel.toNat])
  | .impl d sel => some (d, [implValue s sel.toNat])
  | .srr d n =>
    if sysKnown n.toNat && (s.me.sup || n.toNat < 0x18) && (s.onDcore || (n.toNat != 0x13 && n.toNat != 0x14)) then
      some (d, [sysValue s s.me n.toNat])
    else none
  | .vtkey d => if d.toNat % 2 = 0 then some (d, [s.me.task.pkt.w0, if s.me.task.ord then s.me.task.pkt.w1 else 0]) else none
  | .levee d => if d.toNat % 2 = 0 then some (d, [w64 (s.leveeHere s.me), w64 (s.leveeHere s.me / 2 ^ 64)]) else none
  | _ => none

/-- The privileged instructions that nothing else checks first (R48, R412, R418). -/
def privileged (s : State) : Instr → Bool
  | .eret | .wsopen _ | .wsclose _ | .keykill _ | .haltgStop _ | .haltgStopl _ | .haltgResume _ => true
  | .srw _ n => sysKnown n.toNat
  | .tlbiPage _ scope | .tlbiJob _ _ scope | .tlbiAll scope => scope != 0
  | .lease _ | .leaserel _ => !s.fabric.usrlease && s.part == .ny7740
  | _ => false

/-! ## Which engine an instruction belongs to -/

/-- The commands of matrix streams (R376). -/
def matrixInstr : Instr → Bool
  | .mmnop _ | .mma _ _ | .mmaz _ _ | .mmst _ _ | .mmld _ _ | .mmz _ _ | .mmwait _ _ _ _ | .mmsig _ _ | .mmend _ => true
  | _ => false

/-- The commands of copy streams (R383). -/
def copyInstr : Instr → Bool
  | .cpnop | .cpget _ | .cpput _ | .cpmc _ | .cpws _ | .cpww _ | .cpfill _ _ _ _ | .cptag _ _ _ _ | .cpwait _ _ _
  | .cpsig _ | .cpend => true
  | _ => false

/-- The instructions of the tool cores (R211). -/
def toolInstr : Instr → Bool
  | .futArgTake _ _ _ | .futArgLen _ _ _ | .futArgDeadline _ _ _ | .futArgTool _ _ _ | .futArgCopy _ _ _
  | .futResolve _ _ _ | .futFail _ _ _ | .capProbe _ _ _ => true
  | _ => false

/-- The instructions of threads: every other one that has an encoding (chapter 12). -/
def threadInstr (i : Instr) : Bool := !(encodeNats i).isEmpty && !matrixInstr i && !copyInstr i && !toolInstr i

/-! ## Turns -/

/-- The state in which the turn of a slot runs: the free counter has moved, the turn is taken, the slot issues. -/
def atTurn (s : State) (id : SlotId) (rest : List Agent) : State :=
  s.setSched { s.sched with free := s.sched.free + 1, turns := rest, cur := id }

/-- The issuing slot runs and nothing keeps it from issuing: it is not stopped, rolled back, cancelled or due a
quiet-point trap (R134, R149, R158, R171, R220). -/
def mayIssue (s : State) : Bool :=
  decide (s.sched.cur.slot < 16) && s.me.st == .running && !s.me.doomed && !s.me.halted && s.me.quietBad.isNone && !taskCancelled s s.me.task

/-! ## Events -/

/-- The row of the table that an event stands for, with the same operands. -/
def evRow (e : Ev) (i : Instr) : Prop :=
  match e with
  | .keySweepDone key => i = .keySweepDone key
  | .tlbiComplete id => i = .tlbiComplete id
  | .mmwaitMatch core => i = .mmwaitMatch core
  | .cpwaitMatch cluster sid => i = .cpwaitMatch cluster sid
  | .copySourceRowFull cluster sid => i = .copySourceRowFull cluster sid
  | .copyWritebackAck cluster sid => i = .copyWritebackAck cluster sid
  | .lineRecall cluster line => i = .lineRecall cluster line
  | .capCsrWrite hart csr mMode v => i = .capCsrWrite hart csr mMode v
  | .toolAccessFault hart cause va => i = .toolAccessFault hart cause va
  | .toolException hart cause served => i = .toolException hart cause served
  | .jobstart m => i = .jobstart m
  | .jobcancel m => i = .jobcancel m
  | .futres m => i = .futres m
  | .mgmtReadCounters m => i = .mgmtReadCounters m
  | .mgmtAttest m => i = .mgmtAttest m
  | .mgmtLoadKey m => i = .mgmtLoadKey m
  | .mgmtSetPowerCap m => i = .mgmtSetPowerCap m
  | .mgmtFirmwareImage m => i = .mgmtFirmwareImage m
  | .h2dBadType m => i = .h2dBadType m
  | .h2dEnqueueDrop => i = .h2dEnqueueDrop
  | .d2hDequeue => i = .d2hDequeue
  | .mboxIrqTimeout => i = .mboxIrqTimeout
  | .atsCompletion pasid page read write => i = .atsCompletion pasid page read write
  | .priResponseSuccess pasid page => i = .priResponseSuccess pasid page
  | .priResponseInvalid pasid page => i = .priResponseInvalid pasid page
  | .priResponseFailure pasid page => i = .priResponseFailure pasid page
  | .priTimeout pasid page => i = .priTimeout pasid page
  | .atsInvalidateRequest pasid base len => i = .atsInvalidateRequest pasid base len
  | .atsInvalidateCompletion pasid base len => i = .atsInvalidateCompletion pasid base len
  | .poolCompletion token data poison => i = .poolCompletion token data poison
  | .poolTimeout token => i = .poolTimeout token
  | .cxlwinWrite n v => i = .cxlwinWrite n v
  | .uetReplyArrival r => i = .uetReplyArrival r
  | .uetUndeliverable handle => i = .uetUndeliverable handle
  | .faultRingRetry launch => i = .faultRingRetry launch
  | .replayQueueFree => i = .replayQueueFree
  | .freplayReplay token => i = .freplayReplay token
  | .freplayAbort token => i = .freplayAbort token
  | .heatDecay => i = .heatDecay
  | .heatcfgWrite v => i = .heatcfgWrite v
  | .migrate cmd => i = .migrate cmd
  | .compress cmd => i = .compress cmd
  | .decompress cmd => i = .decompress cmd
  | .churnQOverflow cmd => i = .churnQOverflow cmd
  | .freeze cmd => i = .freeze cmd
  | .copy cmd => i = .copy cmd
  | .release cmd => i = .release cmd
  | .done cmd => i = .done cmd
  | .zPageDecompress token => i = .zPageDecompress token
  | .freeFramePoll => i = .freeFramePoll
  | .dispatchStep cluster => i = .dispatchStep cluster
  | .waitWordRead cluster task => i = .waitWordRead cluster task
  | .footprintFetchDone id => i = .footprintFetchDone id
  | .save id => i = .save id
  | .saveComplete id => i = .saveComplete id
  | .taskPacketArrival cluster src colour pkt => i = .taskPacketArrival cluster src colour pkt
  | .overflowReturn cluster => i = .overflowReturn cluster
  | .messageArrival core level src msg => i = .messageArrival core level src msg
  | .messagePlacement core level => i = .messagePlacement core level
  | .msgack id launch task => i = .msgack id launch task
  | .spawnRequestArrival r => i = .spawnRequestArrival r
  | .spawnwResend r => i = .spawnwResend r
  | .primarySlotFree core => i = .primarySlotFree core
  | .launchComplete idx => i = .launchComplete idx
  | .phaseAdvance part => i = .phaseAdvance part
  | .lmigGo v => i = .lmigGo v
  | .lmigStreamDone => i = .lmigStreamDone
  | .lmigFwdClear n => i = .lmigFwdClear n
  | .qovfWrite d v => i = .qovfWrite d v
  | .partcfgWrite n v => i = .partcfgWrite n v
  | .corecfgWrite core v => i = .corecfgWrite core v
  | .mxmodeWrite core v => i = .mxmodeWrite core v
  | .fabricCfgWrite v => i = .fabricCfgWrite v
  | .registerWrite r v => i = .registerWrite r v
  | .routeHop p => i = .routeHop p
  | .norouteArrival p => i = .norouteArrival p
  | .homeAccess a => i = .homeAccess a
  | .migrantArrival m => i = .migrantArrival m
  | .migrantEntry core => i = .migrantEntry core
  | .mack id => i = .mack id
  | .mnak id => i = .mnak id
  | .migrantResend id => i = .migrantResend id
  | .pwack id count => i = .pwack id count
  | .pwackCombineTimeout id => i = .pwackCombineTimeout id
  | .weirMark target => i = .weirMark target
  | .weirTick => i = .weirTick
  | .weirFree => i = .weirFree
  | .weirAdmit target => i = .weirAdmit target
  | .peerOwnershipRequest line modid agent => i = .peerOwnershipRequest line modid agent
  | .peerRecallDone line => i = .peerRecallDone line
  | .peerLoss modid => i = .peerLoss modid
  | .gprep m => i = .gprep m
  | .gpack m => i = .gpack m
  | .gpnak m => i = .gpnak m
  | .gcommit m => i = .gcommit m
  | .gstart m => i = .gstart m
  | .gabort m => i = .gabort m
  | .gstop m => i = .gstop m
  | .gangTaskFetchDone init launch => i = .gangTaskFetchDone init launch
  | .gangPrepareTimeout launch => i = .gangPrepareTimeout launch
  | .gangStartTimeout launch => i = .gangStartTimeout launch
  | .orphanTimeout init launch => i = .orphanTimeout init launch
  | .lgreq m => i = .lgreq m
  | .lgack m => i = .lgack m
  | .lgnak m => i = .lgnak m
  | .lshrink m => i = .lshrink m
  | .lrecall m => i = .lrecall m
  | .lswap m next => i = .lswap m next
  | .llit m => i = .llit m
  | .lalive m => i = .lalive m
  | .laliveSend => i = .laliveSend
  | .sluiceBadType m => i = .sluiceBadType m
  | .lgreqTimeout d => i = .lgreqTimeout d
  | .reversionResend d => i = .reversionResend d
  | .leaseExpiry d => i = .leaseExpiry d
  | .retuneTimeout d lane => i = .retuneTimeout d lane
  | .drainDone d lane => i = .drainDone d lane
  | .drainTimeout d lane => i = .drainTimeout d lane
  | .laneFailure d lane => i = .laneFailure d lane
  | .slotClear d lane => i = .slotClear d lane
  | .directionTrained d modid => i = .directionTrained d modid
  | .directionDown d => i = .directionDown d
  | .leveeSweepStart part => i = .leveeSweepStart part
  | .sweep m => i = .sweep m
  | .report m => i = .report m
  | .levpub m => i = .levpub m
  | .csweepStart idx => i = .csweepStart idx
  | .csweep m => i = .csweep m
  | .creport m => i = .creport m
  | .rollBack core victims => i = .rollBack core victims
  | .antiMessageArrival cluster colour hdr => i = .antiMessageArrival cluster colour hdr
  | .futureQueueEntry ctx => i = .futureQueueEntry ctx
  | .futureTimeout idx => i = .futureTimeout idx
  | .injection idx => i = .injection idx
  | .waitingToCalling => i = .waitingToCalling
  | .syncRetry a => i = .syncRetry a
  | .codeLineFill cluster line => i = .codeLineFill cluster line
  | .wsRefresh group => i = .wsRefresh group
  | .powerCapCheck average => i = .powerCapCheck average
  | .thermalWarning die temp => i = .thermalWarning die temp
  | .fatalThermal die temp => i = .fatalThermal die temp
  | .counterFlush => i = .counterFlush
  | .mctpCounterRead => i = .mctpCounterRead
  | .powerOn verified digests => i = .powerOn verified digests
  | .moduleReset => i = .moduleReset
  | .powerLoss => i = .powerLoss
  | .multiRotationResult id => i = .multiRotationResult id
  | .hostReadCompletion token data => i = .hostReadCompletion token data
  | .lineFill cluster dev line data => i = .lineFill cluster dev line data
  | .creditReturn modid set flits => i = .creditReturn modid set flits
  | .priEnable pasid => i = .priEnable pasid
  | .orderlyShutdown => i = .orderlyShutdown
  | .toolCoreAccess hart va size k => i = .toolCoreAccess hart va size k
  | .secondsSpent temps bers => i = .secondsSpent temps bers
  | .illegalInstruction w => i = .illegalInstruction w
  | .streamDecodeCondition copy core sid dsub => i = .streamDecodeCondition copy core sid dsub
  | .sluiceIn _ _ _ _ _ | .tuneBegin _ _ | .rxTune _ _ | .rxLock _ _ | .laneWindow _ _ _ _ | .flitCheck _ _ _ => False
  | .linkAck _ _ | .packetIn _ _ _ | .resultArrival _ _ _ | .abortArrival _ _ | .spawnReply _ _ => False
  | .requestArrival _ | .answer _ _ _ _ | .lineAsked _ _ _ _ | .lineDataArrival _ _ _ _ _ _ => False
  | .lineStored _ _ _ _ _ _ _ | .lineWritten _ _ _ | .lineFaulted _ _ _ _ | .recallArrival _ _ => False
  | .recalledArrival _ _ _ | .tlbiArrival _ _ _ _ | .tlbiReply _ | .phaseArrival _ _ | .phaseReply _ => False
  | .cancelAgain _ | .promoteArrival _ _ _ | .promoted _ | .haltDone _ _ _ | .stopArrival _ _ _ _ _ => False
  | .endedArrival _ _ _ _ _ _ _ | .commitGo _ | .doomedArrival _ _ _ _ | .recordArrival _ _ _ _ _ _ => False
  | .cancelledArrival _ _ | .launchOver _ _ _ | .churnGo _ | .eccError _ _ _ | .barRead _ _ _ | .barWrite _ _ _ _ => False

/-! ## Global accesses (spec 14) -/

/-- A global access of a thread: its demand, its address and alignment, its first destination, what it does at its home,
and what must hold before it is sent beside the demand. -/
structure MemForm where
  demand : Demand
  address : Vals → Word
  align : Nat
  d : Nat
  how : Vals → Perform
  ready : State → Bool

/-- In an ordered task the instruction takes the ordered-violation trap (R165). -/
def plainTask (s : State) : Bool := !s.me.task.ord

/-- The accesses of R340, R342, R344 (in a plain task), R349 and R350. -/
def memForm : Instr → Option MemForm
  | .ld d base sb f disp => some ⟨⟨some (base.toNat, sb), none, none, [], [d.toNat]⟩, fun v => v.a + disp.signExtend 64,
      2 ^ (f.toNat % 4), d.toNat, fun _ => .load f, fun _ => true⟩
  | .ldx d base sb b => some ⟨⟨some (base.toNat, sb), some (b.toNat, false), none, [], [d.toNat]⟩, fun v => v.a + v.b,
      8, d.toNat, fun _ => .load 3, fun _ => true⟩
  | .st d base sb size disp => some ⟨⟨some (base.toNat, sb), none, some d.toNat, [], []⟩,
      fun v => v.a + disp.signExtend 64, 2 ^ size.toNat, 0,
      fun v => .store (2 ^ size.toNat) (v.d &&& w64 (2 ^ (8 * 2 ^ size.toNat) - 1)), plainTask⟩
  | .stx d base sb b => some ⟨⟨some (base.toNat, sb), some (b.toNat, false), some d.toNat, [], []⟩, fun v => v.a + v.b,
      8, 0, fun v => .store 8 v.d, plainTask⟩
  | .ldf o => if o.t then none else some ⟨⟨some (o.a.toNat, o.sa), none, none, [], [o.d.toNat]⟩, fun v => v.a, 8, o.d.toNat,
      fun _ => .syncRead, fun _ => true⟩
  | .stf o => some ⟨⟨some (o.a.toNat, o.sa), some (o.b.toNat, o.sb), none, [], []⟩, fun v => v.a, 8, 0,
      fun v => .syncWrite v.b, fun s => plainTask s && s.coreRelease⟩
  | .tagr o => if o.t then none else some ⟨⟨some (o.a.toNat, o.sa), none, none, [], [o.d.toNat]⟩, fun v => v.a, 8, o.d.toNat,
      fun _ => .tagRead, fun _ => true⟩
  | .tagwE a sa => some ⟨readsA a sa, fun v => v.a, 8, 0, fun _ => .tagWrite false, plainTask⟩
  | .tagwF a sa => some ⟨readsA a sa, fun v => v.a, 8, 0, fun _ => .tagWrite true, plainTask⟩
  | .std o size => some ⟨⟨some (o.a.toNat, o.sa), some (o.b.toNat, o.sb), none, [], []⟩, fun v => v.a, 2 ^ size.toNat, 0,
      fun v => .store (2 ^ size.toNat) (v.b &&& w64 (2 ^ (8 * 2 ^ size.toNat) - 1)), plainTask⟩
  | .red o op ty => some ⟨⟨some (o.a.toNat, o.sa), some (o.b.toNat, o.sb), none, [], []⟩, fun v => v.a,
      if ty.toNat < 2 then 4 else 8, 0, fun v => .red op ty v.b, plainTask⟩
  | .amo o op w => if o.t then none else some ⟨⟨some (o.a.toNat, o.sa), some (o.b.toNat, o.sb), none, [], [o.d.toNat]⟩,
      fun v => v.a, if w = 3 then 8 else 4, o.d.toNat, fun v => .amo op w v.b, plainTask⟩
  | .cas o => if o.t then none else some ⟨⟨some (o.a.toNat, o.sa), some (o.b.toNat, o.sb), some o.d.toNat, [], [o.d.toNat]⟩,
      fun v => v.a, 8, o.d.toNat, fun v => .cas v.d v.b, plainTask⟩
  | .cas2 o => if o.t || o.d.toNat % 2 == 1 || o.b.toNat % 2 == 1 then none else
      some ⟨⟨some (o.a.toNat, o.sa), some (o.b.toNat, o.sb), some o.d.toNat, [o.d.toNat + 1, o.b.toNat + 1],
        [o.d.toNat, o.d.toNat + 1]⟩, fun v => v.a, 16, o.d.toNat,
        fun v => .cas2 v.d (v.run.getD 0 0) v.b (v.run.getD 1 0), plainTask⟩
  | _ => none

/-- The access of the issuing slot as its home sees it (R338). -/
def accessOf (s : State) (va : Word) (x : Xlat) (d : Nat) (how : Perform) : Access :=
  { srcs := [⟨gcid s s.here, s.sched.cur.slot, 0⟩], org := s.me.task.dcore * 16 + s.sched.cur.slot, va := va, pa := x.pa,
    pc := s.sched.ir.pc, job := s.me.task.job, launch := s.me.task.launch, part := s.partOfTask s.me.task,
    user := !s.me.sup, ord := s.me.task.ord, handler := s.me.task.handler, release := false, dst := d, how := how }

/-- An access stands at the module's endpoint of the fabric, due now, as a request of its first source (R52, R58, R59):
reductions are class 5, posted writes class 4, the rest class 2. -/
def AccessAway (s t : State) (dst : Nat) (a : Access) : Prop :=
  ∃ p : FabPkt, t.sched.inbox = s.sched.inbox ++ [.routeHop p] ∧ p.pay = .access a ∧ p.response = false ∧ p.dst = dst ∧
    p.dstAddr = a.pa ∧ p.part = a.part ∧ p.launch = a.launch ∧
    (∀ x, a.srcs.head? = some x → p.src = x.core ∧ p.slot = x.slot) ∧
    p.cls = match a.how with
      | .red _ _ _ => 5
      | .store _ _ | .fill _ | .tagWrite _ | .line (some _) => 4
      | _ => 2

/-- The access runs at once where the slot stands (R259, R338): it translates to coherent memory whose home the slot's
core serves, the home finds nothing against it, nothing holds the line, and its word is in the state it asks for. -/
structure AtHome (s : State) (va : Word) (d : Nat) (how : Perform) (x : Xlat) (s1 : State) : Prop where
  translated : translate s s.here s.me.task.job (!s.me.sup) va (opNeed how) = (.ok x, s1)
  coherent : x.ty = 0
  mine : x.dev = s.fabric.self
  served : servesHome s.here x.pa = true
  region : region x.pa < 4
  plain : Machine.region x.pa = 3 → s.me.task.ord = false
  outst : s.me.outst = 0
  acq : s.me.acq = none
  checked : homeCheck s1 (accessOf s va x d how) = none
  free : lineBusy s1 x.pa (opWrites how) = none
  clean : opReads how = true → (s1.heat x.pa).isPoison x.pa = false ∧
    (opSize how = 16 → (s1.heat x.pa).isPoison (x.pa + 8) = false)
  tagged : (how = .syncRead → (s1.heat x.pa).isFull x.pa = true) ∧
    (∀ v, how = .syncWrite v → (s1.heat x.pa).isFull x.pa = false)

/-- What an access does at its home, and the values it returns (R272, R340, R342, R349, R350). -/
def homeEffect (s : State) (a : Access) : State × Word × Word :=
  match a.how with
  | .load f => (s, extendLoad f (s.getHome a (2 ^ (f.toNat % 4))), 0)
  | .store n v => (s.putHome a (natBytes n v.toNat), 0, 0)
  | .fill v => ((s.putHome a (natBytes 8 v.toNat)).setFull a.pa true, 0, 0)
  | .tagWrite full => (s.setFull a.pa full, 0, 0)
  | .tagRead => (s, if s.isFull a.pa then 1 else 0, 0)
  | .syncRead => (s.setFull a.pa false, w64 (s.getHome a 8), 0)
  | .syncWrite v => ((s.putHome a (natBytes 8 v.toNat)).setFull a.pa true, 0, 0)
  | .red op ty v =>
    let n := if ty.toNat < 2 then 4 else 8
    (s.putHome a (natBytes n (amoOp op.toNat (8 * n) (s.getHome a n) v.toNat)), 0, 0)
  | .amo op w v =>
    let n := if w = 3 then 8 else 4
    let old := s.getHome a n
    (s.putHome a (natBytes n (amoOp op.toNat (8 * n) old v.toNat)),
      if w = 1 then (BitVec.ofNat 32 old).signExtend 64 else w64 old, 0)
  | .cas e v =>
    let old := s.getHome a 8
    (if old = e.toNat then s.putHome a (natBytes 8 v.toNat) else s, w64 old, 0)
  | .cas2 el eh nl nh =>
    let lo := s.getHome a 8
    let hi := s.getHome { a with pa := a.pa + 8 } 8
    (if lo = el.toNat && hi = eh.toNat then s.putHome a (natBytes 8 nl.toNat ++ natBytes 8 nh.toNat) else s,
      w64 lo, w64 hi)
  | .barrier _ _ | .line none => (s, 0, 0)
  | .await => (s, 1, 0)
  | .line (some l) => (s.putHome a l, 0, 0)

/-- What an access of the issuing slot does on the cycle it issues where it is local: a store, tag write or reduction to a
scratchpad is only on its way (R232, R259, R338). -/
def issueEffect (s : State) (a : Access) : State × Word × Word :=
  if Machine.region a.pa = 3 && opPosted a.how then
    (match a.how with
      | .store n v =>
        let k := bits a.pa 31 16
        s.setCore k { s.coreAt k with
          writes := (s.coreAt k).writes ++ [⟨s.now + 4, s.sched.cur.slot, a.pa % 65536, natBytes n v.toNat, none⟩] }
      | _ => s.setSched { s.sched with timers := s.sched.timers ++ [⟨s.now + 4, .homeAccess a⟩] }, 0, 0)
  else homeEffect (s.heat a.pa) a

/-- The values that an access returns to its slot. -/
def returned (how : Perform) (v0 v1 : Word) : List Word :=
  match how with
  | .cas2 _ _ _ _ => [v0, v1]
  | .load _ | .syncRead | .tagRead | .amo _ _ _ | .cas _ _ => [v0]
  | _ => []

/-! ## Orderings and barriers (R265 to R269, R351 to R358) -/

/-- The dirty lines that a release of the issuing slot covers (R266). -/
def coveredDirty (s : State) (scope : BitVec 3) : List CLine :=
  s.mem.clines.filter (fun l => scopeLines s s.here scope.toNat l && l.dirty != 0)

/-- Whether write-backs of a release are still to be acknowledged when it is attempted (R266): some have left before, or
lines homed in other modules or in pool memory are written back now. -/
def awaited (s : State) (scope : BitVec 3) : Bool :=
  scopeOut s s.here scope.toNat ||
  (!s.me.relBegun && (coveredDirty s scope).any (fun l => l.dev != s.fabric.self || isPool (l.line * 64)))

/-- The steps of a release are complete when the instruction is attempted (R266, R343). -/
def releaseDone (s : State) (scope : BitVec 3) : Prop :=
  scope = 0 ∨ (s.me.posted = 0 ∧ s.scrPending = false ∧ scopeOut s s.here scope.toNat = false ∧
    (s.me.relBegun = true ∨ coveredDirty s scope = []))

/-- The issuing slot once a release is complete. -/
def afterRelease (s : State) (scope : BitVec 3) : Slot := if scope = 0 then s.me else { s.me with relBegun := false }

/-- The instructions that are a release and store nothing, with the scope and the acquire that follows (R352, R353). -/
def releaseForm (s : State) : Instr → Option (BitVec 3 × Option (BitVec 3))
  | .fence kind scope => if kind = 0 then none else some (scope, if kind = 1 then none else some scope)
  | .ackw scope => if s.me.streams0 = 0 && s.me.streams1 = 0 then some (scope, none) else none
  | _ => none

/-- A barrier instruction: its demand, its destination, the request that g[b] makes it, whether it is permitted on the
join list and what the list becomes, its release, and whether it waits (R357, R358). -/
structure BarForm where
  demand : Demand
  d : Nat
  req : Word → BarReq
  allowed : List Word → Word → Word → Bool
  joins : List Word → Word → Word → List Word
  scope : BitVec 3
  wait : Bool

/-- The four barrier instructions (R357, R358). -/
def barForm : Instr → Option BarForm
  | .barjoin o => some ⟨⟨some (o.a.toNat, o.sa), some (o.b.toNat, o.sb), none, [], [o.d.toNat]⟩, o.d.toNat,
      fun n => if n = 0 then .joinSelf else .joinAnnounce n,
      fun l a n => n != 0 || (l.length < 4 && !l.contains a), fun l a n => if n = 0 then l ++ [a] else l, 0, false⟩
  | .barleave o => some ⟨⟨some (o.a.toNat, o.sa), some (o.b.toNat, o.sb), none, [], [o.d.toNat]⟩, o.d.toNat,
      fun n => if n = 0 then .leaveSelf else .leaveAnnounce n,
      fun l a n => n != 0 || l.contains a, fun l a n => if n = 0 then l.filter (fun x => x != a) else l, 0, false⟩
  | .bararr o scope => some ⟨⟨some (o.a.toNat, o.sa), none, none, [], [o.d.toNat]⟩, o.d.toNat,
      fun _ => .arrive true, fun l a _ => l.contains a, fun l _ _ => l, scope, true⟩
  | .bararn o scope => some ⟨⟨some (o.a.toNat, o.sa), none, none, [], [o.d.toNat]⟩, o.d.toNat,
      fun _ => .arrive false, fun l a _ => l.contains a, fun l _ _ => l, scope, false⟩
  | _ => none

/-! ## Scratchpads and vectors (R230 to R234, R346 to R348, R361 to R372) -/

/-- A scratchpad instruction runs at once: the slot is on its dispatching core in a plain task, no acquire is open, the
vector unit is free, and the rows read are full and not poisoned (R228, R231, R233, R343). -/
structure ScrReady (s : State) (reads : List Nat) : Prop where
  home : s.onDcore = true
  acq : s.me.acq = none
  free : s.vuBusy s.here = false
  plain : s.me.task.ord = false
  full : ∀ r ∈ reads, ((s.coreAt s.here).row r).full = true
  clean : ∀ r ∈ reads, ((s.coreAt s.here).row r).poison = false

/-- A vector instruction: destination, source rows, scalar source, cycles of the unit, and the bytes it writes from the
source rows and the scalar (R233, R361). -/
structure VecForm where
  dst : VDst
  srcs : List Pos
  g : Option Reg
  base : Nat
  value : List (List Byte) → Word → List Byte

/-- An element-wise operation on one row. -/
def vec1 (v : V1) (w cost : Nat) (f : Nat → Nat) : VecForm :=
  ⟨.row (v.pd, v.sd), [(v.pa, v.sa)], none, cost, fun rs _ => rowOfElems w ((rowElems w (rs.getD 0 [])).map f)⟩

/-- An element-wise operation on two rows. -/
def vec2 (v : V2) (w cost : Nat) (f : Nat → Nat → Nat) : VecForm :=
  ⟨.row (v.pd, v.sd), [(v.pa, v.sa), (v.pb, v.sb)], none, cost,
   fun rs _ => rowOfElems w (List.zipWith f (rowElems w (rs.getD 0 [])) (rowElems w (rs.getD 1 [])))⟩

/-- An element-wise operation on three rows. -/
def vec3 (v : V3) (w : Nat) (f : Nat → Nat → Nat → Nat) : VecForm :=
  ⟨.row (v.pd, v.sd), [(v.pa, v.sa), (v.pb, v.sb), (v.pc, v.sc)], none, 1,
   fun rs _ => rowOfElems w (zip3With f (rowElems w (rs.getD 0 [])) (rowElems w (rs.getD 1 [])) (rowElems w (rs.getD 2 [])))⟩

/-- An element-wise operation on a row and a scalar. -/
def vecS (v : V1) (g : Reg) (w : Nat) (f : Nat → Word → Nat) : VecForm :=
  ⟨.row (v.pd, v.sd), [(v.pa, v.sa)], some g, 1,
   fun rs x => rowOfElems w ((rowElems w (rs.getD 0 [])).map (fun e => f e x))⟩

/-- A reduction of a row to a register. -/
def vecR (v : VS) (w cost : Nat) (f : List Nat → Word) : VecForm :=
  ⟨.reg v.g, [(v.pa, v.sa)], none, cost, fun rs _ => natBytes 8 (f (rowElems w (rs.getD 0 []))).toNat⟩

/-- The vector instructions, element by element; `tab` is the task's table image (R364 to R372). -/
def vectorForm (tab : List Byte) : Instr → Option VecForm
  | .vadd v ty => some (vec2 v (elemW ty) 1 (arithE ty (FVal.add 0) (· + ·)))
  | .vsub v ty => some (vec2 v (elemW ty) 1 (arithE ty (fun a b => a.add 0 b.neg) (· - ·)))
  | .vmul v ty => some (vec2 v (elemW ty) 1 (arithE ty FVal.mul (· * ·)))
  | .vfma v ty => some (vec3 v (elemW ty) (fun a b c =>
      if isFloatTy ty then (vfmt ty).enc 0 ((((vfmt ty).val a).mul ((vfmt ty).val b)).add 0 ((vfmt ty).val c))
      else wrapE (elemW ty) (ielem ty a * ielem ty b + ielem ty c)))
  | .vmin v ty => some (vec2 v (elemW ty) 1 (minmaxE ty false))
  | .vmax v ty => some (vec2 v (elemW ty) 1 (minmaxE ty true))
  | .vabs v ty => some (vec1 v (elemW ty) 1 (fun a =>
      if isFloatTy ty then a % signE ty else wrapE (elemW ty) ((ielem ty a).natAbs : Nat)))
  | .vneg v ty => some (vec1 v (elemW ty) 1 (fun a =>
      if isFloatTy ty then (a + signE ty) % 2 ^ (8 * elemW ty) else wrapE (elemW ty) (-(ielem ty a))))
  | .vaddSat v ty => some (vec2 v (elemW ty) 1 (fun a b => clampE ty (ielem ty a + ielem ty b)))
  | .vsubSat v ty => some (vec2 v (elemW ty) 1 (fun a b => clampE ty (ielem ty a - ielem ty b)))
  | .vand v => some (vec2 v 4 1 (· &&& ·))
  | .vor v => some (vec2 v 4 1 (· ||| ·))
  | .vxor v => some (vec2 v 4 1 (· ^^^ ·))
  | .vshl v ty => some (vec2 v (elemW ty) 1 (shlE ty))
  | .vshr v ty => some (vec2 v (elemW ty) 1 (shrE ty))
  | .vshlS v ty g => some (vecS v g (elemW ty) (fun a x => shlE ty a x.toNat))
  | .vshrS v ty g => some (vecS v g (elemW ty) (fun a x => shrE ty a x.toNat))
  | .vcmpEq v ty => some (vec2 v (elemW ty) 1 (fun a b => maskE ty (cmpE ty (fun c => c == .eq) a b)))
  | .vcmpNe v ty => some (vec2 v (elemW ty) 1 (fun a b => maskE ty (!cmpE ty (fun c => c == .eq) a b)))
  | .vcmpLt v ty => some (vec2 v (elemW ty) 1 (fun a b => maskE ty (cmpE ty (fun c => c == .lt) a b)))
  | .vcmpLe v ty => some (vec2 v (elemW ty) 1 (fun a b => maskE ty (cmpE ty (fun c => c != .gt) a b)))
  | .vcmpUn v ty => some (vec2 v (elemW ty) 1 (fun a b =>
      maskE ty (((vfmt ty).val a).isNan || ((vfmt ty).val b).isNan)))
  | .vsel v ty => some (vec3 v (elemW ty) (fun a b c => if c ≠ 0 then a else b))
  | .vcvt v ty narrow k => some (if narrow then
      ⟨.part (v.pd, v.sd) (16 * elemW ty * k.toNat), [(v.pa, v.sa)], none, 1,
       fun rs _ => rowOfElems (elemW ty) ((rowElems 4 (rs.getD 0 [])).map (fromF32 ty))⟩
      else ⟨.row (v.pd, v.sd), [(v.pa, v.sa)], none, 1,
       fun rs _ => rowOfElems 4 ((elems (elemW ty) 16 ((rs.getD 0 []).drop (16 * elemW ty * k.toNat))).map (toF32 ty))⟩)
  | .vdec v ty k => some ⟨.row (v.pd, v.sd), [(v.pa, v.sa)], none, 2,
      fun rs _ => rowOfElems 4 ((partCodes ty k.toNat (rs.getD 0 [])).map (tblDecode tab))⟩
  | .venc v ty k => some ⟨.part (v.pd, v.sd) ((if ty = 12 then 8 else 16) * k.toNat), [(v.pa, v.sa)], none, 4,
      fun rs _ =>
        let cs := (rowElems 4 (rs.getD 0 [])).map (fun x => tblEncode tab (fmtF32.val x))
        if ty = 12 then nibbles cs else cs.map (BitVec.ofNat 8)⟩
  | .vscl v ty g => some (vecS v g (elemW ty) (fun a x =>
      (vfmt ty).enc 0 (((vfmt ty).val a).mul (fmtF32.val (x.toNat % 2 ^ 32)))))
  | .vsum v ty => some (vecR v (elemW ty) 2 (vsumE ty))
  | .vmaxr v ty => some (vecR v (elemW ty) 2 (vmaxE ty))
  | .vexp v => some (vec1 v 4 4 vexpE)
  | .vrcp v => some (vec1 v 4 4 vrcpE)
  | .vrsq v => some (vec1 v 4 4 vrsqE)
  | .vbcst pd sd ty g => some ⟨.row (pd, sd), [], some g, 1,
      fun _ x => rowOfElems (elemW ty) (List.replicate (64 / elemW ty) x.toNat)⟩
  | .vmov v => some (vec1 v 4 1 id)
  | .vperm v ty => some ⟨.row (v.pd, v.sd), [(v.pa, v.sa), (v.pb, v.sb)], none, 2,
      fun rs _ => rowOfElems (elemW ty) ((rowElems (elemW ty) (rs.getD 1 [])).map
        (fun i => (rowElems (elemW ty) (rs.getD 0 [])).getD (i % (64 / elemW ty)) 0))⟩
  | .vpack v ty => some ⟨.row (v.pd, v.sd), [(v.pa, v.sa), (v.pb, v.sb)], none, 1,
      fun rs _ => rowOfElems (elemW ty)
        ((rowElems (2 * elemW ty) (rs.getD 0 []) ++ rowElems (2 * elemW ty) (rs.getD 1 [])).map
          (fun x => if isFloatTy ty then (vfmt ty).enc 0 (fmtF32.val x) else clampE ty (ielem (wideTy ty) x)))⟩
  | .vunpackLo v ty => some ⟨.row (v.pd, v.sd), [(v.pa, v.sa)], none, 1,
      fun rs _ => rowOfElems (2 * elemW ty) ((elems (elemW ty) (32 / elemW ty) (rs.getD 0 [])).map
        (fun x => if isFloatTy ty then toF32 ty x else wrapE (2 * elemW ty) (ielem ty x)))⟩
  | .vunpackHi v ty => some ⟨.row (v.pd, v.sd), [(v.pa, v.sa)], none, 1,
      fun rs _ => rowOfElems (2 * elemW ty) ((elems (elemW ty) (32 / elemW ty) ((rs.getD 0 []).drop 32)).map
        (fun x => if isFloatTy ty then toF32 ty x else wrapE (2 * elemW ty) (ielem ty x)))⟩
  | .vmask v ty => some (vecR v (elemW ty) 1 (fun l =>
      w64 ((List.range l.length).foldl (fun t i => t + (if l.getD i 0 ≠ 0 then 2 ^ i else 0)) 0)))
  | _ => none

/-- The pointers of a vector instruction, destination first. -/
def VecForm.ptrs (f : VecForm) : List Pos := f.dst.pos ++ f.srcs

/-- Its demand: the scalar source and the scalar destination. -/
def VecForm.demand (f : VecForm) : Demand :=
  ⟨f.g.map (fun r => (r.toNat, false)), none, none, [], match f.dst with
    | .reg r => [r.toNat]
    | _ => []⟩

/-- The rows that the source pointers of a slot name. -/
def VecForm.rows (f : VecForm) (sl : Slot) : List Nat := f.srcs.map (fun p => ptrRow (sl.ptr p.1.toNat))

/-- What a vector instruction writes to the scratchpad: the offset and the row whose poison the write clears; none for a
register (R231, R361). -/
def VecForm.target (f : VecForm) (sl : Slot) : Option (Nat × Option Nat) :=
  match f.dst with
  | .row p => some (64 * ptrRow (sl.ptr p.1.toNat), some (ptrRow (sl.ptr p.1.toNat)))
  | .part p off => some (64 * ptrRow (sl.ptr p.1.toNat) + off, none)
  | .reg _ => none

/-- The vector unit is taken, and what an instruction writes is on its way (R232, R233). -/
def afterVector (s : State) (cost : Nat) (w : Option (Nat × Option Nat)) (l : List Byte) : State :=
  match w with
  | some (off, clean) => (s.occupy s.here cost).scrWrite s.here s.sched.cur.slot off l clean
  | none => s.occupy s.here cost

/-! ## Requests to units (R338, R395 to R402) -/

/-- A request has left with its result outstanding: the slot goes on, its destination is empty with a write pending. -/
structure Asked (s t : State) (m : Demand) (d : Nat) : Prop where
  only : OnlySlot s t
  keeps : KeepsSlot s.me t.me
  pc : t.me.pc = s.sched.ir.npc
  pend : d ≠ 0 → (t.me.cell d).full = false ∧ (t.me.cell d).pend = true
  kept : ∀ r, r ≠ d → t.me.cell r = cellAfter s m r

/-- The issuing task runs for a dispatching core of this module. -/
def ownModule (s : State) : Prop := modOf s.me.task.dcore = s.fabric.self

/-- The demand of SPAWN and SPAWNW: the entry in g[a], the target in g[d], four registers from b (R392). -/
def spawnDemand (d a b : Reg) (sa : Bool) : Demand := ⟨some (a.toNat, sa), none, some d.toNat, regRun b.toNat 4, [d.toNat]⟩

/-- The request that SPAWN or SPAWNW makes (R139, R392). -/
def spawnOf (s : State) (d : Reg) (v : Vals) (wait : Bool) : SpawnReq :=
  { src := gcid s s.here, slot := s.sched.cur.slot, dst := d, target := v.d.toNat % 2 ^ 30,
    entry := w64 (v.a.toNat % 2 ^ 54), regs := s.me.task.regs, g1 := v.run.getD 0 0, g2 := v.run.getD 1 0,
    g3 := v.run.getD 2 0, g4 := v.run.getD 3 0, launch := s.me.task.launch, job := s.me.task.job, wait := wait }

/-- A packet as POST and SENDVT fill it (R136, R393): ORIGIN, SEQ, TIME, LAUNCH, ORD and AFFC, the rest of it as given. -/
structure Filled (s : State) (p q : Words8) (target : Nat) (time : Word) : Prop where
  origin : q.w0 = w64 (s.me.task.dcore * 2 ^ 32 + (s.coreAt (coreOf s.me.task.dcore)).post.toNat % 2 ^ 32)
  time : q.w1 = time
  ord : q.w2.getLsbD 59 = s.me.task.ord ∧ q.w2.getLsbD 57 = false
  w2 : ∀ i, i < 64 → i ≠ 59 → i ≠ 57 → q.w2.getLsbD i = p.w2.getLsbD i
  launch : bits q.w3.toNat 63 48 = s.me.task.launch % 65536
  affc : bits q.w3.toNat 35 32 = coreNum (coreOf target)
  w3 : bits q.w3.toNat 31 0 = bits p.w3.toNat 31 0 ∧ bits q.w3.toNat 47 36 = bits p.w3.toNat 47 36
  rest : q.w4 = p.w4 ∧ q.w5 = p.w5 ∧ q.w6 = p.w6 ∧ q.w7 = p.w7

/-- A plain task's packet has been posted to a target (R128, R136, R138): its launch counts one task more, the post
counter of its core has moved, and the packet is on its way to the target's cluster, or at the endpoint of the fabric. -/
structure Posted (s t : State) (q : Words8) (target : Nat) : Prop where
  count : ∀ l, s.launchAt s.me.task.launch = some l →
    ∃ l', t.launchAt s.me.task.launch = some l' ∧ l'.count = l.count + 1
  post : (t.coreAt (coreOf s.me.task.dcore)).post = (s.coreAt (coreOf s.me.task.dcore)).post + 1
  net : modOf target = s.fabric.self → ∃ colour, t.sched.net = s.sched.net ++
    [⟨srcKey s.here s.sched.cur.slot, clusterOf (coreOf target),
      .taskPacketArrival (clusterOf (coreOf target)) s.sched.cur colour q⟩]
  away : modOf target ≠ s.fabric.self → ∃ colour, t.sched.inbox = s.sched.inbox ++
    [.routeHop (s.packet 6 (modOf target) 0 s.here s.sched.cur.slot (s.partOf (packetLaunch q)) (packetLaunch q)
      (.task (clusterOf (coreOf target)) s.sched.cur colour q))]
  mem : t.mem = s.mem

/-- A slot has started a thread at an entry line with its first registers loaded and every other register empty (R139,
R140, R288). -/
structure Started (s t : State) (id : SlotId) (entry : Word) (regs : List Word) (sup : Bool) : Prop where
  st : (t.slotAt id).st = .running
  pc : (t.slotAt id).pc = ((entry.truncate 54 : BitVec 54).signExtend 64 &&& ~~~63#64) + 4
  entry : (t.slotAt id).entry = true
  sup : (t.slotAt id).sup = sup
  loaded : ∀ i v, regs[i]? = some v → (t.slotAt id).cell (i + 1) = ⟨v, true, false⟩
  empty : ∀ r, regs.length < r → ((t.slotAt id).cell r).full = false ∧ ((t.slotAt id).cell r).pend = false
  fresh : (t.slotAt id).latches = [] ∧ (t.slotAt id).late = [] ∧ (t.slotAt id).p = [] ∧
    (t.slotAt id).intrap = false ∧ (t.slotAt id).acq = none
  start : (t.slotAt id).task.start = s.now

/-! ## Requests to the agents (R205 to R211, R406, R407) -/

/-- An agent request leaves for the unit of its own module: the release at core scope is complete, no acquire is open and
fewer than 8 requests are unanswered on its port (R407); the core has not been moved by a live migration (R156). -/
structure AgentReady (s : State) (q : Nat) : Prop where
  release : s.coreRelease = true
  acq : s.me.acq = none
  room : s.me.portCount q < 8
  own : ownModule s
  stays : s.forwarded s.here = s.here

/-- The state in which the future table begins a CALLT: the slot has gone on, and the request is numbered. -/
def callBegun (s : State) (m : Demand) (d : Nat) : State :=
  let s0 := s.retire { (s.taken m).pendG d with q5 := s.me.q5 + 1 }
  let c := callRequest s.sched.cur d (s.vals m).a s.irWord (s.taken m) (s.taken m)
  s0.setAgents { s.agents with calls := mput s.agents.calls s.agents.nextOp c, nextOp := s.agents.nextOp + 1 }

/-- The request that a token-engine instruction makes of a plain slot. -/
def tokAsked (s : State) (kind : TokKind) (m : Demand) (d : Nat) : TokOp :=
  tokRequest kind s.sched.cur d (s.vals m).a (s.vals m).b s.me

/-- The state in which the token engine begins a request. -/
def tokBegun (s : State) (kind : TokKind) (m : Demand) (d : Nat) : State :=
  let s0 := s.retire { (s.taken m).pendG d with q4 := s.me.q4 + 1 }
  let n := s.agents.nextOp
  s0.setAgents { s.agents with tokOps := mput s.agents.tokOps n (tokAsked s kind m d), nextOp := n + 1 }

/-- The token-engine instructions and their requests. -/
def tokKind : Instr → Option (TokKind × OpsDAB)
  | .tokc o => some (.commit, o)
  | .tokenc o => some (.encode, o)
  | .tokdec o => some (.decode, o)
  | .maskq o => some (.mask, o)
  | _ => none

/-- The request of a CALLT has ended without a future. -/
def callDropped (s s1 : State) : State :=
  (s.setMem s1.dropUnitLines.mem).setAgents { s.agents with nextOp := s.agents.nextOp + 1 }

/-- A future is allowed to end now: its scanner is not due, and no reply to it is being written (R196). -/
def Unscanned (s : State) (h : Nat) : Prop :=
  (∀ x ∈ s.sched.timers, x.ev = .futureTimeout (h % 65536) → s.now < x.due) ∧ replying s h = false

/-- One entry of the future table is replaced; the other entries, the slots and memory stay. -/
def FutureBecame (s t : State) (i : Nat) (f : Future) : Prop :=
  t.futureAt i = f ∧ (∀ j, j ≠ i → t.futureAt j = s.futureAt j) ∧ t.cores = s.cores ∧ t.mem = s.mem

/-- The value that a custom instruction of a tool hart writes, and that it goes on (R211). -/
def HartGot (s t : State) (n : Nat) (rd : Reg) (v : Word) : Prop :=
  (t.hartAt n).pc = (s.hartAt n).pc + 4 ∧ (t.hartAt n).r rd = (if rd = 0 then 0 else v) ∧
  (∀ r, r ≠ rd → (t.hartAt n).r r = (s.hartAt n).r r) ∧ (t.hartAt n).ctx = (s.hartAt n).ctx ∧
  (∀ k, k ≠ n → t.hartAt k = s.hartAt k) ∧ t.cores = s.cores

/-- The selectors of fut.arg that show a field of a held call (R211). -/
def futArg (s : State) : Instr → Option (Reg × Reg × (Future → Word))
  | .futArgLen _ rs1 rd => some (rs1, rd, fun f => w64 f.arglen)
  | .futArgDeadline _ rs1 rd => some (rs1, rd, fun f => if f.dlus = 0 then BitVec.allOnes 64
      else w64 ((f.deadline - s.now) / 1700))
  | .futArgTool _ rs1 rd => some (rs1, rd, fun f => w64 f.tool)
  | _ => none

/-! ## The host port (R81 to R96) -/

/-- A message of the host is taken when it arrives: none waits before it, there is room for its ACK, boot has completed or
the message is management's (R82 to R84). -/
structure MsgReady (s : State) (m : Words8) (mgmt : Bool) : Prop where
  first : s.host.h2d = [] ∨ (s.host.h2dDue = true ∧ s.host.h2d.head? = some m)
  room : s.host.d2h.length < 1024
  notices : s.host.held = []
  ready : s.host.ready = true ∨ mgmt = true
  booted : s.mgmt.bootFailed = false

/-- The ACK of a message (R82, R86). -/
def ackWords (s : State) (m : Words8) (status : Nat) : Words8 :=
  ⟨w64 (0x80 * 2 ^ 56 + status * 2 ^ 48 + msgJob m * 2 ^ 32 + msgSeq m), w64 s.now, 0, 0, 0, 0, 0, 0⟩

/-- The reply to a management message (R87). -/
def replyWords (s : State) (m : Words8) (n : Nat) : Words8 :=
  ⟨w64 (0x90 * 2 ^ 56 + msgCode m * 2 ^ 48 + msgJob m * 2 ^ 32 + msgSeq m), w64 s.now, w64 n, w64 s.now, 0, 0, 0, 0⟩

/-- The message has been taken and acknowledged with a status. -/
structure Acked (s t : State) (m : Words8) (status : Nat) : Prop where
  taken : t.host.h2d = s.host.h2d.drop 1
  ack : t.host.d2h = s.host.d2h ++ [ackWords s m status]

/-- A request for host memory has left, and what waits for its bytes (R87). -/
def ReadHost (s t : State) (pasid addr n : Nat) (r : HostRead) : Prop :=
  .hostRead s.host.nextRead pasid addr n ∈ t.sched.out ∧
  t.host.pendingReads = s.host.pendingReads ++ [(s.host.nextRead, r)] ∧ t.host.nextRead = s.host.nextRead + 1 ∧
  t.host.h2d = s.host.h2d.drop 1 ∧ t.cores = s.cores ∧ t.mem = s.mem

/-! ## The fabric and the homes (chapters 3 and 11) -/

/-- The queue of direction d that a packet enters (R55, R58): that of its class, its requests or its responses, and of its
virtual channel, the escape channel from a side step on. -/
def queueOf (s : State) (p : FabPkt) (d det : Nat) : Nat :=
  d * 64 + p.cls * 6 + (if p.response then 3 else 0) +
    (if det % 4 ≠ 0 then 2 else if p.dateline || crosses s d then 1 else 0)

/-- The packets in that queue. -/
def queueAt (s : State) (p : FabPkt) (d det : Nat) : List FabPkt := mget s.fabric.outq (queueOf s p d det) []

/-- A packet as its router puts it into an output queue of direction d (R55, R56, R69). -/
def routed (s : State) (p : FabPkt) (d det : Nat) : FabPkt :=
  { p with detour := det, dateline := p.dateline || crosses s d,
           marked := p.marked || (2 ≤ p.cls && p.cls ≤ 6 && markTh s ≤ flitsOf (queueAt s p d det)) }

/-- A request for another module stands at the module's endpoint of the fabric, due now (R52, R58, R59). -/
def Requested (t : State) (cls dst addr src slot part launch : Nat) (pay : Payload) : Prop :=
  .routeHop (t.packet cls dst addr src slot part launch pay) ∈ t.sched.inbox

/-- An access is performed when it runs at its home (R261, R272): nothing is against it, nothing holds its line, what it
reads is not poisoned, and its word is in the state it asks for. -/
structure Performs (s : State) (a : Access) : Prop where
  checked : homeCheck s a = none
  free : lineBusy s a.pa (opWrites a.how) = none
  clean : opReads a.how = true → (s.heat a.pa).isPoison a.pa = false ∧
    (opSize a.how = 16 → (s.heat a.pa).isPoison (a.pa + 8) = false)
  tagged : (a.how = .syncRead → (s.heat a.pa).isFull a.pa = true) ∧
    (∀ v, a.how = .syncWrite v → (s.heat a.pa).isFull a.pa = false)
  plain : opBarrier a.how = false
  awaits : a.how = .await → s.isFull a.pa = true

/-- What a served access leaves, its result or acknowledgement sent (R65, R260). -/
def afterServe (s : State) (a : Access) : State :=
  let r := homeEffect s a
  if opPosted a.how then r.1.ackPosted a else r.1.deliverResult a r.2.1 r.2.2

/-- What an access that arrives at its home leaves: it is counted and served (R115). -/
def afterHome (s : State) (a : Access) : State := afterServe (s.heat a.pa) a

/-! ## Gang launch and sweeps (R75 to R78, R179 to R185, R448) -/

/-- A gang-control message has left for a module, this one included (R75, R76). -/
def GangTold (t : State) (mod kind : Nat) (m : GangMsg) : Prop :=
  (mod = t.fabric.self → (⟨2 ^ 24, 2 ^ 24 + 1, gangEv kind m⟩ : Flight) ∈ t.sched.net) ∧
  (mod ≠ t.fabric.self → Requested t 1 mod 0 unitLaunch 0 m.part (bits m.launch.toNat 15 0) (.gang kind m))

/-- What a failed gang launch has done before its entry ends (R76, R77): the launch is gone from the initiator's list,
every module has GABORT before GCOMMIT and GSTOP after it, LAUNCH has status 4 with the reason, and the host its event. -/
structure GangFailed (s x : State) (g : GangInit) (reason mod : Nat) : Prop where
  gone : x.gangOf g.launch = none
  told : ∀ m ∈ g.mods, GangTold x m.1 (if g.phase = 0 then 6 else 7) (gangMsg s s.fabric.self g.launch g.part reason)
  fail : ∀ l, s.launchAt (gangIndex g.launch) = some l → ∃ l', x.launchAt (gangIndex g.launch) = some l' ∧
    l'.fail = true ∧ (g.phase = 0 → l'.count = 0)
  result : s.forwarded g.id.core = g.id.core → g.d ≠ 0 → ((s.slotAt g.id).cell g.d).pend = true →
    (x.slotAt g.id).cell g.d = ⟨w64 (4 * 2 ^ 56 + reason * 2 ^ 48 + gangIndex g.launch), true, false⟩
  host : s.host.d2h.length < 1024 → x.host.d2h = s.host.d2h ++
    [⟨msgHead 0x83 2 ((s.launchAt (gangIndex g.launch)).elim 0 Launch.job) 0, w64 s.now, g.launch,
      w64 (mod * 2 ^ 16 + reason), w64 (gangIndex g.launch), 0, 0, 0⟩]
  mem : x.mem = s.mem

/-- A levee-class message has gone to every cluster of a partition, to its dock groups and to the other modules of the
launch (R180). -/
def LevelTold (t : State) (part : Nat) (mods : List Nat) (kind : Nat) (ev : SweepMsg → Ev) (m : SweepMsg) : Prop :=
  (∀ cl ∈ partClusters t part ++ [dockNode], (⟨2 ^ 24 + unitLaunch, cl, ev { m with src := cl }⟩ : Flight) ∈ t.sched.net) ∧
  (∀ mo ∈ mods, mo ≠ t.fabric.self → ∃ launch, Requested t 1 mo 0 unitLaunch 0 part launch (.sweep kind { m with src := hubNode }))

/-- The report that a node of the levee tree sends (R180 step 2). -/
def ReportSent (t : State) (node : Nat) (m : SweepMsg) : Prop :=
  (⟨2 ^ 28 + node, 2 ^ 28 + m.part, .report { m with src := node }⟩ : Flight) ∈ t.sched.net

/-- The answer of a module to a completion sweep, its own included (R448). -/
def AnswerSent (t : State) (dst : Nat) (m : SweepMsg) : Prop :=
  (dst = t.fabric.self → (⟨2 ^ 28 + hubNode, 2 ^ 24 + unitLaunch, .creport { m with src := moduleNode t.fabric.self }⟩ : Flight)
    ∈ t.sched.net) ∧
  (dst ≠ t.fabric.self → Requested t 1 dst 0 unitLaunch 0 m.part m.key.toNat
    (.sweep 5 { m with src := moduleNode t.fabric.self }))

/-! ## The sluice (chapter 2) -/

/-- A lease instruction may reach the sluice of its own module (R22, R48, R408). -/
structure LeaseReady (s : State) (o : OpsDA) : Prop where
  ready : Ready s (daDemand o)
  part : s.part = .ny7740
  level : s.me.sup = true ∨ s.fabric.usrlease = true
  own : ownModule s
  stays : s.forwarded s.here = s.here

/-- The word of LEASE, its direction, target and term (R32). -/
def leaseDir (s : State) (o : OpsDA) : Nat := bits (s.vals (daDemand o)).a.toNat 2 0
def leaseTarget (s : State) (o : OpsDA) : Nat := bits (s.vals (daDemand o)).a.toNat 22 16
def leaseTerm (s : State) (o : OpsDA) : Nat := bits (s.vals (daDemand o)).a.toNat 63 48

/-- Whether LEASE has a field out of range, or a reserved field that is not zero (R32, R34). -/
def leaseBad (s : State) (o : OpsDA) : Prop :=
  leaseTerm s o = 0 ∨ leaseTarget s o < 4 ∨ 64 < leaseTarget s o ∨ bits (s.vals (daDemand o)).a.toNat 47 23 ≠ 0 ∨
  bits (s.vals (daDemand o)).a.toNat 15 3 ≠ 0

/-- The result of a lease request reaches the register that waits for it. -/
def LeaseAnswered (s t : State) (asker : Option (SlotId × Nat)) (v : Word) : Prop :=
  ∀ id r, asker = some (id, r) → s.forwarded id.core = id.core → r ≠ 0 → ((s.slotAt id).cell r).pend = true →
    (t.slotAt id).cell r = ⟨v, true, false⟩

/-- A control message as it leaves on the service lane of a direction: its four words (R40). -/
def sluiceFlit (d type : Nat) (m : SluiceMsg) : Out :=
  let w := packSluice type m
  .sluice d w.1 w.2.1 w.2.2.1 w.2.2.2

/-- A stop, or the end of one, spreads (R157, R422): the other modules are told, the destination is pending until every core in
scope has done it, which takes at most 256 cycles on a module and 2 µs over all, and memory stays. -/
structure StopSpreads (s t : State) (d part : Nat) (launch : Option Nat) (resume : Bool) : Prop where
  told : s.fabric.enable = true → ∀ mo ∈ s.otherModules,
    Requested t 1 mo 0 unitRouter 0 part 0 (.stop part launch resume false)
  later : ∃ n, n ≤ (if s.fabric.enable then 3400 else 256) ∧ ⟨s.now + n, .haltDone s.sched.cur d part⟩ ∈ t.sched.timers
  pend : d ≠ 0 → (t.me.cell d).pend = true
  mem : t.mem = s.mem

/-! ## Matrix and copy streams (chapters 10 and 15) -/

/-- The command at hand of a matrix stream, as its rows and its duration: the commands that mxRun runs. -/
def mxForm (s : State) (m : MxStream) : Instr → Option (BitVec 26 × MxCmd)
  | .mmnop st => some (st, plainCmd none)
  | .mma st o => some (st, mmaCmd s s.sched.cur.core m o)
  | .mmaz st o => some (st, mmaCmd s s.sched.cur.core m o)
  | .mmst st o => some (st, mmstCmd s.sched.cur.core false o)
  | .mmld st o => some (st, mmstCmd s.sched.cur.core true o)
  | .mmz st t => some (st, plainCmd (some t.toNat))
  | .mmsig st _ => some (st, plainCmd none)
  | _ => none

/-- The stream that runs on a core, in an array cycle of one of its windows (R239, R240). -/
structure MxAt (s : State) (m : MxStream) (a : Nat) : Prop where
  head : (s.coreAt s.sched.cur.core).mx.head? = some m
  owns : (s.arrayAt s.sched.cur.core).owns (parity s.sched.cur.core) = true
  cyc : (s.arrayAt s.sched.cur.core).cycle (parity s.sched.cur.core) s.now = some a

/-- A command may begin: its stamp is reached and not past, it is checked and nothing it needs is missing (R240 to
R243). -/
structure MxBegins (s : State) (m : MxStream) (a : Nat) (st : BitVec 26) (d : MxCmd) : Prop where
  first : m.off = none
  good : d.bad = false
  notPast : m.free ≤ m.base + st.toNat
  reached : m.base + st.toNat ≤ a
  own : d.other = false ∨ m.ord = false
  ready : beginMiss s s.sched.cur.core d = none

/-- The command runs its offset c on this cycle: it goes on, or begins, and loses no bank port (R245). -/
structure MxTurn (s : State) (m : MxStream) (a : Nat) (st : BitVec 26) (d : MxCmd) (c : Nat) : Prop where
  here : MxAt s m a
  off : m.off = some c ∨ (c = 0 ∧ MxBegins s m a st d)
  port : ∀ r, d.rows.find? (fun r => r.1 == c) = some r → portLost s s.sched.cur.core r.2 = false

/-- The stream once the row of its offset has been read (R378). -/
def mxSeen (s : State) (m : MxStream) (d : MxCmd) (c : Nat) : MxStream :=
  match d.rows.find? (fun r => r.1 == c) with
  | none => m
  | some r =>
    let kc := clusterCore (clusterOf s.sched.cur.core) r.2.1
    { m with got := mput m.got c (s.scrBytes kc (64 * r.2.2) 64, ((s.coreAt kc).row r.2.2).poison) }

/-- A row of a scratchpad holds bytes, full, with a poison tag (R231, R386). -/
structure RowHolds (t : State) (k row : Nat) (l : List Byte) (psn : Bool) : Prop where
  bytes : bytesAt t.mem.cells (scrPa k (64 * row)) 64 = l
  full : ((t.coreAt k).row row).full = true
  poison : ((t.coreAt k).row row).poison = psn

/-- The copy stream at hand. -/
def cpHere (s : State) : Option CpStream := s.cp? s.sched.cur.core s.sched.cur.slot

/-- The stream with its command begun (R251). -/
def cpBegun (c : CpStream) : CpStream := if c.begun then c else { c with begun := true, seg := 0, owned := 0, row := 0 }

/-- A command of a plain task's stream goes on, or begins with its operands in range (R383). -/
def CpGoes (c : CpStream) (bad : Bool) : Prop := c.begun = true ∨ (bad = false ∧ c.ord = false)

/-- The stream after a row of a command of n + 1 rows (R384, R385). -/
def cpAfterRow (c : CpStream) (n : Nat) : CpStream := if c.row = n then c.stepped else { c with row := c.row + 1 }

/-- The state in which a begun command does its step. -/
def cpIn (s : State) (c : CpStream) : State :=
  if c.begun then s else s.setCp s.sched.cur.core s.sched.cur.slot (cpBegun c)

/-- The rows that a line of a command is have entered the sets of an ordered task (R168); a plain task enters none. -/
def CpEntered (s : State) (c : CpStream) (rows : List (Nat × Bool)) (t : State) : Prop :=
  (c.ord = false ∧ t = s) ∨
  (c.ord = true ∧ (s.touchAll c.core c.spec (s.partOf c.launch) rows = .ok t ∨
    s.touchAll c.core c.spec (s.partOf c.launch) rows = .unlogged t))

end Sys2Proof.Safety
end

