-- ==== Sys2Proof/Certificates/Slice0/Obligations.lean ====
section
/-! DEFINITION. The statements about the model, each named for what it says (OBLIGATIONS.json lists them). -/

open Sys2Proof Sys2Proof.Machine Sys2Proof.Safety

/-! ## Reset, encodings, the step -/

/-- The values that the spec gives for reset (R16, R18, R48, R79, R85, R117, R123, R125, R143, R222, R231, R238, R272,
R274). -/
def Obligations.ResetValues : Prop :=
  State.reset.sched.stamp = 0 ∧ State.reset.mgmt.powerCap = 2400 ∧ State.reset.mgmt.syncretry = 16 ∧
  State.reset.keyLive 0 = true ∧ (∀ k, 0 < k → k < 64 → State.reset.keyLive k = false) ∧
  State.reset.fabric.berx = 9 ∧ State.reset.fabric.starve = true ∧ State.reset.fabric.usrlease = false ∧
  State.reset.fabric.markth = 32 ∧ State.reset.fabric.enable = false ∧
  State.reset.host.ready = false ∧ State.reset.host.thr = 1 ∧ State.reset.host.ien = false ∧
  State.reset.churn.en = false ∧ State.reset.churn.heatK = 8 ∧ State.reset.churn.heatDecay = 1000 ∧
  State.reset.work.age = 64 ∧ State.reset.work.predly = 20 ∧
  (∀ k, (State.reset.coreAt k).guests = 2 ∧ (State.reset.coreAt k).tvec = 0) ∧
  (∀ k r, (State.reset.coreAt k).row r = ⟨true, false, false⟩) ∧
  (∀ k, (State.reset.arrayAt k).w = 1 ∧ (State.reset.arrayAt k).mode = 0 ∧ (State.reset.arrayAt k).err = false) ∧
  (∀ id, (State.reset.slotAt id).st = .free ∧ (State.reset.slotAt id).intrap = false) ∧
  (∀ pa, region pa ≠ 3 → State.reset.isFull pa = true ∧ State.reset.isPoison pa = false)

/-- Memory has its canonical form at reset (the model's own form, notes/assumptions/2). -/
def Obligations.ResetMemoryCanonical : Prop := Memory.wf State.reset.mem.cells = true

/-- Words that the spec's chapters write out decode to the instructions they stand for (R295, R311, R320, R329, R350,
R409, R416). -/
def Obligations.SpecWords : Prop :=
  decodeThread 0x04000000 0 = .ok .nop ∧
  decodeThread 0x10200004 0 = .ok (.addi ⟨1, 0, false, 4⟩) ∧
  decodeThread 0x3C6140A0 0 = .ok (.icvtf ⟨3, 1, false, false⟩ 1 0 0) ∧
  decodeThread 0x38431803 0 = .ok (.ffma ⟨2, 3, 3, false, false, false⟩ 0 0) ∧
  decodeThread 0x48240FFD 0 = .ok (.brnz 1 0xFFD) ∧
  decodeThread 0x3C824890 0 = .ok (.fcvti ⟨4, 2, false, false⟩ 1 1 0) ∧
  decodeThread 0xB0000000 0 = .ok .quit ∧
  decodeThread 0x78023808 0 = .ok (.red ⟨2, 7, false, false⟩ 0 2) ∧
  decodeThread 0x04C11006 0 = .ok (.srr 6 0x022) ∧
  decodeThread 0x04650001 0 = .ok (.trap 3 5) ∧
  decodeThread 0xE0000000 0 = .ok .eret ∧
  decodeThread 0 0 = .error .zeroWord

/-- Decoding an encoded thread instruction gives it back, with every operand at every value its encoding admits
(R292 to R298, R303). -/
def Obligations.ThreadRoundTrip : Prop :=
  ∀ i : Instr, i.wf = true → threadInstr i = true →
    (∀ n ∈ encodeNats i, n < 2 ^ 32) ∧
    (encodeNats i).length = (if isLong ((encodeNats i).getD 0 0) then 2 else 1) ∧
    decodeThread ((encodeNats i).getD 0 0) ((encodeNats i).getD 1 0) = .ok i

/-- The same for the commands of matrix and copy streams and for the tool cores' own instructions (R211, R377 to R386). -/
def Obligations.CommandRoundTrip : Prop :=
  (∀ i : Instr, i.wf = true → matrixInstr i = true →
    decodeMatrix ((encodeNats i).getD 0 0) ((encodeNats i).getD 1 0) = .ok i) ∧
  (∀ i : Instr, i.wf = true → copyInstr i = true →
    decodeCopy ((encodeNats i).getD 0 0) ((encodeNats i).getD 1 0) ((encodeNats i).getD 2 0) ((encodeNats i).getD 3 0)
      = .ok i) ∧
  (∀ i : Instr, toolInstr i = true → decodeTool ((encodeNats i).getD 0 0) = some i)

/-- A step that gives a slot its turn runs the instruction that its line's word decodes to, with the fall-through address of
R284 and with nothing else changed by the fetch than what fetching changes (R220, R284, R287). One that gives a matrix
stream, a copy stream or a tool hart its turn runs the command or instruction that its words decode to; an event that is
due runs as its row of the table (R240, R250, R207), LGREQ and LRECALL of one cycle in ascending order of direction (R42). -/
def Obligations.StepRunsTheInstruction : Prop :=
  (∀ (s : State) (id : SlotId) (rest : List Agent) (ws : List (BitVec 32)) (s2 : State) (i : Instr),
    s.sched.inbox = [] → dueTimer s = none → s.sched.turns = .slot id.core id.slot :: rest →
    mayIssue (atTurn s id rest) = true →
    let s1 := settleAcquire (atTurn s id rest)
    let sl := s1.slotAt id
    let k := linkOf (ws.headD 0)
    let word := bits sl.pc.toNat 5 2
    let f := fetchedAt sl.pc k ws word
    fetchLine s1 id.core sl.task.job (!sl.sup) sl.pc = (.line ws, s2) →
    sl.fell = false → threadLineFault sl k word = none →
    (isLong f.word.toNat = true → word + 2 ≤ k.cnt) →
    decodeThread f.word.toNat (ws.getD (word + 1) 0).toNat = .ok i →
    step s = exec i (s2.setSched { s2.sched with ir := f })) ∧
  ((∀ (s : State) (k : Nat) (rest : List Agent) (m : MxStream) (w : BitVec 32 × BitVec 32) (i : Instr),
    s.sched.inbox = [] → dueTimer s = none → s.sched.turns = .matrix k :: rest →
    let s1 := atTurn s ⟨k, m.slot⟩ rest
    (s1.coreAt k).mx.head? = some m → m.cmds[m.idx]? = some w → m.stop = false → m.pause = none →
    (s1.slotAt ⟨k, m.slot⟩).halted = false → (s1.mgmt.powerLow = true → m.idx ≠ 0) →
    decodeMatrix w.1.toNat w.2.toNat = .ok i → step s = exec i s1) ∧
  (∀ (s : State) (cl sid : Nat) (rest : List Agent) (c : CpStream) (ws : List (BitVec 32)) (s2 : State) (i : Instr),
    s.sched.inbox = [] → dueTimer s = none → s.sched.turns = .copy cl sid :: rest →
    let s1 := atTurn s ⟨cl, sid⟩ rest
    s1.cp? cl sid = some c → c.fin = none → c.fault = none → c.stop = false → c.waitFor = none →
    (s1.slotAt ⟨c.core, c.slot⟩).halted = false → (s1.mgmt.powerLow = true → c.first = false) →
    fetchLine s1 c.core c.job c.user c.line = (.line ws, s2) →
    streamLineFault 1 c.first (linkOf (ws.headD 0)) = none → 4 * c.cmd < (linkOf (ws.headD 0)).cnt →
    decodeCopy (ws.getD (4 * c.cmd + 1) 0).toNat (ws.getD (4 * c.cmd + 2) 0).toNat (ws.getD (4 * c.cmd + 3) 0).toNat
      (ws.getD (4 * c.cmd + 4) 0).toNat = .ok i →
    step s = exec i s2) ∧
  (∀ (s : State) (n : Nat) (rest : List Agent) (w : BitVec 32) (i : Instr),
    s.sched.inbox = [] → dueTimer s = none → s.sched.turns = .hart n :: rest →
    let s1 := s.setSched { s.sched with free := s.sched.free + 1, turns := rest }
    let h := s1.hartAt n
    h.stall = none → hartRuns s1 n h = true → h.interrupt = none → hartFetch s1 h = .word w →
    decodeTool w.toNat = some i →
    step s = exec i (s1.setSched { s1.sched with hart := n, ir := { Fetched.reset with word := w, pc := h.pc } })) ∧
  (∀ (e : Ev) (i : Instr) (s : State), evRow e i → evMeaning e s = exec i s) ∧
  (∀ (s : State) (e : Ev) (rest : List Ev), nextDue s.sched.inbox = some (e, rest) → s.mgmt.bootFailed = false →
    step s = evMeaning e (s.setSched { s.sched with free := s.sched.free + 1, inbox := rest })) ∧
  (∀ (e : Ev) (rest : List Ev), leaseKey e = none → nextDue (e :: rest) = some (e, rest)) ∧
  (∀ (e x : Ev) (l rest : List Ev) (d i : Nat), nextDue l = some (e, rest) → leaseKey e = some d → x ∈ l →
    leaseKey x = some i → e ∈ l ∧ rest = l.erase e ∧ d ≤ i))

/-! ## Integer, compare and float instructions (spec 13) -/

/-- Every integer instruction of R313, R315, R316 and R317, every compare, SEL and immediate of R318 to R320 that issues
writes its result and nothing else. -/
def Obligations.IntegerResults : Prop :=
  ∀ (i : Instr) (f : RegForm) (s : State), (integerForm i = some f ∨ compareForm i = some f) → Ready s f.demand →
    f.d.toNat < s.me.task.nregs →
    ∃ t, exec i s = .next t ∧ Wrote s t f.demand f.d.toNat f.tr (f.value (s.vals f.demand))

/-- Every float instruction of latency one (R322 to R329) that issues writes its result and nothing else. -/
def Obligations.FloatResults : Prop :=
  ∀ (i : Instr) (f : RegForm) (s : State), floatForm i = some f → Ready s f.demand → f.d.toNat < s.me.task.nregs →
    ∃ t, exec i s = .next t ∧ Wrote s t f.demand f.d.toNat f.tr (f.value (s.vals f.demand))

/-- DIV, DIVN, REM, REMN, FDIV and FSQRT go on at once, leave their destination's register as it was and put the result in
flight for 4 or 3 rotations of 16 cycles (R221, R314, R322); the event of its cycle writes it. -/
def Obligations.LateResults : Prop :=
  (∀ (i : Instr) (f : RegForm) (n : Nat) (s : State), lateForm i = some (f, n) → f.tr = false → Ready s f.demand →
    ∃ t, exec i s = .next t ∧ t.me.pc = s.sched.ir.npc ∧ KeepsSlot s.me t.me ∧ t.mem = s.mem ∧
      (∀ r, t.me.cell r = cellAfter s f.demand r) ∧
      (f.d ≠ 0 → t.me.late.getLast? = some ⟨f.d.toNat, f.value (s.vals f.demand), s.now + 16 * n⟩) ∧
      (∀ l ∈ t.me.late, l ∈ s.me.late ∨ (f.d ≠ 0 ∧ l = ⟨f.d.toNat, f.value (s.vals f.demand), s.now + 16 * n⟩)) ∧
      t.sched.timers = s.sched.timers ++ [⟨s.now + 16 * n, .multiRotationResult s.sched.cur⟩]) ∧
  (∀ (i : Instr) (f : RegForm) (n : Nat) (s : State), lateForm i = some (f, n) → f.tr = true → Ready s f.demand →
    exec i s = .next (s.raise s.sched.cur s.badOperand)) ∧
  (∀ (id : SlotId) (s : State) (r : Nat) (v : Word) (due : Nat), (s.slotAt id).late = [⟨r, v, due⟩] → r ≠ 0 →
    due ≤ s.now →
    ∃ t, exec (.multiRotationResult id) s = .next t ∧ (t.slotAt id).cell r = ⟨v, true, false⟩ ∧ (t.slotAt id).late = [] ∧
      (∀ q, q ≠ r → (t.slotAt id).cell q = (s.slotAt id).cell q) ∧ t.mem = s.mem ∧
      (∀ id', id' ≠ id → t.slotAt id' = s.slotAt id'))

/-- The sums, differences, products and high halves of R313 are those of N-bit words: results wrap, and bits of a source
above N are ignored. -/
def Obligations.IntegerArithmeticWraps : Prop :=
  ∀ a b d : Word,
    fin 0 (sOf 0 a + sOf 0 b) = a + b ∧ fin 0 (sOf 0 a - sOf 0 b) = a - b ∧ fin 0 (sOf 0 a * sOf 0 b) = a * b ∧
    fin 0 (sOf 0 d + sOf 0 a * sOf 0 b) = d + a * b ∧
    fin 0 (Int.fdiv (sOf 0 a * sOf 0 b) (2 ^ widthOf 0)) = (a.signExtend 128 * b.signExtend 128).extractLsb' 64 64 ∧
    fin 0 (uOf 0 a * uOf 0 b / 2 ^ widthOf 0 : Nat) = (a.zeroExtend 128 * b.zeroExtend 128).extractLsb' 64 64 ∧
    fin 1 (sOf 1 a + sOf 1 b) = (a.truncate 32 + b.truncate 32 : BitVec 32).signExtend 64 ∧
    fin 2 (sOf 2 a + sOf 2 b) = (a.truncate 32 + b.truncate 32 : BitVec 32).zeroExtend 64 ∧
    fin 1 (sOf 1 a * sOf 1 b) = (a.truncate 32 * b.truncate 32 : BitVec 32).signExtend 64 ∧
    fin 2 (sOf 2 a - sOf 2 b) = (a.truncate 32 - b.truncate 32 : BitVec 32).zeroExtend 64 ∧
    fin 0 (sOf 0 a).natAbs = (if a.msb then -a else a)

/-- The divisions of R314: the result is due 4 rotations later, division by zero gives all ones or the dividend and no
trap, the one signed overflow wraps, and otherwise the quotient truncates and the remainder takes the dividend's sign. -/
def Obligations.DivisionCorners : Prop :=
  (∀ (o : Ops3) (w : BitVec 2) (s : State), o.t = false → Ready s (demand3 { o with t := false } false) →
    let m := demand3 { o with t := false } false
    let a := (s.vals m).a
    let b := (s.vals m).b
    let gives (i : Instr) (x : Int) : Prop := ∃ t, exec i s = .next t ∧ t.me.pc = s.sched.ir.npc ∧
      (∀ r, t.me.cell r = cellAfter s m r) ∧
      (o.d ≠ 0 → t.me.late.getLast? = some ⟨o.d.toNat, fin w x, s.now + 64⟩ ∧
        t.sched.timers = s.sched.timers ++ [⟨s.now + 64, .multiRotationResult s.sched.cur⟩])
    gives (.div o w) (if uOf w b = 0 then -1 else Int.tdiv (sOf w a) (sOf w b)) ∧
    gives (.divn o w) (if uOf w b = 0 then 2 ^ widthOf w - 1 else (uOf w a / uOf w b : Nat)) ∧
    gives (.rem o w) (if uOf w b = 0 then sOf w a else sOf w a - sOf w b * Int.tdiv (sOf w a) (sOf w b)) ∧
    gives (.remn o w) (if uOf w b = 0 then (uOf w a : Int) else (uOf w a % uOf w b : Nat))) ∧
  (∀ a b : Word, b ≠ 0 → divS 0 a b = a.sdiv b ∧ remS 0 a b = a.srem b ∧ divU 0 a b = a / b ∧ remU 0 a b = a % b) ∧
  (∀ a b : Word, (b.truncate 32 : BitVec 32) ≠ 0 →
    divS 1 a b = ((a.truncate 32 : BitVec 32).sdiv (b.truncate 32)).signExtend 64 ∧
    remS 1 a b = ((a.truncate 32 : BitVec 32).srem (b.truncate 32)).signExtend 64 ∧
    divU 2 a b = ((a.truncate 32 : BitVec 32) / b.truncate 32).zeroExtend 64 ∧
    remU 2 a b = ((a.truncate 32 : BitVec 32) % b.truncate 32).zeroExtend 64)

/-- The shifts of R315 take the whole of g[b] as their count c for each width: SHL, SHR and SAR have the results of the rule
below N and from N on; the rotations take c modulo N, and bit i of their N-bit result is the bit of u(a) that it names. -/
def Obligations.ShiftResults : Prop :=
  (∀ (o : Ops3) (w : BitVec 2) (s : State), Ready s (demand3 o false) → o.d.toNat < s.me.task.nregs →
    let v := s.vals (demand3 o false)
    let n := widthOf w
    let c := v.b.toNat
    let gives (i : Instr) (x : Word) : Prop := ∃ t, exec i s = .next t ∧ Wrote s t (demand3 o false) o.d.toNat o.t x
    gives (.shl o w) (if c < n then fin w (uOf w v.a * 2 ^ c : Nat) else 0) ∧
    gives (.shr o w) (if c < n then fin w (uOf w v.a / 2 ^ c : Nat) else 0) ∧
    gives (.sar o w) (if c < n then fin w (Int.fdiv (sOf w v.a) (2 ^ c)) else if sOf w v.a < 0 then fin w (-1) else 0) ∧
    gives (.rol o w) (fin w (rolN n (uOf w v.a) c : Nat)) ∧
    gives (.ror o w) (fin w (rolN n (uOf w v.a) (n - c % n) : Nat))) ∧
  (∀ (w : BitVec 2) (a : Word) (c i : Nat), w ≠ 3 → i < widthOf w →
    (fin w (rolN (widthOf w) (uOf w a) c : Nat)).getLsbD i = a.getLsbD ((i + (widthOf w - c % widthOf w)) % widthOf w) ∧
    (fin w (rolN (widthOf w) (uOf w a) (widthOf w - c % widthOf w) : Nat)).getLsbD i
      = a.getLsbD ((i + c) % widthOf w))

/-- When a register instruction of chapter 13 does not issue: a register beyond the allocation takes the illegal-operand
trap, an empty or expired source its trap in the order of the sources, and a source or destination with a write pending
parks the slot (R223 to R226, R304). -/
def Obligations.RegisterTraps : Prop :=
  ∀ (i : Instr) (f : RegForm) (s : State), (integerForm i = some f ∨ compareForm i = some f ∨ floatForm i = some f) →
    ((∃ r ∈ f.demand.names, s.me.task.nregs ≤ r) → exec i s = .next (s.raise s.sched.cur s.badOperand)) ∧
    ((∀ r ∈ f.demand.names, r < s.me.task.nregs) → f.d.toNat < s.me.task.nregs →
      (∀ (l1 l2 : List Nat) (r : Nat), f.demand.reads = l1 ++ r :: l2 →
        (∀ q ∈ l1, s.view s.me q ≠ .empty ∧ s.view s.me q ≠ .expired) →
        (s.view s.me r = .empty → exec i s = .next (s.raise s.sched.cur ⟨0x09, 0, w64 r, s.sched.ir.pc⟩)) ∧
        (s.view s.me r = .expired → exec i s = .next (s.raise s.sched.cur ⟨0x0A, 0, w64 r, s.sched.ir.pc⟩))) ∧
      ((∀ q ∈ f.demand.reads, s.view s.me q ≠ .empty ∧ s.view s.me q ≠ .expired) →
        ((∃ q ∈ f.demand.reads, s.view s.me q = .wait) ∨ (∃ q ∈ f.demand.dests, (s.me.cell q).pend = true)) →
        exec i s = .next s))

/-! ## Branches, system registers, traps (chapters 13 and 16) -/

/-- Branches, CALL and JMP continue at PC + 4·disp, at the fall-through address or at g[a], and write only the link
register (R330, R331). -/
def Obligations.BranchTargets : Prop :=
  (∀ (disp : BitVec 26) (s : State), ∃ t, exec (.br disp) s = .next t ∧
    WentTo s t noDemand (s.sched.ir.pc + 4 * disp.signExtend 64)) ∧
  (∀ (d : Reg) (disp : BitVec 21) (s : State), Ready s (writesRun d 1) →
    ∃ t, exec (.call d disp) s = .next t ∧
      WroteAt s t (writesRun d 1) d.toNat false s.sched.ir.npc
        (s.sched.ir.pc + 4 * disp.signExtend 64)) ∧
  (∀ (i : Instr) (a : Reg) (disp : BitVec 12) (taken : Word → Bool) (s : State), branchForm i = some (a, disp, taken) →
    Ready s (readsA a false) →
    ∃ t, exec i s = .next t ∧ WentTo s t (readsA a false)
      (if taken (s.vals (readsA a false)).a then s.sched.ir.pc + 4 * disp.signExtend 64
       else s.sched.ir.npc)) ∧
  (∀ (o : OpsDA) (s : State), Ready s (giDemand o.d o.a o.sa) →
    ∃ t, exec (.jmp o) s = .next t ∧
      WroteAt s t (giDemand o.d o.a o.sa) o.d.toNat false s.sched.ir.npc (s.vals (giDemand o.d o.a o.sa)).a)

/-- NOP goes on; STAMP, FEAT, IMPL, SRR, VTKEY and LEVEE write the values they read and nothing else (R403, R409 to R412).
SRW writes the named register: c0 to c7 four cycles later, TVEC, TEPC and TSTAT.PSUP at once; the read-only registers stay
as they are; it writes no general register and no memory (R227, R412, R413). -/
def Obligations.SystemRegisters : Prop :=
  ((∀ s : State, ∃ t, exec .nop s = .next t ∧ WentTo s t noDemand s.sched.ir.npc) ∧
  (∀ (i : Instr) (d : Reg) (vs : List Word) (s : State), readForm s i = some (d, vs) →
    Ready s (writesRun d vs.length) →
    ∃ t, exec i s = .next t ∧ WroteRun s t (writesRun d vs.length) d.toNat vs)) ∧
  (∀ (d : Reg) (n : BitVec 10) (s : State), s.me.sup = true → sysKnown n.toNat = true →
    Ready s (readsD d) →
    let v := (s.vals (readsD d)).d
    ∃ t, exec (.srw d n) s = .next t ∧ t.me.pc = s.sched.ir.npc ∧ t.mem = s.mem ∧
      (∀ r, t.me.cell r = s.me.cell r) ∧ t.me.sup = s.me.sup ∧ t.me.intrap = s.me.intrap ∧ t.me.tcause = s.me.tcause ∧
      t.me.tval = s.me.tval ∧
      (n.toNat ≤ 7 → (t.coreAt s.here).cWrites = (s.coreAt s.here).cWrites ++ [⟨s.now + 4, n.toNat, v⟩]) ∧
      (7 < n.toNat → (t.coreAt s.here).cWrites = (s.coreAt s.here).cWrites) ∧
      (t.coreAt s.here).tvec = (if n.toNat = 0x20 then tvecOf v else (s.coreAt s.here).tvec) ∧
      t.me.tepc = (if n.toNat = 0x21 then v else s.me.tepc) ∧
      t.me.psup = (if n.toNat = 0x24 then v.getLsbD 1 else s.me.psup) ∧
      ((n.toNat ∈ [0x10, 0x11, 0x13, 0x14, 0x19, 0x22, 0x23, 0x28, 0x29, 0x2A, 0x2B, 0x2C, 0x2D, 0x2E, 0x2F, 0x30, 0x31]) →
        OnlySlot s t))

/-- Taking a trap (R416): results in flight are written and transients expire; a trap in a trap, or without a handler, is
not handled (R417); otherwise the trap registers are saved, the level becomes supervisor and control goes to TVEC. ERET
undoes the level and goes to TEPC, and takes the illegal-operand trap outside a trap. -/
def Obligations.TrapEntryAndReturn : Prop :=
  (∀ (s : State) (id : SlotId) (t : Trap), (s.slotAt id).intrap = false →
    (s.coreAt id.core).tvec &&& ~~~3#64 ≠ 0 →
    let sl := (s.takeTrap id t).slotAt id
    sl.tepc = t.epc ∧ sl.tcause = w64 (t.cause % 256 * 256 + t.sub % 256) ∧ sl.tval = t.val ∧
    sl.psup = (s.slotAt id).sup ∧ sl.sup = true ∧ sl.intrap = true ∧
    sl.pc = (s.coreAt id.core).tvec &&& ~~~3#64 ∧ sl.latches = [] ∧ sl.late = [] ∧
    (∀ r, sl.cell r = ((s.slotAt id).finishLate).cell r) ∧ sl.task = (s.slotAt id).task ∧
    (∀ id', id' ≠ id → (s.takeTrap id t).slotAt id' = s.slotAt id') ∧ (s.takeTrap id t).mem = s.mem) ∧
  (∀ (s : State) (id : SlotId) (t : Trap),
    (s.slotAt id).intrap = true ∨ (s.coreAt id.core).tvec &&& ~~~3#64 = 0 →
    s.takeTrap id t = (s.setSlot id ((s.slotAt id).finishLate.expireAll)).unhandled id t) ∧
  (∀ s : State, s.me.sup = true → s.me.intrap = true →
    ∃ t, exec .eret s = .next t ∧ t.me.sup = s.me.psup ∧ t.me.intrap = false ∧ t.me.pc = s.me.tepc ∧
      (∀ r, t.me.cell r = s.me.cell r) ∧ OnlySlot s t) ∧
  (∀ s : State, s.me.sup = true → s.me.intrap = false →
    exec .eret s = .next (s.raise s.sched.cur ⟨0x02, 0, s.irWord, s.sched.ir.pc⟩))

/-- TRAP, BKPT and a word that is no instruction take their traps, with the values of R415; the trap of a speculative
ordered task is held until it is the safe task (R186), and one that a unit finds in the request of another module's guest is
held to go back to it (the model's way, notes/assumptions/91). At user level every privileged instruction takes the
privileged-instruction trap and has no other effect (R48, R304, R412, R418). -/
def Obligations.SoftwareTrapsAndPrivilege : Prop :=
  ((∀ (n : BitVec 4) (a : Reg) (s : State), Ready s (readsA a false) →
    exec (.trap n a) s = .next (s.raise s.sched.cur
      ⟨0x10, n.toNat, (s.vals (readsA a false)).a, s.sched.ir.npc⟩)) ∧
  (∀ s : State, exec .bkpt s = .next (s.raise s.sched.cur ⟨0x11, 0, 0, s.sched.ir.npc⟩)) ∧
  (∀ (w : BitVec 32) (s : State), exec (.illegalInstruction w) s = .next (s.raise s.sched.cur
      (if w = 0 then ⟨0x03, 0, 0, s.sched.ir.pc⟩ else ⟨0x01, 0, w.zeroExtend 64, s.sched.ir.pc⟩))) ∧
  (∀ (s : State) (id : SlotId) (t : Trap),
    (id.slot < 16 → (s.slotAt id).task.ord = false ∨ (s.slotAt id).task.handler = true ∨ s.isSafe (s.slotAt id).task = true →
      s.raise id t = s.takeTrap id t) ∧
    (16 ≤ id.slot ∨ ((s.slotAt id).task.ord = true ∧ (s.slotAt id).task.handler = false ∧
        s.isSafe (s.slotAt id).task = false) →
      s.raise id t = s.setSlot id { s.slotAt id with st := .trapHeld t }))) ∧
  (∀ (i : Instr) (s : State), privileged s i = true → s.me.sup = false →
    exec i s = .next (s.raise s.sched.cur ⟨0x05, 0, s.irWord, s.sched.ir.pc⟩))

/-! ## Global memory (chapters 5, 11 and 14) -/

/-- Loads, stores, tag instructions, atomics and reductions whose home the slot's core serves act there at issue: memory
and tags become what the rule of the instruction says, the results reach their registers, and nothing else changes but
the sampled heat; a store, tag write or reduction to the core's scratchpad is then on its way, to be performed at issue + 3
cycles (R115, R232, R259, R338, R340, R342, R349, R350). -/
def Obligations.AccessAtHome : Prop :=
  ∀ (i : Instr) (f : MemForm) (s : State) (x : Xlat) (s1 : State), memForm i = some f → Ready s f.demand →
    f.ready s = true → (f.address (s.vals f.demand)).toNat % f.align = 0 →
    AtHome s (f.address (s.vals f.demand)) f.d (f.how (s.vals f.demand)) x s1 →
    let how := f.how (s.vals f.demand)
    let r := issueEffect s1 (accessOf s (f.address (s.vals f.demand)) x f.d how)
    ∃ t, exec i s = .next t ∧ WroteRun r.1 t f.demand f.d (returned how r.2.1 r.2.2)

/-- A misaligned address takes the illegal-operand trap before the access is made (R337), and a store, tag write, atomic or
reduction in an ordered task the ordered-violation trap with subcode 0 (R165). -/
def Obligations.AccessTraps : Prop :=
  ∀ (i : Instr) (f : MemForm) (s : State), memForm i = some f → Ready s f.demand →
    (f.ready s = true → (f.address (s.vals f.demand)).toNat % f.align ≠ 0 →
      exec i s = .next (s.raise s.sched.cur s.badOperand)) ∧
    ((∀ o size, i ≠ .std o size) → opWrites (f.how (s.vals f.demand)) = true → s.me.task.ord = true →
      exec i s = .next (s.raise s.sched.cur ⟨0x07, 0, s.irWord, s.sched.ir.pc⟩))

/-- A posted access whose home lies elsewhere leaves for it: the posted count rises by one, the access is on its way, the
slot goes on, and no byte, tag or register changes (R65, R338). Any other access whose home lies elsewhere sends the
thread there, once R228 lets it leave. -/
def Obligations.AccessElsewhere : Prop :=
  ∀ (i : Instr) (f : MemForm) (s : State) (x : Xlat) (s1 : State), memForm i = some f → Ready s f.demand →
    f.ready s = true → (f.address (s.vals f.demand)).toNat % f.align = 0 →
    let va := f.address (s.vals f.demand)
    let how := f.how (s.vals f.demand)
    translate s s.here s.me.task.job (!s.me.sup) va (opNeed how) = (.ok x, s1) →
    x.ty = 0 → (x.dev = s.fabric.self → paOk s1 x.pa = true ∧ servesHome s.here x.pa = false) → s.me.acq = none →
    region x.pa ≠ 3 →
    (opPosted how = true → s.me.posted < 1023 →
      ∃ t, exec i s = .next t ∧ t.me.posted = s.me.posted + 1 ∧ t.me.pc = s.sched.ir.npc ∧ t.mem = s1.mem ∧
        (∀ r, t.me.cell r = cellAfter s f.demand r) ∧
        (let a := { accessOf s va x f.d how with srcs := [⟨gcid s s.here, s.sched.cur.slot, 1⟩] }
         (x.dev = s.fabric.self → t.sched.inbox = s.sched.inbox ∧
          t.sched.net = s.sched.net ++ [⟨srcKey s.here s.sched.cur.slot, homeOf x.pa, .homeAccess a⟩]) ∧
         (x.dev ≠ s.fabric.self → t.sched.net = s.sched.net ∧ AccessAway s t x.dev a))) ∧
    (opPosted how = false → s.me.outst = 0 → s.me.intrap = false → s.me.mayLeave = true →
      exec i s = .next (s1.migrate s.sched.cur s.sched.ir.pc x.dev
        (if x.dev = s.fabric.self then s1.pickHome x.pa else homeOf x.pa) (some x.pa)))

/-- Bytes written at a home are read back under the same key, other bytes read under that key as before, and the memory
keeps its canonical form (R125, R260, R272). -/
def Obligations.HomeBytes : Prop :=
  ∀ (s : State) (a : Access) (l : List Byte), a.pa % 64 + l.length ≤ 64 → Memory.wf s.mem.cells = true →
    let key := s.accKey a.job a.va
    (s.putHome a l).mem.read key a.pa l.length = l ∧
    (∀ b, b < a.pa ∨ a.pa + l.length ≤ b → (s.putHome a l).mem.readByte key b = s.mem.readByte key b) ∧
    Memory.wf (s.putHome a l).mem.cells = true

/-- A translation changes nothing but memory: the caches of translations, the counters of the accesses it makes, and of
the bytes, while no access is sampled, only the accessed and dirty bits of the leaf entry it used, eight bytes in all
(R103, R106, R109, R115). A non-canonical address faults NONCANON, an access at user level to supervisor space faults PERM,
and a job without tables NOTPRES (R102, R105, R112). -/
def Obligations.TranslationFrameAndFaults : Prop :=
  (∀ (s s1 : State) (loc job : Nat) (user : Bool) (va : Word) (need : Need) (r : XRes),
    translate s loc job user va need = (r, s1) →
    s1 = s.setMem { s.mem with cells := s1.mem.cells, tcache := s1.mem.tcache, heatCount := s1.mem.heatCount } ∧
    (s.churn.heatEn = false → ((∀ x, r ≠ .ok x) → s1.mem.cells = s.mem.cells) ∧
      (Memory.wf s.mem.cells = true →
        ∃ pa, ∀ b, b < pa ∨ pa + 8 ≤ b → byteAt s1.mem.cells b = byteAt s.mem.cells b)) ∧
    (Memory.wf s.mem.cells = true → Memory.wf s1.mem.cells = true)) ∧
  (∀ (s : State) (loc job : Nat) (user : Bool) (va : Word) (need : Need),
    (va.toNat / 2 ^ 53 ≠ 0 → va.toNat / 2 ^ 53 ≠ 2047 → translate s loc job user va need = (.fault 3 0, s)) ∧
    (va.toNat / 2 ^ 53 = 2047 → user = true → translate s loc job user va need = (.fault 2 0, s)) ∧
    (canonical va.toNat = true → (user = true → va.toNat / 2 ^ 53 = 0) → mget? s.work.jobs job = none →
      translate s loc job user va need = (.fault 1 4, s)))

/-! ## Orderings, barriers, migration (chapters 9, 11 and 14) -/

/-- FENCE.rel, FENCE.acqrel and ACKW complete once the posted count is zero, the slot's scratchpad writes are performed
and the dirty lines that their scope covers are written back, those homed elsewhere or in pool memory acknowledged; until then the slot loses its turns (R266, R352, R353).
FENCE.acq goes on at once and leaves its acquire open, which drops clean lines only (R267). -/
def Obligations.ReleasesAndAcquires : Prop :=
  (∀ (i : Instr) (scope : BitVec 3) (acq : Option (BitVec 3)) (s : State), releaseForm s i = some (scope, acq) →
    s.me.acq = none → scope = 0 ∨ (s.me.posted = 0 ∧ s.scrPending = false ∧ awaited s scope = false) →
    ∃ t, exec i s = .next t ∧ t.me.pc = s.sched.ir.npc ∧
      KeepsSlot { s.me with relBegun := false, acq := acq } t.me ∧ (∀ r, t.me.cell r = s.me.cell r) ∧
      (scope ≠ 0 → s.me.relBegun = false →
        ∀ l ∈ t.mem.clines, scopeLines s s.here scope.toNat l = true → l.dirty = 0) ∧
      (scope = 0 ∨ s.me.relBegun = true ∨ coveredDirty s scope = [] → OnlySlot s t)) ∧
  (∀ (i : Instr) (scope : BitVec 3) (acq : Option (BitVec 3)) (s : State), releaseForm s i = some (scope, acq) →
    s.me.acq = none → scope ≠ 0 → s.me.relBegun = false →
    s.me.posted ≠ 0 ∨ s.scrPending = true ∨ awaited s scope = true →
    ∃ t, exec i s = .next t ∧ t.me = { s.me with relBegun := true } ∧
      (∀ l ∈ t.mem.clines, scopeLines s s.here scope.toNat l = true → l.dirty = 0)) ∧
  (∀ (scope : BitVec 3) (s : State), s.me.acq = none →
    ∃ t, exec (.fence 0 scope) s = .next t ∧ OnlySlot s t ∧ t.me.pc = s.sched.ir.npc ∧
      KeepsSlot { s.me with acq := some scope } t.me ∧ (∀ r, t.me.cell r = s.me.cell r)) ∧
  (∀ (scope : BitVec 3) (s : State), s.me.acq = some scope →
    (s.me.outst ≠ 0 → settleAcquire s = s) ∧
    (s.me.outst = 0 → (settleAcquire s).me = { s.me with acq := none } ∧
      (settleAcquire s).mem = { s.mem with clines := (settleAcquire s).mem.clines } ∧
      ∀ l, l ∈ (settleAcquire s).mem.clines ↔
        l ∈ s.mem.clines ∧ (l.dirty ≠ 0 ∨ scopeLines s s.here scope.toNat l = false)))

/-- LDACQ at its home is a 64-bit load that leaves an acquire open at its scope; STREL, once its release is complete, a
64-bit store (R343). -/
def Obligations.AcquireLoadReleaseStore : Prop :=
  (∀ (o : Ops2) (scope : BitVec 3) (s : State) (x : Xlat) (s1 : State),
    let m : Demand := ⟨some (o.a.toNat, o.sa), none, none, [], [o.d.toNat]⟩
    o.t = false → Ready s m → (s.vals m).a.toNat % 8 = 0 → AtHome s (s.vals m).a o.d.toNat (.load 3) x s1 →
    let r := issueEffect s1 (accessOf s (s.vals m).a x o.d.toNat (.load 3))
    ∃ t, exec (.ldacq o scope) s = .next t ∧
      WroteRun (r.1.setMe { r.1.me with acq := some scope }) t m o.d.toNat [r.2.1]) ∧
  (∀ (o : OpsAB) (scope : BitVec 3) (s : State) (x : Xlat) (s1 : State),
    let m : Demand := ⟨some (o.a.toNat, o.sa), some (o.b.toNat, o.sb), none, [], []⟩
    Ready s m → s.me.task.ord = false → releaseDone s scope → (s.vals m).a.toNat % 8 = 0 →
    AtHome s (s.vals m).a 0 (.store 8 (s.vals m).b) x s1 →
    let r := issueEffect s1 (accessOf s (s.vals m).a x 0 (.store 8 (s.vals m).b))
    ∃ t, exec (.strel o scope) s = .next t ∧
      WroteRun (r.1.setMe { r.1.me with relBegun := (afterRelease s scope).relBegun }) t m 0 [])

/-- HOME and VISIT take one turn where the thread already stands at the place they name; otherwise, once R228 lets the
thread leave, they send it there (R62, R228, R345). A thread that leaves is away with its packet outstanding, its bound
transients expired and its registers in the packet, an empty one as zero (R63, R226, R229). -/
def Obligations.HomeVisitAndMigration : Prop :=
  (∀ s : State, s.me.acq = none →
    (s.onDcore = true → ∃ t, exec .home s = .next t ∧ WentTo s t noDemand s.sched.ir.npc) ∧
    (s.onDcore = false → s.me.intrap = false → s.me.mayLeave = true →
      exec .home s = .next (s.migrate s.sched.cur s.sched.ir.pc (modOf s.me.task.dcore) (coreOf s.me.task.dcore) none)) ∧
    (s.onDcore = false → s.me.intrap = false → s.me.mayLeave = false → exec .home s = .next s)) ∧
  (∀ (a : Reg) (sa : Bool) (s s1 : State) (x : Xlat), Ready s (readsA a sa) → s.me.acq = none → s.me.outst = 0 →
    s.me.intrap = false →
    translate s s.here s.me.task.job (!s.me.sup) (s.vals (readsA a sa)).a .read = (.ok x, s1) → x.ty ≠ 2 →
    (x.dev = s.fabric.self → paOk s1 x.pa = true) →
    (x.dev = s.fabric.self → servesHome s.here x.pa = true →
      ∃ t, exec (.visit a sa) s = .next t ∧ WentTo s1 t (readsA a sa) s.sched.ir.npc) ∧
    ((x.dev ≠ s.fabric.self ∨ servesHome s.here x.pa = false) → s.me.mayLeave = true →
      exec (.visit a sa) s = .next (s1.migrate s.sched.cur s.sched.ir.pc x.dev
        (if x.dev = s.fabric.self then s1.pickHome x.pa else homeOf x.pa) (some x.pa)))) ∧
  (∀ (s : State) (id : SlotId) (pc : Word) (mod home : Nat) (addr : Option Nat), (s.slotAt id).task.ord = false →
    mod < 2 ^ 14 → home < 2 ^ 16 →
    let m := migrantOf s id (s.slotAt id) pc (mod * 65536 + home) addr
    let t := s.migrate id pc mod home addr
    (t.slotAt id).st = .away ∧ (t.slotAt id).mack = some m ∧ (t.slotAt id).latches = [] ∧ t.mem = s.mem ∧
    m.regs.length = (s.slotAt id).task.nregs ∧
    (∀ r, r < (s.slotAt id).task.nregs →
      m.regs[r]? = some (if ((s.slotAt id).cell r).full then ((s.slotAt id).cell r).val else 0)) ∧
    (mod = s.fabric.self → t.sched.net = s.sched.net ++ [⟨srcKey id.core id.slot, home, .migrantArrival m⟩]) ∧
    (mod ≠ s.fabric.self → t.sched.inbox = s.sched.inbox ++ [.routeHop (s.packet 3 mod (addr.getD 0) id.core id.slot
      m.part (s.slotAt id).task.launch (.migrant m))]))

/-- PROMOTE of a cluster of this module writes back that cluster's dirty lines, waits until every write-back is acknowledged,
and then drops the clean lines of the slot's own cluster and of the remote-line cache; of another module's cluster it asks
that module and waits (R269, R354). PHASE adds a running graph of its job to the phase's set, and answers with the status and the phase number
(R355). -/
def Obligations.PromoteAndPhase : Prop :=
  (∀ (a : Reg) (sa : Bool) (s : State), Ready s (readsA a sa) → s.me.acq = none →
    let v := (s.vals (readsA a sa)).a.toNat
    let cl := bits v 9 0
    let out : Bool := s.mem.wbOut.any (fun x => x.1 == cl) || (!s.me.relBegun && s.mem.clines.any (fun l =>
      l.loc == cl && l.dirty != 0 && (l.dev != s.fabric.self || isPool (l.line * 64))))
    (bits v 23 10 = s.fabric.self → inPartition s (s.partOfTask s.me.task) cl = true → out = false →
      ∃ t, exec (.promote a sa) s = .next t ∧ t.me.pc = s.sched.ir.npc ∧
      KeepsSlot { s.me with relBegun := false } t.me ∧ (∀ r, t.me.cell r = cellAfter s (readsA a sa) r) ∧
      (s.me.relBegun = false → ∀ l ∈ t.mem.clines, l.loc = cl → l.dirty = 0) ∧
      (isTile s.part s.here = true → ∀ l ∈ t.mem.clines, l.loc = clusterOf s.here → l.dirty ≠ 0) ∧
      (∀ l ∈ t.mem.clines, l.loc = remoteCache → l.dev ≠ s.fabric.self → l.dirty ≠ 0) ∧
      (∀ l ∈ s.mem.clines, l.dirty ≠ 0 → l.loc ≠ cl → l.loc ≠ remoteCache → l ∈ t.mem.clines)) ∧
    (bits v 23 10 = s.fabric.self → inPartition s (s.partOfTask s.me.task) cl = true → out = true →
      ∃ t, exec (.promote a sa) s = .next t ∧ t.me = { s.me with relBegun := true } ∧
      (s.me.relBegun = false → ∀ l ∈ t.mem.clines, l.loc = cl → l.dirty = 0)) ∧
    (bits v 23 10 ≠ s.fabric.self → ∃ t, exec (.promote a sa) s = .next t ∧ t.me.st = .waiting ∧
      t.me.pc = s.sched.ir.pc ∧ t.me.next = s.sched.ir.npc ∧ t.mem = s.mem ∧
      t.sched.inbox = s.sched.inbox ++ [.routeHop (s.packet 2 (bits v 23 10) 0 s.here s.sched.cur.slot
        (s.partOfTask s.me.task) s.me.task.launch (.promote cl s.sched.cur))])) ∧
  (∀ (a : Reg) (sa : Bool) (s : State), Ready s (readsA a sa) →
    let v := (s.vals (readsA a sa)).a.toNat
    bits v 23 10 = s.fabric.self → inPartition s (s.partOfTask s.me.task) (bits v 9 0) = false →
    exec (.promote a sa) s = .next (s.raise s.sched.cur ⟨0x08, 0, w64 (v % 2 ^ 24), s.sched.ir.pc⟩)) ∧
  (∀ (o : OpsDA) (s : State),
    let m : Demand := ⟨some (o.a.toNat, o.sa), none, none, [], [o.d.toNat]⟩
    Ready s m → ownModule s → s.me.task.ord = false → s.me.acq = none → s.me.outst = 0 →
    let g := bits (s.vals m).a.toNat 15 0
    let part := s.partOf s.me.task.launch
    ((∀ gr, mget? s.work.graphs g = some gr → gr.job ≠ s.me.task.job) →
      ∃ t, exec (.phase o) s = .next t ∧ WroteRun s t m o.d.toNat [w64 (2 * 2 ^ 62 + s.phaseOf part)]) ∧
    (∀ gr, mget? s.work.graphs g = some gr → gr.job = s.me.task.job →
      (3 ≤ gr.st → ∃ t, exec (.phase o) s = .next t ∧ WroteRun s t m o.d.toNat [w64 (2 ^ 62 + s.phaseOf part)]) ∧
      (gr.st < 3 → ∃ t, exec (.phase o) s = .next t ∧
        let sets := mput s.work.phaseSets part (numIns (mget s.work.phaseSets part []) g)
        WroteRun (s.setWork { s.work with phaseSets := sets }) t m o.d.toNat [w64 (s.phaseOf part)])))

/-- BARJOIN, BARLEAVE, BARARR and BARARN for a barrier whose home lies elsewhere: once their release is complete the
request leaves for the home, the join list becomes what R358 says, BARARR parks and the others go on with their result
pending (R338, R357, R358). What the join list forbids takes the illegal-operand trap. -/
def Obligations.BarrierRequests : Prop :=
  (∀ (i : Instr) (f : BarForm) (s s1 : State) (x : Xlat), barForm i = some f → Ready s f.demand →
    s.me.task.ord = false → s.me.acq = none → s.me.outst = 0 → s.me.posted = 0 → releaseDone s f.scope →
    let v := s.vals f.demand
    v.a.toNat % 32 = 0 → f.allowed s.me.task.joins v.a v.b = true →
    translate s s.here s.me.task.job (!s.me.sup) v.a .both = (.ok x, s1) → x.ty = 0 → region x.pa ≠ 3 →
    (x.dev = s.fabric.self → paOk s1 x.pa = true ∧ servesHome s.here x.pa = false) →
    ∃ t, exec i s = .next t ∧ t.mem = s1.mem ∧ t.me.posted = 0 ∧
      t.me.task = { s.me.task with joins := f.joins s.me.task.joins v.a v.b } ∧
      (let a := accessOf s v.a x f.d (.barrier (f.req v.b) f.scope)
       (x.dev = s.fabric.self → t.sched.net =
          s.sched.net ++ [⟨srcKey s.here s.sched.cur.slot, homeOf x.pa, .homeAccess a⟩]) ∧
       (x.dev ≠ s.fabric.self → AccessAway s t x.dev a)) ∧
      (f.wait = false → t.me.pc = s.sched.ir.npc ∧ t.me.outst = 1 ∧ t.me.acq = none ∧
        (f.d ≠ 0 → (t.me.cell f.d).full = false ∧ (t.me.cell f.d).pend = true)) ∧
      (f.wait = true → t.me.st = .waiting ∧ t.me.pc = s.sched.ir.pc ∧ t.me.next = s.sched.ir.npc ∧
        t.me.acq = some f.scope)) ∧
  (∀ (i : Instr) (f : BarForm) (s : State), barForm i = some f → Ready s f.demand → s.me.task.ord = false →
    let v := s.vals f.demand
    v.a.toNat % 32 ≠ 0 ∨ f.allowed s.me.task.joins v.a v.b = false →
    exec i s = .next (s.raise s.sched.cur s.badOperand))

/-- What a home does with a barrier request (R358): joins and leaves change their counts, an arrival counts unless FLT is
set, an underpopulated barrier sets FLT and releases its waiters with status 1, and an episode that completes starts the
next and releases them with status 0. -/
def Obligations.BarrierService : Prop :=
  (∀ b : BarBlk, b.members = 2 ^ 32 - 1 → (serveBarrier b .joinSelf).status = 2 ∧ (serveBarrier b .joinSelf).blk = b) ∧
  (∀ b : BarBlk, b.members = 0 → (serveBarrier b .leaveSelf).status = 2 ∧ (serveBarrier b .leaveSelf).blk = b) ∧
  (∀ (b : BarBlk) (w : Bool), b.flt = true →
    (serveBarrier b (.arrive w)).status = 1 ∧ (serveBarrier b (.arrive w)).blk = b ∧
    (serveBarrier b (.arrive w)).counted = false) ∧
  (∀ (b b' : BarBlk) (r : BarReq), barCount b r = .inr b' →
    let v := serveBarrier b r
    let short := b'.flt = false ∧ 0 < b'.expect ∧ b'.members + b'.pendj < b'.expect
    let full := b'.flt = false ∧ 0 < b'.arrived ∧ (if b'.expect = 0 then b'.members else b'.expect) ≤ b'.arrived ∧
      (0 < b'.expect ∨ b'.pendj = 0)
    (short → v.blk = { b' with flt := true } ∧ v.status = 1 ∧ v.release = some 1 ∧ v.notify = true) ∧
    (¬short → full → v.blk = { b' with arrived := 0, gen := (b'.gen + 1) % 2 ^ 32 } ∧ v.status = 0 ∧
      v.release = some 0 ∧ v.notify = false) ∧
    (¬short → ¬full → v.blk = b' ∧ v.status = (if b'.flt then 1 else 0) ∧ v.release = none ∧ v.notify = false)) ∧
  (∀ (b : BarBlk) (n : Word),
    (b.members ≠ 2 ^ 32 - 1 → barCount b .joinSelf = .inr { b with members := b.members + 1, pendj := b.pendj - 1 }) ∧
    barCount b (.joinAnnounce n) = .inr { b with pendj := min (b.pendj + n.toNat % 2 ^ 32) (2 ^ 32 - 1) } ∧
    (b.members ≠ 0 → barCount b .leaveSelf = .inr { b with members := b.members - 1 }) ∧
    barCount b (.leaveAnnounce n) = .inr { b with pendj := b.pendj - min b.pendj (n.toNat % 2 ^ 32) } ∧
    (b.flt = false → ∀ w, barCount b (.arrive w) = .inr { b with arrived := b.arrived + 1 })) ∧
  (∀ b : BarBlk, b.expect < 2 ^ 32 → b.members < 2 ^ 32 → b.pendj < 2 ^ 32 → b.arrived < 2 ^ 32 → b.gen < 2 ^ 32 →
    (barBytes b).length = 24 ∧
    barOf (bytesNat ((barBytes b).take 8)) (bytesNat (((barBytes b).drop 8).take 8)) (bytesNat ((barBytes b).drop 16)) = b)

/-! ## Scratchpads and vectors (chapters 9, 10 and 15) -/

/-- LDS and LDBIT read the scratchpad of the slot's core, STS and STBIT send a write on its way, PSET, PGET and ROWTAG act
on pointers and row tags, each taking the vector unit for the cycles of R233 (R231 to R234, R346 to R348). -/
def Obligations.ScratchpadInstructions : Prop :=
  (∀ (o : OpsLds) (zx : Bool) (s : State),
    let m : Demand := ⟨some (o.base.toNat, o.sb), none, none, [], [o.d.toNat]⟩
    let off := ((s.vals m).a + o.disp.signExtend 64).toNat
    let n := 2 ^ o.size.toNat
    Ready s m → ScrReady s [off / 64] → off % n = 0 → off < 0xC000 →
    ∃ t, exec (if zx then .ldsN o else .lds o) s = .next t ∧
      Wrote (s.occupy s.here 1) t m o.d.toNat false
        (let b := bytesNat (s.scrBytes s.here off n)
         if zx then w64 b else extendLoad (o.size.zeroExtend 3) b)) ∧
  (∀ (o : OpsLds) (s : State),
    let m : Demand := ⟨some (o.base.toNat, o.sb), none, some o.d.toNat, [], []⟩
    let off := ((s.vals m).a + o.disp.signExtend 64).toNat
    let n := 2 ^ o.size.toNat
    Ready s m → ScrReady s [] →
    (off % n = 0 → off < 0xC000 → ∃ t, exec (.sts o) s = .next t ∧
      WentTo (afterVector s 1 (some (off, none)) (natBytes n (s.vals m).d.toNat)) t m s.sched.ir.npc) ∧
    (off % n ≠ 0 ∨ 0xC000 ≤ off → exec (.sts o) s = .next (s.raise s.sched.cur s.badOperand))) ∧
  (∀ (d : Reg) (sx step : Bool) (p : Ptr) (len : BitVec 6) (s : State),
    let addr := ptrAddr (s.me.ptr p.toNat)
    let n := len.toNat + 1
    let f := fieldGet s.mem.cells s.here addr n
    let s1 := s.occupy s.here (fieldRows addr n).length
    Ready s (writesRun d 1) → ScrReady s (fieldRows addr n) → s.me.lost p.toNat = false →
    ∃ t, exec (.ldbit d sx step p len) s = .next t ∧
      Wrote (s1.setMe (stepIf s.me p.toNat step)) t (writesRun d 1) d.toNat false
        (if sx && f.testBit (n - 1) then BitVec.ofInt 64 ((f : Int) - 2 ^ n) else w64 f)) ∧
  (∀ (d : Reg) (step : Bool) (p : Ptr) (len : BitVec 6) (s : State),
    let addr := ptrAddr (s.me.ptr p.toNat)
    let n := len.toNat + 1
    let bs := fieldPut (s.scrSettled s.here) addr (s.vals (readsD d)).d.toNat n []
    let s1 := s.occupy s.here (fieldRows addr n).length
    Ready s (readsD d) → ScrReady s [] → s.me.lost p.toNat = false →
    ∃ t, exec (.stbit d step p len) s = .next t ∧
      WentTo ((bs.foldl (fun s b => s.scrWrite s.here s.sched.cur.slot b.1 [b.2] none) s1).setMe
        (stepIf s.me p.toNat step)) t (readsD d) s.sched.ir.npc) ∧
  (∀ (d : Reg) (p : Ptr) (s : State), Ready s (readsD d) → ScrReady s [] →
    let v := (s.vals (readsD d)).d
    let ok := bits v.toNat 63 40 = 0 ∧ bits v.toNat 23 19 = 0 ∧ v.toNat % 2 ^ 19 < 393216
    (ok → ∃ t, exec (.pset d p) s = .next t ∧ OnlySlot (s.occupy s.here 1) t ∧ t.me.ptr p.toNat = v ∧
      t.me.lost p.toNat = false ∧ (∀ q, q ≠ p.toNat → t.me.ptr q = s.me.ptr q ∧ t.me.lost q = s.me.lost q) ∧
      (∀ r, t.me.cell r = s.me.cell r) ∧ t.me.pc = s.sched.ir.npc) ∧
    (¬ok → exec (.pset d p) s = .next (s.raise s.sched.cur s.badOperand))) ∧
  (∀ (d : Reg) (p : Ptr) (s : State), Ready s (writesRun d 1) → ScrReady s [] → s.me.lost p.toNat = false →
    ∃ t, exec (.pget d p) s = .next t ∧
      Wrote (s.occupy s.here 1) t (writesRun d 1) d.toNat false (s.me.ptr p.toNat)) ∧
  (∀ (d base : Reg) (sb : Bool) (s : State),
    let m : Demand := ⟨some (base.toNat, sb), none, none, [], [d.toNat]⟩
    let r := (s.vals m).a.toNat
    Ready s m → ScrReady s [] → r < 768 →
    let tag := (s.coreAt s.here).row r
    ∃ t, exec (.rowtagR d base sb) s = .next t ∧ Wrote (s.occupy s.here 1) t m d.toNat false
      (w64 ((if tag.full then 1 else 0) + (if tag.pin then 2 else 0) + (if tag.poison then 4 else 0)))) ∧
  (∀ (base : Reg) (sb : Bool) (s : State),
    let r := (s.vals (readsA base sb)).a.toNat
    Ready s (readsA base sb) → ScrReady s [] → s.here < 65536 → r < 768 →
    let tag := (s.coreAt s.here).row r
    (∃ t, exec (.rowtagF base sb) s = .next t ∧ t.me.pc = s.sched.ir.npc ∧ t.mem = s.mem ∧
      ∀ q, (t.coreAt s.here).row q = if q = r then { tag with full := true } else (s.coreAt s.here).row q) ∧
    (∃ t, exec (.rowtagE base sb) s = .next t ∧ t.me.pc = s.sched.ir.npc ∧ t.mem = s.mem ∧
      ∀ q, (t.coreAt s.here).row q = if q = r then { tag with full := false } else (s.coreAt s.here).row q) ∧
    (∃ t, exec (.rowtagC base sb) s = .next t ∧ t.me.pc = s.sched.ir.npc ∧ t.mem = s.mem ∧
      ∀ q, (t.coreAt s.here).row q = if q = r then { tag with poison := false } else (s.coreAt s.here).row q)) ∧
  (∀ (base : Reg) (sb : Bool) (s : State), Ready s (readsA base sb) → s.onDcore = true →
    768 ≤ (s.vals (readsA base sb)).a.toNat →
    exec (.rowtagF base sb) s = .next (s.raise s.sched.cur s.badOperand) ∧
    exec (.rowtagE base sb) s = .next (s.raise s.sched.cur s.badOperand) ∧
    exec (.rowtagC base sb) s = .next (s.raise s.sched.cur s.badOperand))

/-- A scratchpad write is not seen before its cycle and is performed then, byte for byte, leaving every other byte as it
was (R232); a pointer steps by its stride modulo 393,216 (R234). -/
def Obligations.ScratchpadWritesLand : Prop :=
  (∀ (s : State) (k slot off : Nat) (l : List Byte) (clean : Option Nat), (s.coreAt k).writes = [] →
    Memory.wf s.mem.cells = true →
    let t := s.scrWrite k slot off l clean
    t.mem = s.mem ∧ (t.flushWrites k).mem = s.mem ∧
    (∀ n, s.now + 4 ≤ n →
      let u := (t.setSched { t.sched with stamp := n }).flushWrites k
      u.scrBytes k off l.length = l ∧ (u.coreAt k).writes = [] ∧
      (∀ b, b < scrPa k off ∨ scrPa k off + l.length ≤ b → byteAt u.mem.cells b = byteAt s.mem.cells b) ∧
      (∀ r, ((u.coreAt k).row r).poison = (((s.coreAt k).row r).poison && clean != some r)))) ∧
  (∀ p : Word, ptrAddr p < 393216 →
    ptrAddr (ptrStep p) < 393216 ∧ ptrStride (ptrStep p) = ptrStride p ∧
    ((ptrAddr (ptrStep p) : Int) - (ptrAddr p + 8 * (ptrStride p).toInt)) % 393216 = 0)

/-- Every vector instruction in a plain task, with its pointers at row starts and its rows full and clean, writes the
elements of R364 to R372, takes the vector unit for its cycles and steps its pointers (R231, R233, R234, R361). -/
def Obligations.VectorResults : Prop :=
  ∀ (i : Instr) (tab : List Byte) (f : VecForm) (s : State), vectorForm tab i = some f →
    (∀ v ty k, (i = .vdec v ty k ∨ i = .venc v ty k) →
      s.taskTable s.me.task = some tab ∧ tblWid tab = tblWidth ty) →
    Ready s f.demand → ScrReady s (f.rows s.me) →
    (∀ p ∈ f.ptrs, s.me.lost p.1.toNat = false ∧ (s.me.ptr p.1.toNat).toNat % 512 = 0) →
    let value := f.value ((f.rows s.me).map (fun r => s.scrBytes s.here (64 * r) 64)) (s.vals f.demand).a
    let s1 := afterVector s (f.base + bankCost (f.rows s.me)) (f.target s.me) value
    let s2 := s1.setMe (stepAll s.me f.ptrs)
    ∃ t, exec i s = .next t ∧
      (∀ d, f.dst = .reg d → Wrote s2 t f.demand d.toNat false (w64 (bytesNat value))) ∧
      ((∀ d, f.dst ≠ .reg d) → WentTo s2 t f.demand s.sched.ir.npc)

/-- When a vector instruction does not issue: a pointer off its row's start or lost takes the illegal-operand trap (R230,
R234), a busy unit and an empty row lose the turn, a poisoned row takes the data-poison trap (R231, R233). -/
def Obligations.VectorTraps : Prop :=
  ∀ (i : Instr) (tab : List Byte) (f : VecForm) (s : State), vectorForm tab i = some f →
    (∀ v ty k, (i = .vdec v ty k ∨ i = .venc v ty k) →
      s.taskTable s.me.task = some tab ∧ tblWid tab = tblWidth ty) →
    Ready s f.demand → s.onDcore = true →
    ((∃ p ∈ f.ptrs, s.me.lost p.1.toNat = true ∨ (s.me.ptr p.1.toNat).toNat % 512 ≠ 0) →
      exec i s = .next (s.raise s.sched.cur s.badOperand)) ∧
    ((∀ p ∈ f.ptrs, s.me.lost p.1.toNat = false ∧ (s.me.ptr p.1.toNat).toNat % 512 = 0) → s.me.acq = none →
      (s.vuBusy s.here = true → exec i s = .next s) ∧
      (s.vuBusy s.here = false → (∃ r ∈ f.rows s.me, ((s.coreAt s.here).row r).full = false) → exec i s = .next s) ∧
      (∀ (l1 l2 : List Nat) (r : Nat), s.vuBusy s.here = false → f.rows s.me = l1 ++ r :: l2 →
        (∀ q ∈ f.rows s.me, ((s.coreAt s.here).row q).full = true) →
        (∀ q ∈ l1, ((s.coreAt s.here).row q).poison = false) → ((s.coreAt s.here).row r).poison = true →
        exec i s = .next (s.raise s.sched.cur ⟨0x0D, 0, w64 r, s.sched.ir.pc⟩)))

/-! ## Nests, work, messages (chapters 6, 7, 13 and 16) -/

/-- NEST joins the live nest of its launch with the record named, or creates one from a record that obeys R147, and ITER
takes the next index of the slot's chunk, a new chunk of the size of R147, or the end (R147, R148, R334, R335). -/
def Obligations.NestsAndIteration : Prop :=
  (∀ (o : OpsDA) (s : State) (n p : Nat) (ne : Nest),
    let m : Demand := ⟨some (o.a.toNat, o.sa), none, none, [], [o.d.toNat]⟩
    let cl := clusterOf (coreOf s.me.task.dcore)
    let ns := (s.cluster cl).nests
    Ready s m → s.me.task.ord = false → s.me.task.nest = none → s.me.posted = 0 → s.me.acq = none → ownModule s →
    (s.vals m).a.toNat % 32 = 0 →
    ns.find? (fun x => x.2.launch == s.me.task.launch && x.2.addr == (s.vals m).a) = some (n, ne) →
    freePart ns 0 256 = some p →
    let s1 := s.setCluster cl { s.cluster cl with nests := mput ns n { ne with parts := mput ne.parts p (0, 0) } }
    let s2 := s1.setMe { s.me with task := { s.me.task with nest := some (cl, n, p) } }
    ∃ t, exec (.nest o) s = .next t ∧ WroteRun s2 t m o.d.toNat [w64 (2 ^ 62 + n)]) ∧
  (∀ (o : OpsDA) (s sx : State) (x : Xlat) (n p n0 n1 n2 ndim minc : Nat),
    let m : Demand := ⟨some (o.a.toNat, o.sa), none, none, [], [o.d.toNat]⟩
    let cl := clusterOf (coreOf s.me.task.dcore)
    let ns := (s.cluster cl).nests
    let va := (s.vals m).a
    let a := accessOf s va x 0 (.load 3)
    Ready s m → s.me.task.ord = false → s.me.task.nest = none → s.me.posted = 0 → s.me.acq = none → ownModule s →
    va.toNat % 32 = 0 → ns.find? (fun x => x.2.launch == s.me.task.launch && x.2.addr == va) = none →
    freeKey ns 0 16 = some n → freePart ns 0 256 = some p →
    translate s s.here s.me.task.job (!s.me.sup) va .read = (.ok x, sx) → homeCheck sx a = none →
    x.dev = s.fabric.self → region x.pa < 4 → lineBusy sx x.pa false = none →
    (∀ i, i < 4 → sx.isPoison (x.pa + 8 * i) = false) →
    nestOf (sx.getHome a 8) (sx.getHome { a with pa := a.pa + 8 } 8) (sx.getHome { a with pa := a.pa + 16 } 8)
      (sx.getHome { a with pa := a.pa + 24 } 8) = some (n0, n1, n2, ndim, minc) →
    let ne : Nest := ⟨va, s.me.task.launch, n0, n1, n2, ndim, minc, 0, n0 * n1 * n2, [(p, (0, 0))]⟩
    let s1 := (sx.heat x.pa).setCluster cl { s.cluster cl with nests := mput ns n ne }
    let s2 := s1.setMe { s.me with task := { s.me.task with nest := some (cl, n, p) } }
    ∃ t, exec (.nest o) s = .next t ∧ WroteRun s2 t m o.d.toNat [w64 n]) ∧
  (∀ (d : Reg) (n : BitVec 2) (s : State) (cl k p : Nat) (ne : Nest),
    let m : Demand := writesRun d n.toNat
    let c := s.cluster cl
    Ready s m → d ≠ 0 → s.me.task.ord = false → s.me.task.nest = some (cl, k, p) → ownModule s →
    mget? c.nests k = some ne → n.toNat = ne.ndim → 0 < ne.minchunk →
    let b := (mget ne.parts p (0, 0)).1
    let rem := (mget ne.parts p (0, 0)).2
    let cl1 (ne : Nest) : State := s.setCluster cl { c with nests := mput c.nests k ne }
    let size := min (max ne.minchunk ((ne.remaining + 2 * ne.parts.length - 1) / (2 * ne.parts.length))) ne.remaining
    (0 < rem → ∃ t, exec (.iter d n) s = .next t ∧
      WroteRun (cl1 { ne with parts := mput ne.parts p (b + 1, rem - 1) }) t m d.toNat (unpackIndex ne b)) ∧
    (rem = 0 → 0 < ne.remaining → ∃ t, exec (.iter d n) s = .next t ∧
      WroteRun (cl1 { ne with next := ne.next + size, remaining := ne.remaining - size,
                              parts := mput ne.parts p (ne.next + 1, size - 1) }) t m d.toNat (unpackIndex ne ne.next)) ∧
    (rem = 0 → ne.remaining = 0 → ∃ t, exec (.iter d n) s = .next t ∧ t.me.task.nest = none ∧
      t.me.pc = s.sched.ir.npc ∧ (∀ r ∈ m.dests, t.me.cell r = ⟨BitVec.allOnes 64, true, false⟩))) ∧
  (∀ (ne : Nest) (l : Nat), 0 < ne.n1 → 0 < ne.n2 →
    (ne.ndim = 1 → unpackIndex ne l = [w64 (l % ne.n2)]) ∧
    (ne.ndim = 2 → unpackIndex ne l = [w64 (l / ne.n2 % ne.n1), w64 (l % ne.n2)]) ∧
    (ne.ndim = 3 → unpackIndex ne l = [w64 (l / (ne.n1 * ne.n2)), w64 (l / ne.n2 % ne.n1), w64 (l % ne.n2)]) ∧
    l = (l / (ne.n1 * ne.n2)) * (ne.n1 * ne.n2) + (l / ne.n2 % ne.n1) * ne.n2 + l % ne.n2)

/-- QUIT loses its turns while a stream runs or a request on q4 or q5 is open; then it frees the slot and the rows its
task pinned, and COUNT falls, at once in a plain task, while an ordered task becomes HELD (R166, R394). -/
def Obligations.QuitEndsTask : Prop :=
  (∀ s : State, s.me.streams0 ≠ 0 ∨ s.me.streams1 ≠ 0 ∨ s.me.q4 ≠ 0 ∨ s.me.q5 ≠ 0 → exec .quit s = .next s) ∧
  (∀ s : State, s.me.streams0 = 0 → s.me.streams1 = 0 → s.me.q4 = 0 → s.me.q5 = 0 →
    ∃ t, exec .quit s = .next t ∧ t.me.st = .free ∧ t.me.regs = [] ∧ t.me.latches = [] ∧ t.me.task = Task.reset ∧
      (ownModule s → s.me.task.joins = [] → s.me.task.ord = false →
        (s.streaming s.sched.cur = false → ∀ r ∈ s.me.task.pins, ((t.coreAt (coreOf s.me.task.dcore)).row r).pin = false) ∧
        (∀ l, s.launchAt s.me.task.launch = some l →
          t.launchAt s.me.task.launch = some { l with count := l.count - 1 } ∧
          (l.count = 1 → l.multi = false → l.ord = false → .launchComplete s.me.task.launch ∈ t.sched.inbox))) ∧
      (ownModule s → s.me.task.joins = [] → s.me.task.ord = true →
        ∀ e, mget? (s.coreAt (coreOf s.me.task.dcore)).spec s.me.task.spec = some e →
          mget? (t.coreAt (coreOf s.me.task.dcore)).spec s.me.task.spec = some { e with st := .held } ∧
          ∀ l, s.launchAt s.me.task.launch = some l → t.launchAt s.me.task.launch = some l))

/-- SPAWN and SPAWNW ask a valid target for a thread and raise COUNT; the target starts it in a free slot and answers 0,
refuses a SPAWN with 1, and keeps a SPAWNW, which a freed slot serves (R139, R392). -/
def Obligations.ThreadsAreSpawned : Prop :=
  (∀ (d a b : Reg) (sa wait : Bool) (s : State),
    let i : Instr := if wait then .spawnw d a b sa else .spawn d a b sa
    let m := spawnDemand d a b sa
    let v := s.vals m
    Ready s m → s.me.task.ord = false → v.a.toNat % 64 = 0 →
    (targetOk s (s.partOfTask s.me.task) (v.d.toNat % 2 ^ 30) = true → s.me.spawns < 4 →
      ownModule s ∨ (s.launchOf s.me.task).isSome = true →
      (∀ l, s.launchOf s.me.task = some l → l.count < 2 ^ 32 - 1) →
      ∃ t, exec i s = .next t ∧
        Asked (((s.raiseCount s.me.task.launch 1).setMe { s.me with spawns := s.me.spawns + 1 }).sendSpawn s.sched.cur
          (spawnOf s d v wait)) t m d.toNat) ∧
    (targetOk s (s.partOfTask s.me.task) (v.d.toNat % 2 ^ 30) = true → ¬ownModule s → s.launchOf s.me.task = none →
      exec i s = .next (s.askHome (((s.taken m).pendG d.toNat).advance s.sched.ir))) ∧
    (targetOk s (s.partOfTask s.me.task) (v.d.toNat % 2 ^ 30) = false →
      exec i s = .next (s.raise s.sched.cur ⟨0x08, 0, w64 (v.d.toNat % 2 ^ 30), s.sched.ir.pc⟩))) ∧
  (∀ (s : State) (r : SpawnReq) (n : Nat),
    let k := s.forwarded (coreOf r.target)
    let src : SlotId := ⟨s.forwarded (coreOf r.src), r.slot⟩
    lmigHolds s k = false → s.forwarded src.core = src.core →
    (s.coreAt k).spawnws = [] → placeSlot s k = some n → modOf r.src = s.fabric.self → src ≠ ⟨k, n⟩ →
    ∃ t, exec (.spawnRequestArrival r) s = .next t ∧ Started s t ⟨k, n⟩ r.entry [r.g1, r.g2, r.g3, r.g4] false ∧
      (t.slotAt ⟨k, n⟩).task.regs = r.regs ∧ (t.slotAt ⟨k, n⟩).task.launch = r.launch ∧
      (t.slotAt ⟨k, n⟩).task.dcore = gcid s k ∧
      (t.slotAt src).spawns = (s.slotAt src).spawns - 1 ∧
      (r.dst ≠ 0 → (s.slotAt src).task.launch = r.launch → ((s.slotAt src).cell r.dst.toNat).pend = true →
        (t.slotAt src).cell r.dst.toNat = ⟨0, true, false⟩)) ∧
  (∀ (s : State) (r : SpawnReq),
    let k := s.forwarded (coreOf r.target)
    let src : SlotId := ⟨s.forwarded (coreOf r.src), r.slot⟩
    lmigHolds s k = false → s.forwarded src.core = src.core → placeSlot s k = none → modOf r.src = s.fabric.self →
    (r.wait = false → ∃ t, exec (.spawnRequestArrival r) s = .next t ∧
      (r.dst ≠ 0 → (s.slotAt src).task.launch = r.launch → ((s.slotAt src).cell r.dst.toNat).pend = true →
        (t.slotAt src).cell r.dst.toNat = ⟨1, true, false⟩) ∧
      ∀ l, s.launchAt r.launch = some l → t.launchAt r.launch = some { l with count := l.count - 1 }) ∧
    (r.wait = true → (s.coreAt k).spawnws.length < 4 → ∃ t, exec (.spawnRequestArrival r) s = .next t ∧
      (t.coreAt k).spawnws = (s.coreAt k).spawnws ++ [r] ∧ t.work = s.work) ∧
    (r.wait = true → 4 ≤ (s.coreAt k).spawnws.length → ∃ t, exec (.spawnRequestArrival r) s = .next t ∧
      ⟨s.now + 3400, .spawnwResend r⟩ ∈ t.sched.timers ∧ t.cores = s.cores)) ∧
  (∀ (s : State) (r : SpawnReq), ∃ t, exec (.spawnwResend r) s = .next t ∧ t = { s with sched := t.sched } ∧
    (modOf r.target = s.fabric.self → t.sched.net = s.sched.net ++
      [⟨srcKey (s.forwarded (coreOf r.src)) r.slot, 2 ^ 25 + coreOf r.target, .spawnRequestArrival r⟩]) ∧
    (modOf r.target ≠ s.fabric.self → Requested t 6 (modOf r.target) 0 (s.forwarded (coreOf r.src)) r.slot
      (s.partOfTask (s.slotAt ⟨s.forwarded (coreOf r.src), r.slot⟩).task) r.launch (.spawn r))) ∧
  (∀ (s : State) (k : Nat), (s.work.lmigStatus = 1 → s.work.lmigFrom ≠ k) →
    (∀ r rest n, (s.coreAt k).spawnws = r :: rest → placeSlot s k = some n → modOf r.src = s.fabric.self →
      (⟨s.forwarded (coreOf r.src), r.slot⟩ : SlotId) ≠ ⟨k, n⟩ →
      ∃ t, exec (.primarySlotFree k) s = .next t ∧ Started s t ⟨k, n⟩ r.entry [r.g1, r.g2, r.g3, r.g4] false ∧
        (t.coreAt k).spawnws = rest) ∧
    ((s.coreAt k).spawnws = [] ∨ placeSlot s k = none → exec (.primarySlotFree k) s = .next s))

/-- POST and SENDVT in a plain task post a packet filled as R393 states to a valid target; POST reads it from a full,
clean row of the slot's core, SENDVT takes its own packet with new arguments (R138, R393, R405). -/
def Obligations.TasksArePosted : Prop :=
  (∀ (o : OpsDAB) (s : State),
    let m : Demand := ⟨some (o.a.toNat, o.sa), some (o.b.toNat, o.sb), none, [], []⟩
    let r := (s.vals m).a.toNat
    let target := (s.vals m).b.toNat % 2 ^ 30
    Ready s m → o.d.toNat < s.me.task.nregs → s.onDcore = true → s.me.task.ord = false → s.me.acq = none → r < 768 →
    ((s.coreAt s.here).row r).full = true →
    targetOk s (s.partOfTask s.me.task) target = true →
    (((s.coreAt s.here).row r).poison = true →
      exec (.post o) s = .next (s.raise s.sched.cur ⟨0x0D, 0, w64 r, s.sched.ir.pc⟩)) ∧
    (((s.coreAt s.here).row r).poison = false →
      (∀ l, s.launchAt s.me.task.launch = some l → l.count < 2 ^ 32 - 1) →
      queueFull s (clusterOf (coreOf s.me.task.dcore)) = false →
      ∃ t q, exec (.post o) s = .next t ∧ Filled s (packetOf (s.scrBytes s.here (64 * r) 64)) q target 0 ∧
        Posted s t q target ∧ t.me.pc = s.sched.ir.npc ∧ (∀ x, t.me.cell x = cellAfter s m x))) ∧
  (∀ (d a b : Reg) (sa : Bool) (s : State),
    let m : Demand := ⟨some (a.toNat, sa), none, none, regRun b.toNat 2, []⟩
    let target := (s.vals m).a.toNat % 2 ^ 30
    Ready s m → d.toNat < s.me.task.nregs → s.onDcore = true → s.me.task.ord = false → s.me.acq = none →
    targetOk s (s.partOfTask s.me.task) target = true →
    (∀ l, s.launchAt s.me.task.launch = some l → l.count < 2 ^ 32 - 1) →
    queueFull s (clusterOf (coreOf s.me.task.dcore)) = false →
    ∃ t q, exec (.sendvt d a b sa) s = .next t ∧
      Filled s { s.me.task.pkt with w6 := (s.vals m).run.getD 0 0, w7 := (s.vals m).run.getD 1 0 } q target 0 ∧
      Posted s t q target ∧ t.me.pc = s.sched.ir.npc ∧ (∀ x, t.me.cell x = cellAfter s m x)) ∧
  (∀ (d a b : Reg) (sa : Bool) (s : State),
    let m : Demand := ⟨some (a.toNat, sa), none, some d.toNat, regRun b.toNat 2, []⟩
    Ready s m → s.onDcore = true → s.me.task.ord = true → (s.vals m).d ≤ s.me.task.pkt.w1 →
    exec (.sendvt d a b sa) s = .next (s.raise s.sched.cur ⟨0x07, 4, s.irWord, s.sched.ir.pc⟩)) ∧
  (∀ (o : OpsDAB) (s : State),
    let m : Demand := ⟨some (o.a.toNat, o.sa), some (o.b.toNat, o.sb), some o.d.toNat, [], []⟩
    Ready s m → s.onDcore = true → s.me.task.ord = true → (s.vals m).d ≤ s.me.task.pkt.w1 →
    exec (.post o) s = .next (s.raise s.sched.cur ⟨0x07, 4, s.irWord, s.sched.ir.pc⟩))

/-- LAUNCH and GRAPH, once their release is complete and their descriptors are read, create what R397 and R398 state or
answer with the status that forbids it; in an ordered task they take subcode 9. -/
def Obligations.LaunchesAndGraphs : Prop :=
  (∀ (o : OpsDA) (s s1 s2 : State) (l : List Byte),
    let m := daDemand o
    let va := (s.vals m).a
    let s0 := s.retire ((s.taken m).pendG o.d.toNat)
    let x := descOf (l.take 192)
    let part := s.partOf s.me.task.launch
    let bad := va.toNat % 64 ≠ 0 ∨ descBad s2 part (l.take 192) = true ∨ modListBad (l.drop 192) x.nmod = true
    Ready s m → s.me.task.ord = false → s.coreRelease = true → s.me.acq = none → ownModule s → s.forwarded s.here = s.here →
    readLaunch s s.me.task (!s.me.sup) s.here va = .ok l s1 →
    readLaunch s0 s.me.task (!s.me.sup) s.here va = .ok l s2 → s2 = s0.setMem s2.mem →
    (bad → ∃ t, exec (.launch o) s = .next t ∧ t.me.pc = s.sched.ir.npc ∧ t.work = s.work ∧
      (o.d ≠ 0 → t.me.cell o.d.toNat = ⟨w64 (2 * 2 ^ 56), true, false⟩)) ∧
    (¬bad → freeKey s.work.launches 0 65536 = none → ∃ t, exec (.launch o) s = .next t ∧
      t.me.pc = s.sched.ir.npc ∧ t.work = s.work ∧ (o.d ≠ 0 → t.me.cell o.d.toNat = ⟨w64 (3 * 2 ^ 56), true, false⟩)) ∧
    (∀ i, ¬bad → freeKey s.work.launches 0 65536 = some i → x.ord = true → (s.orderedOf part).isSome = true →
      ∃ t, exec (.launch o) s = .next t ∧ t.me.pc = s.sched.ir.npc ∧ t.work = s.work ∧
        (o.d ≠ 0 → t.me.cell o.d.toNat = ⟨w64 (2 ^ 56), true, false⟩)) ∧
    (∀ i, ¬bad → freeKey s.work.launches 0 65536 = some i → x.ord = false → x.multi = false →
      ∃ t e, exec (.launch o) s = .next t ∧ t.me.pc = s.sched.ir.npc ∧ t.launchAt i = some e ∧ e.st = 2 ∧ e.count = 1 ∧
        e.job = s.me.task.job ∧ e.part = part ∧ e.handler = x.handler ∧ e.save = x.save ∧ e.farea = x.farea ∧
        (o.d ≠ 0 → (t.me.cell o.d.toNat).pend = true) ∧
        mget? t.work.rootWait i = some (s.sched.cur, o.d.toNat) ∧
        (t.sched.net ≠ s.sched.net ∨ t.sched.inbox ≠ s.sched.inbox))) ∧
  (∀ (o : OpsDA) (s s1 s2 : State) (l : List Byte),
    let m := daDemand o
    let va := (s.vals m).a
    let s0 := s.retire ((s.taken m).pendG o.d.toNat)
    let part := s.partOf s.me.task.launch
    let n := graphCount (wordAt l 0)
    let desc (i : Nat) : List Byte := (l.drop (8 + 16 * n + 192 * i)).take 192
    let bad := va.toNat % 8 ≠ 0 ∨ (wordAt l 0).toNat / 128 ≠ 0 ∨ n = 0 ∨ 64 < (wordAt l 0).toNat % 128 ∨
      ∃ i, i < n ∧ (bits (wordAt l (1 + 2 * i)).toNat 63 54 ≠ 0 ∨ (wordAt l (1 + 2 * i)).toNat % 64 ≠ 0 ∨
        2 ^ i ≤ (wordAt l (2 + 2 * i)).toNat ∨ descBad s2 part (desc i) = true ∨ (descOf (desc i)).multi = true)
    let ids := freeIndices s.work.launches 0 n 65536
    Ready s m → s.me.task.ord = false → s.coreRelease = true → s.me.acq = none → ownModule s → s.forwarded s.here = s.here →
    readGraph s s.me.task (!s.me.sup) s.here va = .ok l s1 →
    readGraph s0 s.me.task (!s.me.sup) s.here va = .ok l s2 → s2 = s0.setMem s2.mem →
    (bad → ∃ t, exec (.graph o) s = .next t ∧ t.me.pc = s.sched.ir.npc ∧ t.work = s.work ∧
      (o.d ≠ 0 → t.me.cell o.d.toNat = ⟨w64 (2 * 2 ^ 56), true, false⟩)) ∧
    (¬bad → freeKey s.work.graphs 1 4095 = none ∨ ids.length < n → ∃ t, exec (.graph o) s = .next t ∧
      t.me.pc = s.sched.ir.npc ∧ t.work = s.work ∧ (o.d ≠ 0 → t.me.cell o.d.toNat = ⟨w64 (3 * 2 ^ 56), true, false⟩)) ∧
    (∀ g, ¬bad → freeKey s.work.graphs 1 4095 = some g → ids.length = n →
      ∃ t gr, exec (.graph o) s = .next t ∧ t.me.pc = s.sched.ir.npc ∧ mget? t.work.graphs g = some gr ∧
        gr.launches = ids ∧ gr.preds = (List.range n).map (fun i => wordAt l (2 + 2 * i)) ∧ gr.job = s.me.task.job ∧
        gr.st = 2 ∧ (∀ i ∈ ids, (t.launchAt i).isSome = true) ∧
        (o.d ≠ 0 → t.me.cell o.d.toNat = ⟨w64 g, true, false⟩))) ∧
  (∀ (o : OpsDA) (s : State), s.me.task.ord = true →
    exec (.launch o) s = .next (s.raise s.sched.cur ⟨0x07, 9, s.irWord, s.sched.ir.pc⟩) ∧
    exec (.graph o) s = .next (s.raise s.sched.cur ⟨0x07, 9, s.irWord, s.sched.ir.pc⟩))

/-- CANCEL completes on every operand that can be read, with the result 0, 1 or 2: it marks a running launch of its job
cancelled and answers 0, and answers 1 or 2 where there is nothing to cancel. JOINW completes on every such operand: it
answers at once for a level that has ended, does not exist or contains the task, and otherwise goes on with its result
pending until the level ends (R399, R400). -/
def Obligations.CancelAndJoin : Prop :=
  (∀ (o : OpsDAB) (s : State),
    let m : Demand := ⟨some (o.a.toNat, o.sa), some (o.b.toNat, o.sb), none, [], [o.d.toNat]⟩
    let s0 := s.retire ((s.taken m).pendG o.d.toNat)
    let level := bits (s.vals m).b.toNat 1 0
    let r := cancelAt s0 s.me.task level (bits (s.vals m).a.toNat 15 0)
    Ready s m → s.me.task.ord = false → ownModule s →
    r.2 ≤ 2 ∧ exec (.cancel o) s = .next (r.1.unitResult s.sched.cur o.d.toNat (w64 r.2))) ∧
  (∀ (o : OpsDAB) (s : State),
    let m : Demand := ⟨some (o.a.toNat, o.sa), some (o.b.toNat, o.sb), none, [], [o.d.toNat]⟩
    let level := bits (s.vals m).b.toNat 1 0
    let i := if level = 2 then bits (s.vals m).a.toNat 31 0 else bits (s.vals m).a.toNat 15 0
    let join : JoinWait := ⟨s.sched.cur, o.d.toNat, level, if level = 2 then s.partOf s.me.task.launch * 2 ^ 32 + i else i⟩
    Ready s m → s.me.task.ord = false → ownModule s → s.forwarded s.here = s.here →
    (∀ r, joinNow s s.me.task level i = some r → ∃ t, exec (.joinw o) s = .next t ∧ Wrote s t m o.d.toNat false (w64 r)) ∧
    (joinNow s s.me.task level i = none → ∃ t, exec (.joinw o) s = .next t ∧
      Asked (s.setWork { s.work with joins := s.work.joins ++ [join] }) t m o.d.toNat)) ∧
  (∀ (o : OpsDAB) (s : State),
    let m : Demand := ⟨some (o.a.toNat, o.sa), some (o.b.toNat, o.sb), none, [], [o.d.toNat]⟩
    let i := bits (s.vals m).a.toNat 15 0
    Ready s m → s.me.task.ord = false → ownModule s → s.forwarded s.here = s.here → bits (s.vals m).b.toNat 1 0 = 0 →
    ((∀ l, s.launchAt i = some l → l.job ≠ s.me.task.job) → ∃ t, exec (.cancel o) s = .next t ∧ Wrote s t m o.d.toNat false 2) ∧
    (∀ l, s.launchAt i = some l → l.job = s.me.task.job → 3 ≤ l.st →
      ∃ t, exec (.cancel o) s = .next t ∧ Wrote s t m o.d.toNat false 1) ∧
    (∀ l, s.launchAt i = some l → l.job = s.me.task.job → l.st = 2 → l.cancelled = false → 0 < l.count →
      ∃ t l', exec (.cancel o) s = .next t ∧
        t.launchAt i = some l' ∧ l'.cancelled = true ∧
        (∀ r ∈ t.mem.replay, r.launch = i → ∃ a, r.what = .access a ∧ a.how ≠ .await))) ∧
  (∀ (o : OpsDAB) (s : State),
    let m : Demand := ⟨some (o.a.toNat, o.sa), some (o.b.toNat, o.sb), none, [], [o.d.toNat]⟩
    let level := bits (s.vals m).b.toNat 1 0
    let i := bits (s.vals m).a.toNat 15 0
    Ready s m → s.me.task.ord = false → ownModule s → s.forwarded s.here = s.here →
    (level = 1 → (∀ g, mget? s.work.graphs i = some g → g.job ≠ s.me.task.job) →
      (∃ t, exec (.cancel o) s = .next t ∧ Wrote s t m o.d.toNat false 2) ∧
      (∃ t, exec (.joinw o) s = .next t ∧ Wrote s t m o.d.toNat false 0xFF)) ∧
    (∀ g, level = 1 → mget? s.work.graphs i = some g → g.job = s.me.task.job → 3 ≤ g.st →
      (∃ t, exec (.cancel o) s = .next t ∧ Wrote s t m o.d.toNat false 1) ∧
      (∃ t, exec (.joinw o) s = .next t ∧ Wrote s t m o.d.toNat false (w64 g.st))) ∧
    (level = 2 → bits (s.vals m).a.toNat 31 0 < s.phaseOf (s.partOf s.me.task.launch) →
      ∃ t, exec (.joinw o) s = .next t ∧ Wrote s t m o.d.toNat false 0) ∧
    (level = 3 → ∃ t, exec (.joinw o) s = .next t ∧ Wrote s t m o.d.toNat false 0xFE) ∧
    (level = 0 → (∀ l, s.launchAt i = some l → l.job ≠ s.me.task.job) →
      ∃ t, exec (.joinw o) s = .next t ∧ Wrote s t m o.d.toNat false 0xFF) ∧
    (∀ l, level = 0 → s.launchAt i = some l → l.job = s.me.task.job →
      (3 ≤ l.st → ∃ t, exec (.joinw o) s = .next t ∧ Wrote s t m o.d.toNat false (w64 l.st)) ∧
      (l.st < 3 → i = s.me.task.launch → ∃ t, exec (.joinw o) s = .next t ∧ Wrote s t m o.d.toNat false 0xFE) ∧
      (l.st < 3 → i ≠ s.me.task.launch → ∃ t, exec (.joinw o) s = .next t ∧
        Asked (s.setWork { s.work with joins := s.work.joins ++ [⟨s.sched.cur, o.d.toNat, 0, i⟩] }) t m o.d.toNat)))

/-- SEND leaves for a valid target with its header from the post counter; RECV and RECVP take the oldest message of a
level in eight registers, or wait; a message goes to a waiting request, to its level, or to the holding buffer, and its
acknowledgement lowers the sender's count (R145, R146, R401, R402). -/
def Obligations.Mailboxes : Prop :=
  (∀ (a b : Reg) (sa : Bool) (s : State),
    let m : Demand := ⟨some (a.toNat, sa), none, none, regRun b.toNat 6, []⟩
    let v := s.vals m
    let g := v.a.toNat % 2 ^ 30
    Ready s m → s.me.task.ord = false → s.me.acq = none → s.me.unackMsg < 16 →
    targetOk s (s.partOfTask s.me.task) g = true →
    let msg : Words8 := ⟨w64 (gcid s s.here * 2 ^ 32 + (s.coreAt s.here).post.toNat), 0, v.run.getD 0 0, v.run.getD 1 0,
      v.run.getD 2 0, v.run.getD 3 0, v.run.getD 4 0, v.run.getD 5 0⟩
    let level := bits v.a.toNat 63 62
    ∃ t, exec (.send a b sa) s = .next t ∧ t.me.pc = s.sched.ir.npc ∧ t.me.unackMsg = s.me.unackMsg + 1 ∧
      (∀ r, t.me.cell r = cellAfter s m r) ∧ (t.coreAt s.here).post = (s.coreAt s.here).post + 1 ∧ t.mem = s.mem ∧
      (modOf g = s.fabric.self → t.sched.net = s.sched.net ++ [⟨srcKey s.here s.sched.cur.slot, coreOf g,
        .messageArrival (coreOf g) level s.sched.cur msg⟩]) ∧
      (modOf g ≠ s.fabric.self → Requested t 6 (modOf g) 0 s.here s.sched.cur.slot (s.partOfTask s.me.task)
        s.me.task.launch (.message (coreOf g) level s.sched.cur msg))) ∧
  (∀ (i : Instr) (d : Reg) (src : Option (Nat × Bool)) (s : State),
    (i = .recv d ∧ src = none) ∨ (∃ b sb, i = .recvp d b sb ∧ src = some (b.toNat, sb)) →
    let m : Demand := ⟨src, none, none, [], regRun d.toNat 8⟩
    let k := coreOf s.me.task.dcore
    let level : Option Nat := if i = .recv d then topLevel (s.coreAt k) else some (bits (s.vals m).a.toNat 1 0)
    Ready s m → d ≠ 0 → s.me.task.ord = false → s.me.acq = none → ownModule s → s.forwarded s.here = s.here →
    (∀ l msg rest, level = some l → mget (s.coreAt k).mail l [] = msg :: rest →
      ∃ t, exec i s = .next t ∧ t.me.pc = s.sched.ir.npc ∧ t.me.recvs = s.me.recvs ∧
        mget (t.coreAt k).mail l [] = rest ∧ .messagePlacement k l ∈ t.sched.inbox ∧
        (∀ n v, (msgWords msg)[n]? = some v → t.me.cell (d.toNat + n) = ⟨v, true, false⟩) ∧
        (∀ r, r < d.toNat ∨ d.toNat + 8 ≤ r → t.me.cell r = cellAfter s m r)) ∧
    ((∀ l, level = some l → mget (s.coreAt k).mail l [] = []) →
      ∃ t, exec i s = .next t ∧ t.me.pc = s.sched.ir.npc ∧ t.me.recvs = s.me.recvs + 1 ∧
        (t.coreAt k).recvs = (s.coreAt k).recvs ++ [⟨s.here, s.sched.cur.slot, d.toNat,
          if i = .recv d then none else some (bits (s.vals m).a.toNat 1 0)⟩] ∧
        (∀ r ∈ m.dests, (t.me.cell r).full = false ∧ (t.me.cell r).pend = true))) ∧
  (∀ (s : State) (k level : Nat) (src : SlotId) (msg : Words8), s.forwarded k = k → lmigHolds s k = false →
    (s.cluster (clusterOf k)).heldMsgs = [] → (∀ r ∈ (s.coreAt k).recvs, r.accepts level = false) →
    let l := mget (s.coreAt k).mail level []
    let h := (s.cluster (clusterOf k)).holding
    let room := l.length < 32 ∧ ∀ x ∈ h, ¬(x.1 = k ∧ x.2.1 = level)
    (room → ∃ t, exec (.messageArrival k level src msg) s = .next t ∧
      mget (t.coreAt k).mail level [] = l ++ [msg] ∧ (t.coreAt k).recvN = (s.coreAt k).recvN + 1) ∧
    (¬room → h.length < 64 → ∃ t, exec (.messageArrival k level src msg) s = .next t ∧
      (t.cluster (clusterOf k)).holding = h ++ [(k, level, src, msg)] ∧ t.cores = s.cores)) ∧
  (∀ (s : State) (k level : Nat) (x : Nat × Nat × SlotId × Words8) (l1 l2 : List (Nat × Nat × SlotId × Words8)),
    (s.cluster (clusterOf k)).holding = l1 ++ x :: l2 → x.1 = k → x.2.1 = level →
    (∀ y ∈ l1, ¬(y.1 = k ∧ y.2.1 = level)) → (mget (s.coreAt k).mail level []).length < 32 →
    (s.cluster (clusterOf k)).heldMsgs = [] →
    ∃ t, exec (.messagePlacement k level) s = .next t ∧ (t.cluster (clusterOf k)).holding = l1 ++ l2 ∧
      mget (t.coreAt k).mail level [] = mget (s.coreAt k).mail level [] ++ [x.2.2.2] ∧
      (t.coreAt k).recvN = (s.coreAt k).recvN + 1) ∧
  (∀ (s : State) (id : SlotId) (launch : Nat), id ≠ rootPoster →
    (∃ t, exec (.msgack id launch false) s = .next t ∧
      t.slotAt id = { s.slotAt id with unackMsg := (s.slotAt id).unackMsg - 1 } ∧ t.work = s.work) ∧
    (∃ t, exec (.msgack id launch true) s = .next t ∧ t.cores = s.cores ∧
      ∀ l, s.launchAt launch = some l → t.launchAt launch = some { l with count := l.count - 1 }))

/-- IRREV in a plain task acts at once: kind 1 sends EVENT 6 to the host, kind 3 fills a word at its home; STD and IRREV in
an ordered task append a record to the task's log, at the lowest free index when they take a new entry (R172, R173, R344,
R404). A KIND other than 1 and 3 takes the illegal-operand trap (R178). -/
def Obligations.IrrevocableAndDeferred : Prop :=
  (∀ (a : Reg) (s : State),
    let m : Demand := ⟨none, none, none, regRun a.toNat 4, []⟩
    let w (i : Nat) : Word := (s.vals m).run.getD i 0
    Ready s m → s.me.acq = none →
    (bits (w 0).toNat 63 56 ≠ 1 → bits (w 0).toNat 63 56 ≠ 3 →
      exec (.irrev a) s = .next (s.raise s.sched.cur s.badOperand)) ∧
    (bits (w 0).toNat 63 56 = 1 → s.me.task.ord = false → s.me.posted = 0 → s.host.d2h.length < 1024 →
      ∃ t, exec (.irrev a) s = .next t ∧ t.me.pc = s.sched.ir.npc ∧ (∀ r, t.me.cell r = s.me.cell r) ∧ t.mem = s.mem ∧
        t.host.d2h = s.host.d2h ++ [⟨w64 (0x83 * 2 ^ 56 + 6 * 2 ^ 48 + s.me.task.job % 65536 * 2 ^ 32), w64 s.now,
          w 0, w 1, w 2, w 3, 0, 0⟩]) ∧
    (∀ x s1, bits (w 0).toNat 63 56 = 3 → canonical (w 1).toNat = true → (w 1).toNat % 8 = 0 → s.me.task.ord = false →
      s.me.posted = 0 → AtHome s (w 1) 0 (.fill (w 2)) x s1 →
      let r := issueEffect s1 (accessOf s (w 1) x 0 (.fill (w 2)))
      ∃ t, exec (.irrev a) s = .next t ∧ WroteRun r.1 t m 0 []) ∧
    (∀ od s2, (bits (w 0).toNat 63 56 = 1 ∨ bits (w 0).toNat 63 56 = 3 ∧ canonical (w 1).toNat = true ∧
      (w 1).toNat % 8 = 0) → s.me.task.ord = true → ownModule s → s.orderedOf (s.partOf s.me.task.launch) = some od →
      appendIrrev s (coreOf s.me.task.dcore) s.me.task.spec od (w 0, w 1, w 2, w 3) = .ok s2 →
      ∃ t, exec (.irrev a) s = .next t ∧ WentTo s2 t m s.sched.ir.npc)) ∧
  (∀ (o : OpsAB) (size : BitVec 2) (s s1 s2 : State) (x : Xlat) (od : Ordered),
    let m : Demand := ⟨some (o.a.toNat, o.sa), some (o.b.toNat, o.sb), none, [], []⟩
    let v := s.vals m
    Ready s m → s.me.acq = none → s.me.task.ord = true → ownModule s → v.a.toNat % 2 ^ size.toNat = 0 →
    translate s s.here s.me.task.job (!s.me.sup) v.a .write = (.ok x, s1) → region x.pa ≠ 3 →
    s1.orderedOf (s1.partOf s.me.task.launch) = some od →
    appendDstore s1 (coreOf s.me.task.dcore) s.me.task.spec od
      (w64 (size.toNat * 2 ^ 61 + v.a.toNat % 2 ^ 54), v.b &&& w64 (2 ^ (8 * 2 ^ size.toNat) - 1)) = .ok s2 →
    ∃ t, exec (.std o size) s = .next t ∧ WentTo s2 t m s.sched.ir.npc) ∧
  (∀ (s : State) (k : Nat) (o : Ordered) (spec i : Nat) (kind : LogKind), freeIdx (s.coreAt k).log 0 o.nlog = some i →
    ∃ t, s.takeLog k o spec kind = .ok t ∧ t.sched = s.sched ∧ t.work = s.work ∧
      (t.coreAt k).log = (s.coreAt k).log.filter (fun e => e.idx != i) ++ [⟨i, spec, (s.coreAt k).ordn, kind⟩] ∧
      (t.coreAt k).ordn = ((s.coreAt k).ordn + 1) % 2 ^ 32 ∧ (t.coreAt k).slots = (s.coreAt k).slots)

/-! ## Agents (chapters 8 and 16) -/

/-- CALLT allocates a future and routes it, or answers status 1 or 2; WAITF and POLLF give the outcome and free the
future, 0xFE or 0xFF; CANF answers 0, 1 or 0xFF (R196, R197, R200, R205). A called future ends once: with reason 3 past its
deadline, 4 where the call cannot be delivered, as its reply says where the reply is accepted; a reply that fails a check is
dropped and counted (R99 to R101, R196, R199). A waiting call takes the place that frees in its context's queue (R207). -/
def Obligations.Futures : Prop :=
  ((∀ (o : OpsDA) (s s1 : State) (l : List Byte),
    let m := daDemand o
    let n := s.agents.nextOp
    let f := callFuture (callRequest s.sched.cur o.d.toNat (s.vals m).a s.irWord s.me s.me) (fourWords l)
    Ready s m → AgentReady s 5 → s.part ≠ .ny7710 → s.me.task.ord = false → (∀ x ∈ s.agents.calls, x.1 ≠ n) →
    uread ⟨unitFuture, s.me.task.job, !s.me.sup⟩ (s.vals m).a 32 (callBegun s m o.d.toNat) = .ok l s1 →
    s1 = (callBegun s m o.d.toNat).setMem s1.mem →
    (65536 < f.arglen ∨ 65536 < f.repcap → ∃ t, exec (.callt o) s = .next t ∧
      Wrote (callDropped s s1) t m o.d.toNat false 2) ∧
    (f.arglen ≤ 65536 → f.repcap ≤ 65536 → callDenied s f.tool f.job = false → s.freeFutureIndex = none →
      ∃ t, exec (.callt o) s = .next t ∧ Wrote (callDropped s s1) t m o.d.toNat false 1) ∧
    (∀ i, f.arglen ≤ 65536 → f.repcap ≤ 65536 → s.freeFutureIndex = some i → (s.futureAt i).gen < 65536 →
      let h := (s.futureAt i).gen * 65536 + i
      let called : Future := { f with st := 2, gen := (s.futureAt i).gen, sent := s.now,
                                      deadline := if f.dlus = 0 then 2 ^ 64 - 1 else s.now + 1700 * f.dlus }
      let c := bits (localWord s f.tool 0) 11 0
      let q := s.ctx c
      (f.tool = 0xFFFF ∨ f.tool < 0x1000 ∧ callDenied s f.tool f.job = false ∧ q.queue.length < 64 ∧ q.waiting = [] →
        ∃ t, exec (.callt o) s = .next t ∧ t.me.pc = s.sched.ir.npc ∧ t.me.q5 = s.me.q5 ∧
          (o.d ≠ 0 → t.me.cell o.d.toNat = ⟨w64 (h * 2 ^ 32), true, false⟩) ∧
          (∀ r, r ≠ o.d.toNat → t.me.cell r = cellAfter s m r) ∧
          t.futureAt i = called ∧ (∀ j, j ≠ i → t.futureAt j = s.futureAt j) ∧
          (f.tool < 0x1000 → (t.ctx c).queue = q.queue ++ [h])) ∧
      (f.tool < 0x1000 → callDenied s f.tool f.job = false → 64 ≤ q.queue.length ∨ q.waiting ≠ [] →
        ∃ t, exec (.callt o) s = .next t ∧ t.me.pc = s.sched.ir.npc ∧
          (o.d ≠ 0 → t.me.cell o.d.toNat = ⟨w64 (h * 2 ^ 32), true, false⟩) ∧
          t.futureAt i = { f with st := 1, gen := (s.futureAt i).gen } ∧ (t.ctx c).waiting = q.waiting ++ [h]))) ∧
  (∀ (o : OpsDA) (s : State),
    let m := daDemand o
    let h := (s.vals m).a.toNat % 2 ^ 32
    Ready s m → AgentReady s 5 → s.me.task.ord = false →
    (s.threadFuture h s.me.task.job = none →
      (∃ t, exec (.waitf o) s = .next t ∧ Wrote s t m o.d.toNat false 0xFF) ∧
      (∃ t, exec (.pollf o) s = .next t ∧ Wrote s t m o.d.toNat false 0xFF)) ∧
    (∀ f, s.threadFuture h s.me.task.job = some f → 3 ≤ f.st →
      let v := w64 (f.replen * 2 ^ 32 + (if f.st = 3 then 0 else f.reason))
      (∃ t, exec (.waitf o) s = .next t ∧ Wrote (s.freeFuture h) t m o.d.toNat false v) ∧
      (∃ t, exec (.pollf o) s = .next t ∧ Wrote (s.freeFuture h) t m o.d.toNat false v)) ∧
    (∀ f, s.threadFuture h s.me.task.job = some f → f.st < 3 →
      (∃ t, exec (.pollf o) s = .next t ∧ Wrote s t m o.d.toNat false 0xFE) ∧
      (∃ t, exec (.waitf o) s = .next t ∧ t.me.pc = s.sched.ir.npc ∧ t.me.q5 = s.me.q5 + 1 ∧
        (o.d ≠ 0 → (t.me.cell o.d.toNat).pend = true) ∧ t.mem = s.mem ∧
        t.futureAt (h % 65536) = { f with watch := f.watch ++ [(s.sched.cur, o.d.toNat)] } ∧
        ∀ j, j ≠ h % 65536 → t.futureAt j = s.futureAt j))) ∧
  (∀ (o : OpsDA) (s : State), s.me.task.ord = true →
    exec (.waitf o) s = .next (s.raise s.sched.cur ⟨0x07, 6, s.irWord, s.sched.ir.pc⟩) ∧
    exec (.pollf o) s = .next (s.raise s.sched.cur ⟨0x07, 6, s.irWord, s.sched.ir.pc⟩)) ∧
  (∀ (o : OpsDA) (s : State),
    let m := daDemand o
    let h := (s.vals m).a.toNat % 2 ^ 32
    Ready s m → AgentReady s 5 → Unscanned s ((s.vals m).a.toNat % 65536) →
    ((∀ f, s.byHandle h = some f → f.job ≠ s.me.task.job) →
      ∃ t, exec (.canf o) s = .next t ∧ Wrote s t m o.d.toNat false 0xFF) ∧
    (∀ f, s.byHandle h = some f → f.job = s.me.task.job → f.sb = false → f.watch = [] →
      ∃ t, exec (.canf o) s = .next t ∧ (t.futureAt (h % 65536)).st = 0 ∧
        Wrote (((s.leaveContexts h).untimer (.futureTimeout (h % 65536))).freeFuture h) t m o.d.toNat false
          (if 3 ≤ f.st then 1 else 0)))) ∧
  ((∀ (s : State) (i : Nat),
    let f := s.futureAt i
    i < 65536 → f.gen < 65536 → f.st = 2 → f.deadline ≤ s.now → f.sb = false →
    replying s (f.gen * 65536 + i) = false →
    (f.watch = [] → ∃ t, exec (.futureTimeout i) s = .next t ∧
      FutureBecame s t i { f with st := 4, reason := 3, replen := 0 }) ∧
    (∀ id d, f.watch = [(id, d)] → s.forwarded id.core = id.core → d ≠ 0 → ((s.slotAt id).cell d).pend = true → ∃ t, exec (.futureTimeout i) s = .next t ∧
      (t.slotAt id).cell d = ⟨3, true, false⟩ ∧ (t.slotAt id).q5 = (s.slotAt id).q5 - 1 ∧
      t.futureAt i = Future.empty (nextGen f.gen) ∧ t.mem = s.mem)) ∧
  (∀ (s : State) (i : Nat), (s.futureAt i).st ≠ 2 ∨ s.now < (s.futureAt i).deadline →
    exec (.futureTimeout i) s = .next s) ∧
  (∀ (s : State) (h : BitVec 32) (f : Future), Unscanned s h.toNat →
    (s.byHandle h.toNat = some f → f.st = 2 → f.sb = false → f.watch = [] →
      ∃ t, exec (.uetUndeliverable h) s = .next t ∧
        FutureBecame s t (h.toNat % 65536) { f with st := 4, reason := 4, replen := 0 }) ∧
    (s.byHandle h.toNat = none → exec (.uetUndeliverable h) s = .next s)) ∧
  (∀ (s : State) (r : UetReply),
    let h := bits r.w0.toNat 63 32
    let status := bits r.w0.toNat 15 0
    let f := s.futureAt (h % 65536)
    let i := f.tool - 0x8000
    let formed := bits r.w0.toNat 31 24 = 1 ∧ bits r.w0.toNat 23 16 = 2 ∧ status ≤ 2 ∧ bits r.w1.toNat 63 32 = r.data.length
    let sender := 0x8000 ≤ f.tool ∧ f.tool < 0x8400 ∧ r.addr = BitVec.ofNat 128 (remoteWord s i 1 * 2 ^ 64 + remoteWord s i 0) ∧
      r.ujob = bits (remoteWord s i 2) 63 40 ∧ r.pid = bits (remoteWord s i 2) 39 28 ∧
      r.data.length ≤ bits (remoteWord s i 3) 63 48 * 1024
    Unscanned s h →
    (¬formed → exec (.uetReplyArrival r) s = .next (s.countErr errUet)) ∧
    (formed → s.byHandle h = none → exec (.uetReplyArrival r) s = .next (s.countErr errStale)) ∧
    (formed → s.byHandle h = some f → ¬sender → exec (.uetReplyArrival r) s = .next (s.countErr errUet)) ∧
    (formed → s.byHandle h = some f → sender → f.st ≠ 2 → exec (.uetReplyArrival r) s = .next (s.countErr errLate)) ∧
    (formed → s.byHandle h = some f → sender → f.st = 2 → f.sb = false → f.watch = [] →
      (f.repcap < r.data.length → ∃ t, exec (.uetReplyArrival r) s = .next t ∧
        FutureBecame s t (h % 65536) { f with st := 4, reason := 8, replen := 0 }) ∧
      (∀ s1, r.data.length ≤ f.repcap →
        let s0 := s.addFutOp ⟨h, .reply status r.data, 0, false⟩
        uwrite ⟨unitFuture, f.job, f.user⟩ [wbytes f.repva r.data] s0 = .ok () s1 → s1.agents = s0.agents →
        ∃ t, exec (.uetReplyArrival r) s = .next t ∧ t.mem = s1.mem ∧
          t.futureAt (h % 65536) = { f with st := if status = 0 then 3 else 4, reason := status,
                                            replen := r.data.length } ∧
          ∀ j, j ≠ h % 65536 → t.futureAt j = s.futureAt j))) ∧
  (∀ (s : State) (c : Nat),
    let q := s.ctx c
    (q.waiting = [] ∨ 64 ≤ q.queue.length → exec (.futureQueueEntry c) s = .next s) ∧
    (∀ h rest, q.waiting = h :: rest → q.queue.length < 64 → ∃ t, exec (.futureQueueEntry c) s = .next t ∧
      (t.ctx c).queue = q.queue ++ [h] ∧ (t.ctx c).waiting = rest ∧ t.mem = s.mem ∧ t.cores = s.cores ∧
      ∀ f, s.byHandle h = some f → t.futureAt (h % 65536) =
        { f with st := 2, sent := s.now, deadline := if f.dlus = 0 then 2 ^ 64 - 1 else s.now + 1700 * f.dlus })))

/-- The token engine refuses an index, a record and a token as R205 tabulates; a request that reads and writes without a
fault ends with its result; TOKC counts the token and moves the state of its record (R201, R205). A left future is injected
into its sequence, and a WAITING sequence makes its call when an entry frees (R192, R202). -/
def Obligations.TokenRequests : Prop :=
  (∀ (i : Instr) (kind : TokKind) (o : OpsDAB) (s : State), tokKind i = some (kind, o) →
    let m := dabDemand o
    let n := s.agents.nextOp
    let x := tokAsked s kind m o.d.toNat
    let s0 := tokBegun s kind m o.d.toNat
    let quiet := (s.dropUnitLines).setAgents { s.agents with nextOp := n + 1 }
    let bad (k : Nat) : Word := w64 (if kind = .mask then 0xFF000000 + k else k)
    Ready s m → AgentReady s 4 → s.part ≠ .ny7710 → s.me.task.ord = false →
    (∀ y ∈ s.agents.tokOps, y.1 ≠ n ∧ y.2.seq ≠ (s.vals m).a.toNat) →
    (16384 ≤ (s.vals m).a.toNat → ∃ t, exec i s = .next t ∧ Wrote quiet t m o.d.toNat false (bad 4)) ∧
    ((s.vals m).a.toNat < 16384 → s.agents.seqEn = false →
      ∃ t, exec i s = .next t ∧ Wrote quiet t m o.d.toNat false (bad 1)) ∧
    (∀ r, (s.vals m).a.toNat < 16384 → s.agents.seqEn = true → readRec x.client x.seq s0 = .ok r s0 →
      r.f 0 55 40 ≠ s.me.task.job → ∃ t, exec i s = .next t ∧ Wrote quiet t m o.d.toNat false (bad 3)) ∧
    (∀ r, (s.vals m).a.toNat < 16384 → s.agents.seqEn = true → readRec x.client x.seq s0 = .ok r s0 →
      r.f 0 55 40 = s.me.task.job →
      (kind = .commit → r.f 0 63 60 ≠ 2 → ∃ t, exec i s = .next t ∧ Wrote quiet t m o.d.toNat false 1) ∧
      (kind = .encode → r.f 0 63 60 = 0 ∨ r.f 0 63 60 = 5 → ∃ t, exec i s = .next t ∧ Wrote quiet t m o.d.toNat false 1) ∧
      (kind = .mask → r.f 8 53 0 = 0 → ∃ t, exec i s = .next t ∧ Wrote quiet t m o.d.toNat false (bad 5))) ∧
    (∀ (y : TokRes) s1 s2, kind ≠ .mask ∨ (s.vals m).b ≠ 1 → tokRun n x s0 = .ok y s1 →
      uwrite x.client y.writes s1 = .ok () s2 →
      exec i s = .next ((y.after s2.dropUnitLines).finishTok n y.result))) ∧
  (∀ (n : Nat) (x : TokOp) (s s1 : State) (r : Rec) (im : Image), x.kind = .commit → x.seq < 16384 → s.agents.seqEn = true →
    readRec x.client x.seq s = .ok r s → r.f 0 55 40 = x.job → r.f 0 63 60 = 2 →
    readImage x.client (vaField (r.f 5 53 0)) s = .ok im s1 → x.b.toNat < im.nvocab → r.f 6 53 0 = 0 → r.f 8 53 0 = 0 →
    let t := x.b.toNat
    let r1 := r.set_ 1 (r.w 1 + 1)
    (t = r.f 10 27 10 → ∃ y, tokRun n x s = .ok y s1 ∧ y.result = 1024 ∧
      y.writes = [recWrite s1 x.seq ((r1.put 0 59 59 0).put 0 63 60 5)]) ∧
    (t ≠ r.f 10 27 10 → r.f 0 59 59 = 0 → t = r.f 10 63 46 → ∃ y, tokRun n x s = .ok y s1 ∧ y.result = 512 ∧
      y.writes = [recWrite s1 x.seq ((r1.put 0 59 59 1).put 13 31 0 0)]) ∧
    (t ≠ r.f 10 27 10 → r.f 0 59 59 = 0 → t ≠ r.f 10 63 46 → ∃ y, tokRun n x s = .ok y s1 ∧ y.result = 0 ∧
      y.writes = [recWrite s1 x.seq r1])) ∧
  (∀ (n : Nat) (x : TokOp) (s : State), x.kind = .commit → x.seq < 16384 → s.agents.seqEn = true → ∀ s1 r im,
    readRec x.client x.seq s = .ok r s → r.f 0 55 40 = x.job → r.f 0 63 60 = 2 →
    readImage x.client (vaField (r.f 5 53 0)) s = .ok im s1 → im.nvocab ≤ x.b.toNat →
    ∃ y, tokRun n x s = .ok y s1 ∧ y.result = 2 ∧ y.writes = []) ∧
  (∀ (s : State) (i : Nat),
    let f := s.futureAt i
    let x := ownRequest .inject f.seqi (w64 (f.gen * 65536 + i)) f.job f.launch f.user
    let n := s.agents.nextOp
    let s0 := s.setAgents { s.agents with tokOps := mput s.agents.tokOps n x, nextOp := n + 1 }
    (f.sb = false ∨ f.st < 3 → exec (.injection i) s = .next s) ∧
    (∀ (y : TokRes) s1 s2, f.sb = true → 3 ≤ f.st → (∀ z ∈ s.agents.tokOps, z.1 ≠ n ∧ z.2.seq ≠ f.seqi) →
      tokRun n x s0 = .ok y s1 → uwrite x.client y.writes s1 = .ok () s2 →
      exec (.injection i) s = .next ((y.after s2.dropUnitLines).finishTok n y.result))) ∧
  (∀ (s : State), (s.agents.waitingSeqs = [] ∨ s.freeFutureIndex = none → exec .waitingToCalling s = .next s) ∧
    (∀ q job (y : TokRes) s1 s2, s.agents.waitingSeqs = [(q, job)] → s.freeFutureIndex ≠ none →
      let x := ownRequest .call q 0 job 65536 true
      let n := s.agents.nextOp
      let s0 := s.setAgents { s.agents with waitingSeqs := [], tokOps := mput s.agents.tokOps n x, nextOp := n + 1 }
      (∀ z ∈ s.agents.tokOps, z.1 ≠ n ∧ z.2.seq ≠ q) → tokRun n x s0 = .ok y s1 →
      uwrite x.client y.writes s1 = .ok () s2 →
      exec .waitingToCalling s = .next ((y.after s2.dropUnitLines).finishTok n y.result)))

/-- The custom-0 instructions of the tool cores give the values and statuses of R211 and end or answer the call they name;
capability registers are written as R208 states; an access is checked and performed at its home (R209), and an exception
from U-mode fails the context's calls and restarts it (R210). -/
def Obligations.ToolCores : Prop :=
  (∀ (rs2 rs1 rd : Reg) (s : State),
    let n := s.sched.hart
    let c := (s.hartAt n).ctx
    let q := s.ctx c
    (q.queue = [] → ∃ t, exec (.futArgTake rs2 rs1 rd) s = .next t ∧ HartGot s t n rd 0 ∧ t.ctx c = q) ∧
    (∀ h rest, q.queue = h :: rest → ∃ t, exec (.futArgTake rs2 rs1 rd) s = .next t ∧ HartGot s t n rd (w64 h) ∧
      (t.ctx c).queue = rest ∧ (t.ctx c).taken = q.taken ++ [h])) ∧
  (∀ (i : Instr) (rs1 rd : Reg) (f : Future → Word) (s : State), futArg s i = some (rs1, rd, f) →
    let n := s.sched.hart
    let k := (s.hartAt n).r rs1
    (∀ x, s.held n k = some x → ∃ t, exec i s = .next t ∧ HartGot s t n rd (f x) ∧ t.mem = s.mem) ∧
    (s.held n k = none → ∃ t, exec i s = .next t ∧ HartGot s t n rd 1 ∧ t.mem = s.mem)) ∧
  (∀ (rs2 rs1 rd : Reg) (s : State),
    let n := s.sched.hart
    let h := s.hartAt n
    let k := h.r rs1
    (s.held n k = none →
      (∃ t, exec (.futArgCopy rs2 rs1 rd) s = .next t ∧ HartGot s t n rd 1) ∧
      (∃ t, exec (.futResolve rs2 rs1 rd) s = .next t ∧ HartGot s t n rd 1) ∧
      (∃ t, exec (.futFail rs2 rs1 rd) s = .next t ∧ HartGot s t n rd 1)) ∧
    (∀ f l s1, s.held n k = some f → uread f.client f.argva f.arglen s = .ok l s1 → s1 = s.setMem s1.mem →
      let s2 := s1.dropUnitLines
      hartStoreFault s2 h (h.r rs2).toNat l.length = none →
      ∃ t, exec (.futArgCopy rs2 rs1 rd) s = .next t ∧ HartGot s t n rd (w64 l.length) ∧
        t.mem = (s2.hartStore h (h.r rs2).toNat l).mem) ∧
    (∀ f d, s.held n k = some f → f.st = 2 → f.sb = false → f.watch = [] → Unscanned s k.toNat →
      hartRead s h (h.r rs2).toNat 16 = .inl d →
      let len := bits (wordAt d 1).toNat 31 0
      let most := bits (localWord s f.tool 1) 63 48 * 1024
      (most < len ∨ f.repcap < len → ∃ t, exec (.futResolve rs2 rs1 rd) s = .next t ∧ HartGot s t n rd 2 ∧
        t.futureAt (k.toNat % 65536) = { f with st := 4, reason := 8, replen := 0 }) ∧
      (∀ l s1, len ≤ most → len ≤ f.repcap → hartRead s h (wordAt d 0).toNat len = .inl l →
        let s0 := s.addFutOp ⟨k.toNat, .reply 0 l, 0, false⟩
        uwrite f.client [wbytes f.repva l] s0 = .ok () s1 → s1.agents = s0.agents → s1.cores = s.cores →
        ∃ t, exec (.futResolve rs2 rs1 rd) s = .next t ∧ HartGot s t n rd 0 ∧ t.mem = s1.mem ∧
          t.futureAt (k.toNat % 65536) = { f with st := 3, reason := 0, replen := len })) ∧
    (∀ f, s.held n k = some f →
      let reason := bits (h.r rs2).toNat 7 0
      (reason ≠ 1 → reason ≠ 2 → ∃ t, exec (.futFail rs2 rs1 rd) s = .next t ∧ HartGot s t n rd 3 ∧
        t.agents.futures = s.agents.futures) ∧
      (reason = 1 ∨ reason = 2 → f.st = 2 → f.sb = false → f.watch = [] → Unscanned s k.toNat →
        ∃ t, exec (.futFail rs2 rs1 rd) s = .next t ∧ HartGot s t n rd 0 ∧
          t.futureAt (k.toNat % 65536) = { f with st := 4, reason := reason, replen := 0 }))) ∧
  (∀ (rs2 rs1 rd : Reg) (s : State),
    let n := s.sched.hart
    let h := s.hartAt n
    let va := (h.r rs1).toNat
    let w := (h.r rs2).toNat
    let len := if bits w 63 16 = 0 then 1 else bits w 63 16
    let grants (ctl : Nat) : Bool := (!bit w 0 || bit ctl 1) && (!bit w 1 || bit ctl 2) && (!bit w 2 || bit ctl 3)
    len ≤ 4096 - va % 4096 →
    (hartPa s h va .load = none → ∃ t, exec (.capProbe rs2 rs1 rd) s = .next t ∧
      HartGot s t n rd (BitVec.allOnes 64)) ∧
    (∀ pa, hartPa s h va .load = some pa → ∃ t, exec (.capProbe rs2 rs1 rd) s = .next t ∧ t.mem = s.mem ∧
      (∀ i, i < 16 → grants (mget h.capCtl i 0).toNat = true → h.covers i pa len = true →
        (∀ j, j < i → ¬(grants (mget h.capCtl j 0).toNat = true ∧ h.covers j pa len = true)) →
        HartGot s t n rd (w64 i)) ∧
      ((∀ i, i < 16 → ¬(grants (mget h.capCtl i 0).toNat = true ∧ h.covers i pa len = true)) →
        HartGot s t n rd (BitVec.allOnes 64)))) ∧
  (∀ (n csr : Nat) (mMode : Bool) (v : Word) (s : State),
    let h := s.hartAt n
    let i := (csr - 0x5C0) / 2
    (h.userMode = true → mMode = false →
      exec (.capCsrWrite n csr mMode v) s = .next (s.post (.toolException n 2 false))) ∧
    (h.userMode = false ∨ mMode = true →
      (csr = 0x5E0 → exec (.capCsrWrite n csr mMode v) s = .next (s.setHart n { h with ctx := bits v.toNat 11 0 })) ∧
      (0x5C0 ≤ csr → csr ≤ 0x5DF → mMode = true ∨ bit (mget h.capCtl i 0).toNat 4 = false →
        ∃ t, exec (.capCsrWrite n csr mMode v) s = .next t ∧
          (csr % 2 = 0 → mget (t.hartAt n).capBase i 0 = w64 (bits v.toNat 51 0) ∧ (t.hartAt n).capCtl = h.capCtl) ∧
          (csr % 2 = 1 → mget (t.hartAt n).capCtl i 0 = w64 (bits v.toNat 63 16 * 2 ^ 16 + bits v.toNat 4 0) ∧
            (t.hartAt n).capBase = h.capBase)) ∧
      (0x5C0 ≤ csr → csr ≤ 0x5DF → mMode = false → bit (mget h.capCtl i 0).toNat 4 = true →
        exec (.capCsrWrite n csr mMode v) s = .next s))) ∧
  (∀ (i : Instr) (n reason : Nat) (s : State), (∃ cause va, i = .toolAccessFault n cause va ∧ reason = 6) ∨
      (∃ cause, i = .toolException n cause false ∧ reason = 11) →
    let h := s.hartAt n
    let q := s.ctx h.ctx
    h.userMode = true → h.mMode = false → ∃ t, exec i s = .next t ∧ t.mem = s.mem ∧
      ((mget? s.agents.harts n).isSome = true → (t.hartAt n).pc = q.imgPc ∧ (t.hartAt n).x = q.imgX) ∧
      (∀ k f, k ∈ q.taken ++ q.queue → s.byHandle k = some f → f.st = 2 → f.sb = false → f.watch = [] →
        replying s k = false → t.futureAt (k % 65536) = { f with st := 4, reason := reason, replen := 0 })) ∧
  (∀ (n cause : Nat) (s : State), exec (.toolException n cause true) s = .next s) ∧
  (∀ (n size pa : Nat) (va v : Word) (s : State),
    let h := s.hartAt n
    (hartAccess s h va.toNat size .load = .inl pa → lineBusy s pa false = none →
      exec (.toolCoreAccess n va size .load) s = .next (s.heat pa)) ∧
    (hartAccess s h va.toNat size .fetch = .inl pa → lineBusy s pa false = none →
      exec (.toolCoreAccess n va size .fetch) s = .next (s.heat pa)) ∧
    (lineBusy s pa true = none →
      let t := (s.heat pa).setMem (clearPoison ((s.heat pa).mem.write 0 pa (natBytes size v.toNat)) pa size)
      (hartAccess s h va.toNat size .store = .inl pa → exec (.toolCoreAccess n va size (.store v)) s = .next t) ∧
      (hartAccess s h va.toNat size .amo = .inl pa → exec (.toolCoreAccess n va size (.amo v)) s = .next t)) ∧
    (∀ c, h.userMode = true → h.mMode = false → c = 1 ∨ c = 5 ∨ c = 7 → hartAccess s h va.toNat size .load = .inr c →
      exec (.toolCoreAccess n va size .load) s = .next (s.post (.toolAccessFault n c (w64 va.toNat)))))

/-! ## The host port (chapter 4) -/

/-- Each message of the host is acknowledged with the status of its checks and has the effect of R87, R89 and R126: a job
starts, a running job is cancelled, a future is resolved, the counters and the report are written, a key and an image are
asked for, the cap is set; the queues count what they drop and pass on what waited (R82 to R85). -/
def Obligations.HostMessages : Prop :=
  (∀ (m : Words8) (s : State), MsgReady s m false →
    (∃ t, exec (.h2dBadType m) s = .next t ∧ Acked s t m 1 ∧ t.work = s.work ∧ t.cores = s.cores ∧ t.mem = s.mem) ∧
    (jobstartCheck s m ≠ 0 → ∃ t, exec (.jobstart m) s = .next t ∧ Acked s t m (jobstartCheck s m) ∧ t.work = s.work ∧
      t.cores = s.cores ∧ t.mem = s.mem) ∧
    (∀ i n, jobstartCheck s m = 0 → freeKey s.work.launches 0 65536 = some i →
      placeSlot s (bits m.w4.toNat 15 0) = some n →
      ∃ t, exec (.jobstart m) s = .next t ∧ Acked s t m 0 ∧
        Started s t ⟨bits m.w4.toNat 15 0, n⟩ m.w3 [m.w5, m.w6, m.w7, w64 (msgJob m)] false ∧
        (∃ j, mget? t.work.jobs (msgJob m) = some j ∧ j.running = true ∧ j.root = bits m.w2.toNat 51 12 * 4096 ∧
          j.pasid = bits m.w4.toNat 63 44 ∧ j.key = bits m.w4.toNat 43 38 ∧ j.part = bits m.w4.toNat 31 16 ∧
          j.rootLaunch = i) ∧
        (∃ l, t.launchAt i = some l ∧ l.st = 2 ∧ l.count = 1 ∧ l.job = msgJob m ∧ l.part = bits m.w4.toNat 31 16)) ∧
    ((∀ j, mget? s.work.jobs (msgJob m) = some j → j.running = false) →
      ∃ t, exec (.jobcancel m) s = .next t ∧ Acked s t m 3 ∧ t.work = s.work) ∧
    (∀ j, mget? s.work.jobs (msgJob m) = some j → j.running = true → j.graphs = [] →
      (∀ x ∈ s.work.launches, x.2.st ≠ 1) →
      ∃ t, exec (.jobcancel m) s = .next t ∧ mget? t.work.jobs (msgJob m) = some { j with cancelled := true } ∧
        ∀ i l, s.launchAt i = some l → l.job = msgJob m → l.st = 2 →
          ∃ l', t.launchAt i = some l' ∧ l'.cancelled = true)) ∧
  (∀ (m : Words8) (s : State),
    let h := m.w2.toNat % 2 ^ 32
    let reason := if bits m.w3.toNat 7 0 = 0 then 0 else max 1 (bits m.w3.toNat 15 8)
    let bad := 1 < bits m.w3.toNat 7 0 ∨ 2 < reason ∨ 65536 < m.w4.toNat
    MsgReady s m false → Unscanned s h →
    ((∀ j, mget? s.work.jobs (msgJob m) = some j → j.running = false) →
      ∃ t, exec (.futres m) s = .next t ∧ Acked s t m 3 ∧ t.agents = s.agents) ∧
    (∀ j, mget? s.work.jobs (msgJob m) = some j → j.running = true →
      (bad → ∃ t, exec (.futres m) s = .next t ∧ Acked s t m 12 ∧ t.agents = s.agents) ∧
      (¬bad → (∀ f, s.byHandle h = some f → f.st ≠ 2 ∨ f.job ≠ msgJob m) →
        ∃ t, exec (.futres m) s = .next t ∧ Acked s t m 7 ∧ t.agents = s.agents) ∧
      (∀ f, ¬bad → s.byHandle h = some f → f.st = 2 → f.job = msgJob m →
        (m.w4 ≠ 0 → ∃ t, exec (.futres m) s = .next t ∧
          ReadHost s t j.pasid m.w5.toNat m.w4.toNat (.futres m)) ∧
        (m.w4 = 0 → f.sb = false → f.watch = [] → ∃ t, exec (.futres m) s = .next t ∧ Acked s t m 0 ∧
          t.futureAt (h % 65536) =
            { f with st := if reason = 0 then 3 else 4, reason := reason, replen := 0 })))) ∧
  (∀ (m : Words8) (s : State), MsgReady s m true →
    (s.host.d2h.length < 1023 →
      (∃ t, exec (.mgmtReadCounters m) s = .next t ∧ t.host.h2d = s.host.h2d.drop 1 ∧
        t.host.d2h = s.host.d2h ++ [ackWords s m 0, replyWords s m ((counterSnapshot s).take m.w3.toNat).length] ∧
        .hostWrite 0 m.w2.toNat ((counterSnapshot s).take m.w3.toNat) ∈ t.sched.out ∧ t.mgmt = s.mgmt) ∧
      (∃ t, exec (.mgmtAttest m) s = .next t ∧ t.host.h2d = s.host.h2d.drop 1 ∧
        t.host.d2h = s.host.d2h ++ [ackWords s m 0, replyWords s m ((attestReport s m ++ Config.certificate).take m.w3.toNat).length] ∧
        .hostWrite 0 m.w2.toNat ((attestReport s m ++ Config.certificate).take m.w3.toNat) ∈ t.sched.out ∧ t.mgmt = s.mgmt)) ∧
    (loadKeyStatus s m ≠ 0 → ∃ t, exec (.mgmtLoadKey m) s = .next t ∧ Acked s t m (loadKeyStatus s m) ∧
      t.mgmt = s.mgmt) ∧
    (loadKeyStatus s m = 0 → ∃ t, exec (.mgmtLoadKey m) s = .next t ∧
      ReadHost s t 0 m.w5.toNat m.w3.toNat (.key m)) ∧
    (m.w2 ≠ 0 → ∃ t, exec (.mgmtSetPowerCap m) s = .next t ∧ Acked s t m 1 ∧ t.mgmt = s.mgmt) ∧
    (m.w2 = 0 → 1200 ≤ m.w3.toNat → m.w3.toNat ≤ 2400 → ∃ t, exec (.mgmtSetPowerCap m) s = .next t ∧ Acked s t m 0 ∧
      t.mgmt = { s.mgmt with powerCap := m.w3.toNat }) ∧
    (m.w2 = 0 → m.w3.toNat < 1200 ∨ 2400 < m.w3.toNat → ∃ t, exec (.mgmtSetPowerCap m) s = .next t ∧ Acked s t m 12 ∧
      t.mgmt = s.mgmt) ∧
    (∃ t, exec (.mgmtFirmwareImage m) s = .next t ∧ ReadHost s t 0 m.w2.toNat m.w3.toNat (.image m))) ∧
  (∀ (s : State) (token : Nat) (data : List Byte) (r : Nat × HostRead),
    (s.host.pendingReads.find? (fun r => r.1 == token) = none → exec (.hostReadCompletion token data) s = .next s) ∧
    (s.host.pendingReads.find? (fun r => r.1 == token) = some r → s.host.d2h.length < 1024 →
      (∀ m, r.2 = .key m → loadKeyStatus s m = 0 → ∃ t, exec (.hostReadCompletion token data) s = .next t ∧
        t.host.d2h = s.host.d2h ++ [ackWords s m 0] ∧ t.mgmt.keys = mput s.mgmt.keys (bits m.w4.toNat 5 0) .live) ∧
      (∀ m, r.2 = .image m → ∃ t, exec (.hostReadCompletion token data) s = .next t ∧
        (Config.signedImage data = true →
          t.host.d2h = s.host.d2h ++ [ackWords s m 0] ∧ t.mgmt.nextFw = some data) ∧
        (Config.signedImage data = false → t.mgmt = s.mgmt)) ∧
      (∀ m f, r.2 = .futres m → let h := m.w2.toNat % 2 ^ 32
        s.byHandle h = some f → f.st = 2 → f.job = msgJob m → f.repcap < data.length → f.sb = false → f.watch = [] →
        Unscanned s h → ∃ t, exec (.hostReadCompletion token data) s = .next t ∧
          t.host.d2h = s.host.d2h ++ [ackWords s m 0] ∧
          t.futureAt (h % 65536) = { f with st := 4, reason := 8, replen := 0 }) ∧
      (∀ a f, r.2 = .access a → region a.pa = 8 → a.how = .load f →
        exec (.hostReadCompletion token data) s = .next ((s.dropRead token).deliverResult a
          (extendLoad f (bytesNat (data.take (opSize a.how)))) 0)))) ∧
  (∀ (s : State),
    (∃ t, exec .h2dEnqueueDrop s = .next t ∧ t.host.badw = min (s.host.badw + 1) 65535 ∧ t.host.h2d = s.host.h2d) ∧
    (s.host.d2h = [] → exec .d2hDequeue s = .next (s.emit (.hostMsg zeroPacket))) ∧
    (∀ m rest, s.host.d2h = m :: rest → ∃ t, exec .d2hDequeue s = .next t ∧ .hostMsg m ∈ t.sched.out ∧
      (s.host.held = [] → t.host.d2h = rest) ∧
      (∀ n more, s.host.held = n :: more → rest.length < 1024 →
        t.host.d2h = rest ++ [{ n with w1 := w64 s.now }] ∧ t.host.held = more)) ∧
    (∀ n, s.host.irqArmed = some n → 34000 ≤ s.now - n → s.host.ien = true → ∃ t, exec .mboxIrqTimeout s = .next t ∧
      t.host.irqArmed = none ∧ (vectorMasked s 0 = false → t.sched.out = s.sched.out ++ [.irq 0]) ∧
      (vectorMasked s 0 = true → t.sched = s.sched ∧ t.host.pba = s.host.pba ||| 1)) ∧
    (s.host.irqArmed = none → exec .mboxIrqTimeout s = .next s)) ∧
  (∀ (m : Words8) (s : State), headDue s m = false → s.host.h2d ≠ [] ∨ (s.host.ready = false ∧ s.mgmt.bootFailed = false) →
    (s.host.h2d.length < 512 → ∃ t, exec (.jobstart m) s = .next t ∧ t.host = { s.host with h2d := s.host.h2d ++ [m] }) ∧
    (512 ≤ s.host.h2d.length → ∃ t, exec (.jobstart m) s = .next t ∧
      t.host = { s.host with badw := min (s.host.badw + 1) 65535 }))

/-- Accesses to host space wait for a translation, which is cached, or ask once for the page, whose response or failure
decides them (R90); an invalidation removes the entries of its range and completes when no read under them is out (R92). A
pool access completes with its data, with a fault after 50 ms, or with the poison trap (R94); CXLWIN is written as R95
states. -/
def Obligations.HostAndPoolAccesses : Prop :=
  (∀ (s : State) (pasid page size : Nat) (r w : Bool), s.host.ats.length < 16384 →
    let z := min size 2
    let base := atsBase page z
    let p (a : Access) : Nat := hostPage a
    let s1 := if r || w then
        s.setHost { s.host with ats := mput s.host.ats (atsKey pasid base) (s.now, z, r, w) } else s
    (s.host.hostWaits = [] → exec (.atsCompletion pasid ⟨page, size⟩ r w) s = .next s1) ∧
    (∀ a n, s.host.hostWaits = [(a, n)] → s.pasidOf a.job = pasid → atsBase (p a) z = base → n = 0 ∨ n = 3 →
      let s2 := s1.setHost { s1.host with hostWaits := [] }
      (atsGrants s1 pasid a = true → exec (.atsCompletion pasid ⟨page, size⟩ r w) s = .next (s2.hostIssue a pasid)) ∧
      (atsGrants s1 pasid a = false → n = 3 ∨ s.host.priOn = false →
        exec (.atsCompletion pasid ⟨page, size⟩ r w) s = .next (s2.homeFault a causeHostpage)) ∧
      (atsGrants s1 pasid a = false → n = 0 → s.host.priOn = true → s.host.pri = [] →
        ∃ t, exec (.atsCompletion pasid ⟨page, size⟩ r w) s = .next t ∧ t.host.hostWaits = [(a, 2)] ∧
          t.host.pri = [(pasid, p a)] ∧ t.sched.out = s.sched.out ++ [.pri pasid (p a) (opWrites a.how)] ∧
          ⟨s.now + 17000000, .priTimeout pasid (p a)⟩ ∈ t.sched.timers))) ∧
  (∀ (s : State) (pasid page : Nat), (pasid, page) ∉ s.host.pri →
    exec (.priResponseSuccess pasid page) s = .next s ∧ exec (.priResponseInvalid pasid page) s = .next s ∧
    exec (.priResponseFailure pasid page) s = .next s ∧ exec (.priTimeout pasid page) s = .next s) ∧
  (∀ (s : State) (pasid page : Nat) (a : Access), s.host.pri = [(pasid, page)] → s.host.hostWaits = [(a, 2)] →
    s.pasidOf a.job = pasid → hostPage a = page →
    let s1 := (s.setHost { s.host with pri := [], hostWaits := [] }).untimer (.priTimeout pasid page)
    (∃ t, exec (.priResponseSuccess pasid page) s = .next t ∧ t.host.pri = [] ∧ t.host.hostWaits = [(a, 3)] ∧
      t.sched.out = s.sched.out ++ [.ats pasid page]) ∧
    exec (.priResponseInvalid pasid page) s = .next (s1.homeFault a causeHostpage) ∧
    exec (.priTimeout pasid page) s = .next (s1.homeFault a causeHostpage) ∧
    exec (.priResponseFailure pasid page) s =
      .next ((s1.setHost { s1.host with priOn := false }).homeFault a causeHostpage)) ∧
  (∀ (s : State) (pasid base len : Nat),
    (∃ t, exec (.priEnable pasid) s = .next t ∧ t.host.priOn = true ∧ (pasid ≠ 0 → pasid ∈ t.host.pasids)) ∧
    (∃ t, exec (.atsInvalidateRequest pasid base len) s = .next t ∧
      (∀ page, base ≤ page → page < base + len → page < 2 ^ 52 → atsEntry t pasid page = none) ∧
      t.host.invals = s.host.invals ++ [(pasid, base, len, s.host.nextRead)] ∧
      t.sched.inbox = s.sched.inbox ++ [.atsInvalidateCompletion pasid base len]) ∧
    (∀ first, s.host.invals = [(pasid, base, len, first)] →
      (readOut s pasid base len first = false → exec (.atsInvalidateCompletion pasid base len) s =
        .next ((s.setHost { s.host with invals := [] }).emit (.atsDone pasid base len))) ∧
      (readOut s pasid base len first = true → exec (.atsInvalidateCompletion pasid base len) s =
        .next (s.after 1 (.atsInvalidateCompletion pasid base len))))) ∧
  (∀ (s : State) (token : Nat) (data : List Byte) (a : Access) (r : Nat × HostRead),
    let s1 := s.dropRead token
    s.host.pendingReads.find? (fun r => r.1 == token) = some r →
    (∀ v0 v1, r.2 = .poolWrite a v0 v1 →
      exec (.poolCompletion token data false) s = .next (if opPosted a.how then s1.ackPosted a else s1.deliverResult a v0 v1) ∧
      exec (.poolTimeout token) s = .next ((s.dropRead token).homeFault a causePooltmo)) ∧
    (r.2 = .access a → region a.pa ≠ 8 →
      exec (.poolTimeout token) s = .next ((s.dropRead token).homeFault a causePooltmo) ∧
      (s1.isPoison a.pa = false → (opSize a.how = 16 → s1.isPoison (a.pa + 8) = false) →
        let line := poolBytes s1 a data
        let off := a.pa - (poolSpan s1 a).1
        (∀ f, a.how = .load f → exec (.poolCompletion token data false) s = .next (s1.deliverResult a
          (extendLoad f (bytesNat ((line.drop off).take (opSize a.how)))) 0)) ∧
        (∀ e v, a.how = .cas e v →
          let old := bytesNat ((line.drop off).take 8)
          exec (.poolCompletion token data false) s = .next (s1.poolPut a (poolSpan s1 a).1 (line.take off ++
            natBytes 8 (if old = e.toNat then v.toNat else old) ++ (line.drop off).drop 8) (w64 old) 0))) ∧
      (opReads a.how = true → s1.isPoison a.pa = true →
        exec (.poolCompletion token data false) s = .next (s1.poisonTrap a)))) ∧
  (∀ (s : State) (token : Nat) (data : List Byte), s.host.pendingReads.find? (fun r => r.1 == token) = none →
    exec (.poolCompletion token data false) s = .next s ∧ exec (.poolTimeout token) s = .next s) ∧
  (∀ (s : State) (n : Nat) (v : Word),
    let old := (mget s.host.cxlwin n 0).toNat
    let w := v.toNat
    let field (x : Nat) : Nat := bits x 63 14 * 2 ^ 14 + bits x 1 1 * 2
    (8 ≤ n → exec (.cxlwinWrite n v) s = .next s) ∧
    (n < 8 → bit old 0 = true →
      (bit w 0 = true → exec (.cxlwinWrite n v) s = .next s) ∧
      (bit w 0 = false → ∃ t, exec (.cxlwinWrite n v) s = .next t ∧ mget t.host.cxlwin n 0 = w64 (field old))) ∧
    (n < 8 → bit old 0 = false →
      (bit w 0 = false → ∃ t, exec (.cxlwinWrite n v) s = .next t ∧ mget t.host.cxlwin n 0 = w64 (field w)) ∧
      (bit w 0 = true → 2 ^ 42 < cxlTotal s + (bits w 27 14 + 1) * 2 ^ 28 →
        ∃ t, exec (.cxlwinWrite n v) s = .next t ∧ mget t.host.cxlwin n 0 = w64 (field w + 4)) ∧
      (bit w 0 = true → cxlTotal s + (bits w 27 14 + 1) * 2 ^ 28 ≤ 2 ^ 42 →
        ∃ t, exec (.cxlwinWrite n v) s = .next t ∧ mget t.host.cxlwin n 0 = w64 (field w + 1))))

/-! ## Faults, heat and churn (chapter 5) -/

/-- Records wait for a ring slot and are written in order (R133); a replay resumes what waits and an abort ends it, a thread
with the memory-fault trap (R113, R114, R415); heat decays by halves and starts at zero (R116, R117). -/
def Obligations.FaultsAndHeat : Prop :=
  (∀ (s : State) (i : Nat), (s.launchAt i = none → exec (.faultRingRetry i) s = .next s) ∧
    (∀ l, s.launchAt i = some l → l.stalled = [] → exec (.faultRingRetry i) s = .next s) ∧
    (∀ l x s1 w rest, s.launchAt i = some l → l.stalled = (0, w) :: rest →
      ringSlot (s.untimer (.faultRingRetry i)) l = (.ok x, s1) → ringNear s1 x = true → s.keyLive (s.keyOf l.job) = true →
      (bytesNat (s1.mem.read (s.keyOf l.job) x.pa 8) ≠ 0 →
        exec (.faultRingRetry i) s = .next ((s1.heat x.pa).after 1700 (.faultRingRetry i))) ∧
      (bytesNat (s1.mem.read (s.keyOf l.job) x.pa 8) = 0 → ∃ t l', exec (.faultRingRetry i) s = .next t ∧
        t.mem = writeRecord ((List.range 5).foldl (fun s _ => s.heat x.pa) s1).mem (s.keyOf l.job) x.pa w ∧
        t.launchAt i = some l' ∧ l'.stalled = rest ∧
        l'.fahead = (l.fahead + 1) % 2 ^ 32 ∧ l'.count = l.count + 1 ∧
        (rest ≠ [] → .faultRingRetry i ∈ t.sched.inbox)))) ∧
  (∀ s : State,
    (s.mem.stopped = [] → exec .replayQueueFree s = .next s.pollUnits) ∧
    (∀ r, s.mem.stopped = [r] → exec .replayQueueFree s =
      .next ((s.setMem { s.mem with stopped := [] }).resumeWait r.token r.what).pollUnits) ∧
    (s.mem.stopped = [] → s.agents.tokOps = [] → s.agents.calls = [] → s.agents.futOps = [] →
      exec .replayQueueFree s = .next s)) ∧
  (∀ (s : State) (token : Nat),
    (s.waitingOf token = none →
      exec (.freplayReplay token) s = .next (s.countLife (lifeReplay + 9) 48 1) ∧
      exec (.freplayAbort token) s = .next (s.countLife (lifeReplay + 9) 48 1)) ∧
    (∀ r id, s.waitingOf token = some r → r.what = .thread id → (s.slotAt id).st = .fault token →
      (∃ t, exec (.freplayReplay token) s = .next t ∧ t.slotAt id = { s.slotAt id with st := .running } ∧
        t.waitingOf token = none ∧ .replayQueueFree ∈ t.sched.inbox ∧ t.mem.cells = s.mem.cells) ∧
      exec (.freplayAbort token) s = .next (((s.takeReplay token).setSlot id { s.slotAt id with st := .running }).raise id
        ⟨trapMemory, 0, r.va, (s.slotAt id).pc⟩)) ∧
    (∀ r a, s.waitingOf token = some r → r.what = .access a → opPosted a.how = true ∨ a.release = true →
      exec (.freplayAbort token) s = .next ((s.takeReplay token).ackPosted a))) ∧
  (∀ s : State,
    (s.churn.heatEn = false → exec .heatDecay s = .next s) ∧
    (s.churn.heatEn = true → Memory.wf s.mem.cells = true → ∃ t, exec .heatDecay s = .next t ∧ t.cores = s.cores ∧
      Memory.wf t.mem.cells = true ∧
      (∀ b, byteAt t.mem.cells b =
        if inHeat s b then BitVec.ofNat 8 ((byteAt s.mem.cells b).toNat / 2) else byteAt s.mem.cells b) ∧
      ⟨s.now + max s.churn.heatDecay 1 * 1700000, .heatDecay⟩ ∈ t.sched.timers)) ∧
  (∀ (s : State) (v : Word), Memory.wf s.mem.cells = true → ∃ t, exec (.heatcfgWrite v) s = .next t ∧
    t.churn.heatEn = v.getLsbD 0 ∧ t.churn.heatDecay = bits v.toNat 31 16 ∧
    t.churn.heatK = bits v.toNat 4 1 ∧
    (v.getLsbD 0 = true → s.churn.heatEn = false →
      (∀ b, inHeat t b = true → byteAt t.mem.cells b = 0) ∧
      (∀ b, inHeat t b = false → byteAt t.mem.cells b = byteAt s.mem.cells b) ∧
      ⟨s.now + max (bits v.toNat 31 16) 1 * 1700000, .heatDecay⟩ ∈ t.sched.timers) ∧
    (v.getLsbD 0 = false ∨ s.churn.heatEn = true → t.mem = s.mem))

/-- A write to the command queue is dropped, faults, is refused or begins a command (R118, R119); a command finds its leaf and
rewrites it or refuses it, freezes its frame, moves the bytes and the marks, releases the accesses that waited and writes its
completion word (R120 to R122); a compressed page comes back to a free frame (R122, R124). -/
def Obligations.ChurnCommands : Prop :=
  (∀ (i : Instr) (block : Nat) (s : State), i = .migrate block ∨ i = .compress block ∨ i = .decompress block →
    let n := s.churn.nextCmd
    let c5 : ChurnCmd := { cmdOf block [] with st := 5 }
    let s0 := (s.setChurn { s.churn with nextCmd := n + 1 }).setCmd n c5
    let line := block / 64 * 64
    let l := ((plainLines s0 0 2 line (bytesAt s0.mem.cells line (if block % 64 ≤ 32 then 64 else 128))).drop
      (block % 64)).take 32
    let x := cmdOf block l
    let same := s0.churn.cmds.any (fun y => y.1 != n && y.2.st % 16 != 5 && sameTarget y.2 x)
    let bad := cmdBad (s0.dropBuf n) (wordAt l 0).toNat x
    (s.churn.en = false → exec i s = .next s) ∧
    (s.churn.en = true → 64 ≤ s.churn.cmds.length → exec i s = .next (s.setChurn { s.churn with ovf := true })) ∧
    (s.churn.en = true → s.churn.cmds.length < 64 →
      (paOk s0 block = false ∨ paOk s0 (block + 31) = false ∨ 8 ≤ region block →
        exec i s = .next (s0.churnFault n c5 causePhysaddr 0 (w64 block))) ∧
      (paOk s0 block = true → paOk s0 (block + 31) = true → region block < 4 → lineBusy s0 block false = none →
        (same = true → exec i s = .next (((s0.dropBuf n).dropCmd n).completion x.done 6)) ∧
        (same = false → bad = true → exec i s = .next (((s0.dropBuf n).dropCmd n).completion x.done 7)) ∧
        (same = false → bad = false → exec i s = .next (((s0.dropBuf n).setCmd n x).churnInval n x))))) ∧
  (∀ (n : Nat) (c : ChurnCmd) (s : State) (j : Job) (at_ pte lv : Nat), mget? s.work.jobs c.job = some j →
    leafAt s c.va.toNat 6 4 j.root = .leaf at_ pte lv → s.keyLive (s.accKey c.job c.va) = true →
    let old := bits pte 49 10
    let begun : ChurnCmd := { c with st := 1, old := old, pte := at_ }
    let t := s.churnInval n c
    (typeOk (region c.dest) (bits pte 5 4) = false → t = s.endCmd n c 7 0) ∧
    (typeOk (region c.dest) (bits pte 5 4) = true →
      (c.op = 3 → bit pte 6 = false ∨ lv ≠ 0 → t = s.endCmd n c 7 0) ∧
      (c.op ≠ 3 → bits pte 63 50 ≠ s.fabric.self ∨ bit pte 6 = true ∨ lv ≠ c.size → t = s.endCmd n c 7 0) ∧
      (c.op = 1 → bits pte 63 50 = s.fabric.self → bit pte 6 = false → lv = c.size → s.mem.waiters = [] →
        t.mem.moving = s.mem.moving ++ (List.range c.frames).map (fun i =>
          (⟨old + i, c.dest / 4096 + i, false, old + i != c.dest / 4096 + i, []⟩ : MovingPage)) ∧
        t.mem.cells = setBytes s.mem.cells at_ (natBytes 8 (framePte pte (c.dest / 4096))) ∧
        mget? t.churn.cmds n = some begun ∧ tlbiRuns t n = true ∧ .freeze n ∈ t.sched.inbox) ∧
      (c.op = 2 → bits pte 63 50 = s.fabric.self → bit pte 6 = false → lv = c.size →
        t.mem.moving = s.mem.moving ++ [⟨old, old, false, false, []⟩] ∧ t.mem.cells = s.mem.cells ∧
        mget? t.churn.cmds n = some begun ∧ .freeze n ∈ t.sched.inbox) ∧
      (∀ page es s1, c.op = 3 → bit pte 6 = true → lv = 0 → readSlot s n pte c.job c.va = .page page es s1 →
        t = ((((s1.putUnder n (s1.accKey c.job c.va) c.dest page).putTags (c.dest / 4096) es).setCmd n
          { c with st := 6, pte := at_, slot := pteSlot s1 pte }).post (.churnGo n))))) ∧
  (∀ (n : Nat) (s : State), exec (.churnQOverflow n) s = .next (s.setChurn { s.churn with ovf := true })) ∧
  (∀ (n : Nat) (s : State), mget? s.churn.cmds n = none →
    exec (.freeze n) s = .next s ∧ exec (.copy n) s = .next s ∧ exec (.release n) s = .next s ∧ exec (.done n) s = .next s) ∧
  (∀ (n : Nat) (c : ChurnCmd) (s : State), mget? s.churn.cmds n = some c →
    let old := c.old + c.frame
    let new := c.dest / 4096 + c.frame
    (c.st = 1 → tlbiRuns s n = true → exec (.freeze n) s = .next (s.after 1 (.freeze n))) ∧
    (c.st = 1 → tlbiRuns s n = false → (∀ l ∈ s.mem.clines, l.dev = s.fabric.self → l.line / 64 ≠ old) →
      (∀ p ∈ s.mem.peers, p.1 / 64 ≠ old) →
      (∀ x ∈ s.work.clusters, ∀ o ∈ x.2.copyLines, o.dev = s.fabric.self → o.line / 64 ≠ old) → frameInUse s old = false →
      ∃ t, exec (.freeze n) s = .next t ∧
        (∀ m ∈ t.mem.moving, m.old = old → m.frozen = true) ∧ t.mem.cells = s.mem.cells ∧
        mget? t.churn.cmds n = some { c with st := 2 } ∧ .copy n ∈ t.sched.inbox) ∧
    (c.st = 2 → c.op = 1 → region (old * 4096) < 3 → region (new * 4096) < 3 → old ≠ new →
      Memory.wf s.mem.cells = true → ∃ t, exec (.copy n) s = .next t ∧
        bytesAt t.mem.cells (new * 4096) 4096 = bytesAt s.mem.cells (old * 4096) 4096 ∧
        (∀ b, b / 4096 ≠ new → byteAt t.mem.cells b = byteAt s.mem.cells b) ∧
        mget? t.churn.cmds n = some { c with st := 6 } ∧ .churnGo n ∈ t.sched.inbox) ∧
    (c.st = 6 → c.op = 1 → old ≠ new → s.mem.empties.Pairwise (· < ·) →
      let t := s.churnWritten n c
      (∀ w, w < 512 → numHas t.mem.empties (new * 512 + w) = numHas s.mem.empties (old * 512 + w)) ∧
      mget? t.churn.cmds n = some { c with st := 3 } ∧ .release n ∈ t.sched.inbox) ∧
    (c.st = 3 → c.op ≠ 2 → ∃ t, exec (.release n) s = .next t ∧ t.mem.cells = s.mem.cells ∧
      (∀ m ∈ t.mem.moving, ¬(m.old = old ∧ m.frozen = true)) ∧
      (∀ m ∈ s.mem.moving, m.old = old → m.frozen = true → ∀ a ∈ m.queue,
        .homeAccess { a with pa := new * 4096 + a.pa % 4096 } ∈ t.sched.inbox) ∧
      (c.frame + 1 < c.frames →
        mget? t.churn.cmds n = some { c with st := 1, frame := c.frame + 1 } ∧ .freeze n ∈ t.sched.inbox) ∧
      (c.frames ≤ c.frame + 1 →
        mget? t.churn.cmds n = some { c with st := 4, extra := 0 } ∧ .done n ∈ t.sched.inbox)) ∧
    (c.st = 4 → ∃ t, exec (.done n) s = .next t ∧ mget? t.churn.cmds n = none ∧
      (c.done % 8 = 0 → region c.done < 3 → paOk s c.done = true → Memory.wf s.mem.cells = true →
        bytesAt t.mem.cells c.done 8 = natBytes 8 (c.status + c.extra)))) ∧
  (∀ (token : Nat) (s : State),
    (s.churn.zwait.find? (fun z => z.2.token == token) = none →
      exec (.zPageDecompress token) s = .next (s.zSlot token) ∧
      (s.bufAt (zBuf token) = [] → s.zSlot token = s)) ∧
    (∀ z, s.churn.zwait.find? (fun z => z.2.token == token) = some z → entryBusy s z.1 = false →
      let pte := s.mem.pte z.1
      let b := zBuf z.2.token
      (bit pte 6 = false ∨ bit pte 9 = false → exec (.zPageDecompress token) s =
        .next ((s.dropZwait z.2.token).resumeWait z.2.token z.2.what)) ∧
      (∀ page es s1, bit pte 6 = true → bit pte 9 = true → readSlot s b pte z.2.job z.2.va = .page page es s1 →
        (∀ frame s2, takeFrame 505 s1 = .got frame s2 → bits pte 63 50 = s.fabric.self → s2.fabric = s.fabric →
          let s3 := (s2.putUnder b (s2.accKey z.2.job z.2.va) (frame * 4096) page).putTags frame es
          let s4 := (s3.restorePage b z.1 pte z.2.job z.2.va frame).putBuf b (natBytes 8 (pteSlot s3 pte))
          exec (.zPageDecompress token) s =
            .next (((s4.dropZwait z.2.token).resumeWait z.2.token z.2.what).after 1 (.zPageDecompress z.2.token))) ∧
        (∀ s2, takeFrame 505 s1 = .none s2 →
          exec (.zPageDecompress token) s = .next (s2.after 6800 .freeFramePoll))))) ∧
  (∀ s : State, ∃ t, exec .freeFramePoll s = .next t ∧ t = { s with sched := t.sched } ∧
    t.sched.inbox = s.sched.inbox ++ s.churn.zwait.map (fun z => .zPageDecompress z.2.token))

/-! ## Tasks, launches and migration of cores (chapter 6) -/

/-- A packet enters its cluster's queue, or its ring, or is held (R142); its footprint and WAIT words are read (R137, R140);
the dispatcher takes its candidates in order and reserves a slot (R144); the rows are pinned and the task starts (R140). -/
def Obligations.TasksAreDispatched : Prop :=
  (∀ (s : State) (cl : Nat) (src : SlotId) (p : Words8) (l : Launch),
    let c := s.cluster cl
    p.w2.getLsbD 58 = false → p.w2.getLsbD 59 = false → originMod p = s.fabric.self → src ≠ rootPoster →
    s.launchAt (packetLaunch p) = some l → l.cancelled = false → (∀ q ∈ c.queue ++ c.ring, q.st ≠ .anti) →
    (queueOpen s cl = true → c.ring = [] → c.blocked = [] →
      ∃ t q, exec (.taskPacketArrival cl src false p) s = .next t ∧ (t.cluster cl).queue = c.queue ++ [q] ∧
        q.pkt = p ∧ q.job = l.job ∧ q.enq = s.now ∧ q.st = .waitw ∧ q.foot = none ∧
        .waitWordRead cl q.id ∈ t.sched.inbox ∧ t.launchAt (packetLaunch p) = some l ∧ t.mem = s.mem) ∧
    (queueFull s cl = true ∨ c.blocked ≠ [] → ∃ t, exec (.taskPacketArrival cl src false p) s = .next t ∧
      (t.cluster cl).blocked = c.blocked ++ [(src, false, p)] ∧ (t.cluster cl).queue = c.queue)) ∧
  (∀ (s : State) (cl : Nat), let c := s.cluster cl
    (c.ring = [] → c.blocked = [] → exec (.overflowReturn cl) s = .next s) ∧
    (∀ q rest, c.ring = q :: rest → queueOpen s cl = true → ∃ t, exec (.overflowReturn cl) s = .next t ∧
      (t.cluster cl).queue = c.queue ++ [q] ∧ (t.cluster cl).ring = rest ∧ .waitWordRead cl q.id ∈ t.sched.inbox ∧
      t.mem = s.mem)) ∧
  (∀ (s : State) (cl n : Nat), (s.cluster cl).task? n = none → exec (.waitWordRead cl n) s = .next s) ∧
  (∀ (s : State) (cl n : Nat) (q : QTask), (s.cluster cl).task? n = some q → q.st = .waitw → footWaits s cl n = false →
    let len := bits q.pkt.w4.toNat 63 59
    (q.foot = none → packetBad q.pkt = true →
      exec (.waitWordRead cl n) s = .next (s.setTask cl { q with foot := some [], bad := true })) ∧
    (q.foot = none → packetBad q.pkt = false → len = 0 →
      exec (.waitWordRead cl n) s = .next (s.setTask cl { q with foot := some [] })) ∧
    (∀ l s1, q.foot = none → packetBad q.pkt = false → len ≠ 0 →
      unitRead s (clusterCore cl 0) q.job true ((q.pkt.w4.truncate 54 : BitVec 54).signExtend 64) (16 * len) = .ok l s1 →
      exec (.waitWordRead cl n) s =
        .next ((s1.dropUnitLines.setTask cl { q with foot := some (footOf l len) }).post (.waitWordRead cl n))) ∧
    (∀ f i va x s1, q.foot = some f → waitsOf f = [(i, va)] → i ∉ q.asked →
      translate s (clusterCore cl 0) q.job true va .read = (.ok x, s1) →
      (x.ty = 2 → exec (.waitWordRead cl n) s =
        .next ((s1.footFault cl q (clusterCore cl 0) 0 causePerm 0 va).setTask cl q)) ∧
      (x.ty ≠ 2 → 4 ≤ region x.pa → exec (.waitWordRead cl n) s =
        .next ((s1.footFault cl q (clusterCore cl 0) 0 causeUntagged 0 va).setTask cl q)) ∧
      (x.ty ≠ 2 → region x.pa < 4 → exec (.waitWordRead cl n) s =
        .next ((s1.unitSend x.dev (waitAccess s1 (clusterCore cl 0) q i va x.pa)).setTask cl
          { q with asked := q.asked ++ [i] })))) ∧
  (∀ (s : State) (cl : Nat), candidates s cl = [] → exec (.dispatchStep cl) s = .next s) ∧
  (∀ (s : State) (cl : Nat) (q : QTask) (rest : List QTask), candidates s cl = q :: rest → throttled s cl q = false →
    q.task = none →
    let bad := q.bad = true ∨ footBad (q.foot.getD []) (fun r => packetOrd q.pkt &&
      logRow s (s.partOf (packetLaunch q.pkt)) r) = true
    (bad → exec (.dispatchStep cl) s = .next (s.failTask cl q)) ∧
    (∀ k n, ¬bad → chooseCore s cl q = some k → (freePrimary s k).head? = some n → packetOrd q.pkt = false →
      needTable q = 0 → q.st = .waitw →
      ∃ t, exec (.dispatchStep cl) s = .next t ∧
        t.slotAt ⟨k, n⟩ = { (s.slotAt ⟨k, n⟩).freed with reserved := true, task := taskOf s k q 0 0 0 } ∧
        .footprintFetchDone ⟨k, n⟩ ∈ t.sched.inbox ∧
        (∀ x ∈ (s.cluster cl).queue, x.id = q.id → { q with st := .fetch k n, got := 0 } ∈ (t.cluster cl).queue))) ∧
  (∀ (s : State) (cl : Nat) (q x : QTask), q ∈ candidates s cl → x ∈ (candidates s cl).head? →
    effPrio s q ≤ effPrio s x ∧ (effPrio s q = effPrio s x → x.enq ≤ q.enq)) ∧
  (∀ (s : State) (id : SlotId), chosenFor s id = none → exec (.footprintFetchDone id) s = .next s) ∧
  (∀ (s : State) (id : SlotId) (q : QTask),
    let cl := clusterOf id.core
    let steps := tileSteps (tilesOf (q.foot.getD []))
    chosenFor s id = some q → footWaits s cl q.id = false → q.st = .fetch id.core id.slot → q.got = 0 →
    (s.slotAt id).task.tfmt = 0 → (s.slotAt id).task.ord = false → (∀ x ∈ steps, x.2 = none) →
    ∃ t, exec (.footprintFetchDone id) s = .next t ∧
      Started s t id (w64 (q.pkt.w2.toNat % 2 ^ 54)) [q.pkt.w6, q.pkt.w7] q.handler ∧
      (∀ x ∈ steps, ((t.coreAt id.core).row x.1).pin = true ∧ ((t.coreAt id.core).row x.1).full = false) ∧
      (∀ x ∈ (t.cluster cl).queue, x.id ≠ q.id) ∧ (t.coreAt id.core).recvN = (s.coreAt id.core).recvN + 1)

/-- A pre-empted task is saved to a block, V last, and leaves its slot (R152, R153, R235, R236); a launch whose COUNT is zero
ends in its state, answers JOINW, and its job ends with its root (R128, R131, R132); a phase advances once its lines are
written back (R130, R270); live migration moves a core and forwards its packets (R155, R156). -/
def Obligations.SavesEndsAndMoves : Prop :=
  (∀ (s : State) (id : SlotId),
    ((s.slotAt id).st ≠ .saving none → exec (.save id) s = .next s) ∧
    ((∀ x, (s.slotAt id).st ≠ .saving (some x)) → exec (.saveComplete id) s = .next s)) ∧
  (∀ (s : State) (id : SlotId), let sl := s.slotAt id
    sl.anyPend = true ∨ sl.late ≠ [] ∨ sl.outst ≠ 0 ∨ sl.posted ≠ 0 → exec (.save id) s = .next s) ∧
  (∀ (s : State) (id : SlotId), let sl := s.slotAt id
    sl.st = .saving none → sl.anyPend = false → sl.late = [] → sl.outst = 0 → sl.posted = 0 →
    (lmigSave s id = true → exec (.save id) s =
      .next ((s.setSlot id { sl.expireAll with st := .saving (some (0, true)) }).after 3400 (.saveComplete id))) ∧
    (∀ va s1, lmigSave s id = false → saveBlock s sl.task.launch (.thread id) = (.found va, s1) →
      let s2 := s1.setSlot id { sl.expireAll with st := .saving (some (va, false)) }
      let body := contextBytes s2 id sl.expireAll ++
        (pinnedRows sl.task).flatMap (fun r => s1.scrBytes id.core (64 * r) 64)
      exec (.save id) s = .next ((s2.putSave id sl.task 900 va body).after 3400 (.saveComplete id)))) ∧
  (∀ (s : State) (id : SlotId) (block : Word) (v : Bool), let sl := s.slotAt id
    sl.st = .saving (some (block, v)) → sl.doomed = false →
    (∀ l, s.launchOf sl.task = some l → l.cancelled = false) →
    (block = 0 → exec (.saveComplete id) s = .next (s.lmigSlotDone id)) ∧
    (block ≠ 0 → sl.posted ≠ 0 → exec (.saveComplete id) s = .next (s.after 16 (.saveComplete id))) ∧
    (block ≠ 0 → sl.posted = 0 → v = true → ∃ t, exec (.saveComplete id) s = .next t ∧
      t.slotAt id = sl.freed ∧ (∀ r ∈ sl.task.pins, ((t.coreAt id.core).row r).pin = false) ∧
      (t.cluster (clusterOf id.core)).queue =
        (s.cluster (clusterOf id.core)).queue ++ [savedTask s id sl.task block] ∧
      .dispatchStep (clusterOf id.core) ∈ t.sched.inbox ∧ .primarySlotFree id.core ∈ t.sched.inbox ∧
      t.mem.cells = s.mem.cells) ∧
    (block ≠ 0 → sl.posted = 0 → v = false →
      let s1 := (s.setSlot id { sl with st := .saving (some (block, true)) }).putSave id sl.task 2 (block + 88)
        (natBytes 8 (2 ^ 63 + sl.task.pins.length))
      ((s1.slotAt id).posted ≠ 0 → exec (.saveComplete id) s = .next (s1.after 16 (.saveComplete id))) ∧
      ((s1.slotAt id).posted = 0 → exec (.saveComplete id) s = .next (s1.endSave id block)))) ∧
  (∀ (s : State) (i : Nat),
    (s.launchAt i = none → exec (.launchComplete i) s = .next s) ∧
    (∀ l, s.launchAt i = some l → l.st < 3 → l.st ≠ 2 ∨ l.count ≠ 0 → exec (.launchComplete i) s = .next s) ∧
    (∀ l, s.launchAt i = some l → 3 ≤ l.st → exec (.launchComplete i) s = .next (s.checkJob l.job)) ∧
    (∀ l j, s.launchAt i = some l → l.st = 2 → l.count = 0 → l.graph = 0 → l.ord = false → l.multi = false →
      mget? s.work.jobs l.job = some j → j.running = true →
      let e := if l.cancelled then 4 else if l.fail then 5 else 3
      (i ≠ j.rootLaunch → launchEnded s j.rootLaunch = false → ∃ t, exec (.launchComplete i) s = .next t ∧
        t.launchAt i = some { l with st := e, end_ := s.now } ∧
        (s.work.joins = [] → t.cores = s.cores) ∧
        (∀ id d, s.work.joins = [⟨id, d, 0, i⟩] → s.forwarded id.core = id.core → d ≠ 0 →
          ((s.slotAt id).cell d).pend = true →
          (t.slotAt id).cell d = ⟨w64 e, true, false⟩ ∧ t.work.joins = [])) ∧
      (i = j.rootLaunch → j.graphs = [] → s.work.joins = [] → jobTrails s l.job = false → s.host.d2h.length < 1024 →
        let status := if j.cancelled then 1 else if j.anyFailed || (l.fail && !l.cancelled) then 2 else 0
        ∃ t, exec (.launchComplete i) s = .next t ∧ t.launchAt i = none ∧
          (∃ j', mget? t.work.jobs l.job = some j' ∧ j'.running = false) ∧
          t.host.d2h = s.host.d2h ++ [⟨w64 (0x81 * 2 ^ 56 + l.job % 65536 * 2 ^ 32 + j.tag % 2 ^ 32), w64 s.now, 0,
            w64 status, 0, 0, 0, 0⟩]))) ∧
  (∀ (s : State) (p : Nat),
    let mine (loc : Nat) : Bool := (partClusters s p).contains loc || loc == remoteCache
    let s1 := s.writeBackAll (fun l => mine l.loc)
    (p ∉ s.work.advancing → mget s.work.phaseFor p [] = [] → exec (.phaseAdvance p) s = .next s) ∧
    (p ∈ s.work.advancing → s1.mem.wbOut.any (fun x => mine x.1) = true →
      exec (.phaseAdvance p) s = .next (s1.after 16 (.phaseAdvance p))) ∧
    (p ∈ s.work.advancing → s1.mem.wbOut.any (fun x => mine x.1) = false → mget s.work.phaseFor p [] = [] →
      s.fabric.enable = false → mget? s.work.phaseLeft p = none →
      ∃ t, exec (.phaseAdvance p) s = .next t ∧ t.phaseOf p = (s.phaseOf p + 1) % 2 ^ 32 ∧
        p ∉ t.work.advancing ∧ mget? t.work.phaseSets p = none ∧
        (∀ l ∈ t.mem.clines, mine l.loc = true → l.dirty = 0) ∧ (s.work.joins = [] → t.cores = s.cores))) ∧
  (∀ (s : State) (v : Word),
    let src := bits v.toNat 63 48
    let dst := bits v.toNat 47 32
    let s0 := s.setWork { s.work with lmigSrc := src, lmigDst := dst }
    (s.work.lmigStatus = 1 ∨ s.work.lmigStatus = 2 ∨ v.getLsbD 0 = false → exec (.lmigGo v) s = .next s0) ∧
    (s.work.lmigStatus ≠ 1 → s.work.lmigStatus ≠ 2 → v.getLsbD 0 = true →
      (lmigRefused s0 src dst = true →
        exec (.lmigGo v) s = .next (s0.setWork { s0.work with lmigStatus := 4 })) ∧
      (lmigRefused s0 src dst = false → ∃ t, exec (.lmigGo v) s = .next t ∧
        t.work.lmigFrom = src ∧ t.work.lmigTo = dst ∧
        ((∀ x ∈ (s.coreAt src).slots, (x.2.st = .free ∨ x.2.guest = true) ∧ x.2.reserved = false) →
          t.work.lmigStatus = 2 ∧ ⟨s.now + 1, .lmigStreamDone⟩ ∈ t.sched.timers) ∧
        ((∃ x ∈ (s.coreAt src).slots, x.2.st ≠ .free ∧ x.2.guest = false) → t.work.lmigStatus = 1 ∧
          ∀ x ∈ (t.coreAt src).slots, x.2.st = .free ∨ x.2.guest = true ∨ x.2.preempt = true)))) ∧
  (∀ s : State, s.work.lmigStatus ≠ 2 → exec .lmigStreamDone s = .next s) ∧
  (∀ s : State,
    let src := s.work.lmigFrom
    let dst := s.work.lmigTo
    s.work.lmigStatus = 2 → src ≠ dst → lmigOwned s src = [] → lmigPeers s src = [] → lmigBusy s src = false →
    clusterOf src = clusterOf dst → Memory.wf s.mem.cells = true →
    ∃ t, exec .lmigStreamDone s = .next t ∧ t.work.lmigStatus = 3 ∧
      t.scrBytes dst 0 49152 = s.scrBytes src 0 49152 ∧ (t.coreAt dst).rows = (s.coreAt src).rows ∧
      (t.coreAt dst).spec = (s.coreAt src).spec ∧ (t.coreAt src).rows = [] ∧
      mget? t.work.lmigFwd (freeFwd s) = some (w64 (src * 2 ^ 48 + dst * 2 ^ 32 + 1)) ∧
      (∀ e ∈ s.work.lmigQueue, e ∈ t.sched.inbox)) ∧
  (∀ (s : State) (n : Nat), let w := mget s.work.lmigFwd n 0
    (w.getLsbD 0 = false → exec (.lmigFwdClear n) s = .next s) ∧
    (w.getLsbD 0 = true → ∃ t, exec (.lmigFwdClear n) s = .next t ∧ mget t.work.lmigFwd n 0 = w &&& ~~~1#64 ∧
      bits w.toNat 63 48 ∈ t.work.lmigGone ∧
      t = s.setWork { s.work with lmigFwd := t.work.lmigFwd, lmigGone := t.work.lmigGone }))

/-! ## Registers, power and reset (chapters 1 and 9) -/

/-- A supervisor register keeps what its rule lets a write change: QOVF, PARTCFG, CORECFG, MXMODE, FABRIC_CFG and the
registers of the hub (R48, R79, R85, R98, R123, R135, R143, R190, R207, R222, R238, R447). -/
def Obligations.RegisterWrites : Prop :=
  (∀ (d : Nat) (v : Word) (s : State),
    (dies s.part ≤ d ∨ ringsInUse s d = true → exec (.qovfWrite d v) s = .next s) ∧
    (d < dies s.part → ringsInUse s d = false → ∃ t, exec (.qovfWrite d v) s = .next t ∧
      (ringsFit s d v.toNat = true →
        mget t.work.qovf d 0 = w64 (bits v.toNat 51 12 * 4096 + bits v.toNat 4 0)) ∧
      (ringsFit s d v.toNat = false → bits (mget t.work.qovf d 0).toNat 4 0 = 0) ∧ t.mem = s.mem ∧ t.cores = s.cores)) ∧
  (∀ (n : Nat) (v : Word) (s : State),
    let old := (mget s.work.partcfg n 0).toNat
    let busy := bit old 0 = true ∧ ∃ j ∈ s.work.jobs, j.2.running = true ∧ j.2.part = bits old 63 48
    let field (x : Nat) : Nat := bits x 63 48 * 2 ^ 48 + bits x 31 22 * 2 ^ 22 + bits x 21 11 * 2 ^ 11
    (16 ≤ n ∨ busy → exec (.partcfgWrite n v) s = .next s) ∧
    (n < 16 → ¬busy → ∃ t, exec (.partcfgWrite n v) s = .next t ∧
      ((∃ e ∈ s.work.partcfg, e.1 ≠ n ∧ bit e.2.toNat 0 = true ∧ runsOverlap e.2.toNat v.toNat = true) ∨
        v.getLsbD 0 = false → mget t.work.partcfg n 0 = w64 (field v.toNat)) ∧
      ((∀ e ∈ s.work.partcfg, e.1 ≠ n → bit e.2.toNat 0 = true → runsOverlap e.2.toNat v.toNat = false) →
        v.getLsbD 0 = true → mget t.work.partcfg n 0 = w64 (field v.toNat + 1)) ∧
      (∀ k, k ≠ n → mget t.work.partcfg k 0 = mget s.work.partcfg k 0))) ∧
  (∀ (k : Nat) (v : Word) (s : State),
    (isTile s.part k = false → exec (.corecfgWrite k v) s = .next s ∧ exec (.mxmodeWrite k v) s = .next s) ∧
    (isTile s.part k = true → ∃ t, exec (.corecfgWrite k v) s = .next t ∧
      t.coreAt k = { s.coreAt k with guests := v.toNat % 16 } ∧ (∀ j, j ≠ k → t.coreAt j = s.coreAt j) ∧
      .migrantEntry k ∈ t.sched.inbox) ∧
    (isTile s.part k = true →
      let a := clusterCore (clusterOf k) (coreNum k / 2 * 2)
      let b := clusterCore (clusterOf k) (coreNum k / 2 * 2 + 1)
      let p := s.arrayAt k
      ((s.coreAt a).mx ≠ [] ∨ (s.coreAt b).mx ≠ [] →
        exec (.mxmodeWrite k v) s = .next (s.setArray k { p with err := true })) ∧
      ((s.coreAt a).mx = [] → (s.coreAt b).mx = [] → exec (.mxmodeWrite k v) s =
        .next (s.setArray k { p with w := v.extractLsb' 0 2, mode := v.extractLsb' 2 2,
                                     err := p.err && !v.getLsbD 4 })))) ∧
  (∀ (v : Word) (s : State), ∃ t, exec (.fabricCfgWrite v) s = .next t ∧ t.fabric.markth = bits v.toNat 39 32 ∧
    t.fabric.self = s.fabric.self ∧
    (s.fabric.enable = true → t.fabric.sx = s.fabric.sx ∧ t.fabric.sy = s.fabric.sy ∧ t.fabric.sa = s.fabric.sa ∧
      t.fabric.sb = s.fabric.sb) ∧
    (s.fabric.enable = false → t.fabric.sx = bits v.toNat 23 19 ∧ t.fabric.sy = bits v.toNat 18 14 ∧
      t.fabric.sa = bits v.toNat 13 12 ∧ t.fabric.sb = bits v.toNat 11 10) ∧
    t.fabric.enable = (v.getLsbD 0 && selfInside s.part t.fabric) ∧
    (v.getLsbD 0 = true → selfInside s.part t.fabric = false →
      mget t.agents.counters errFabric 0 = mget s.agents.counters errFabric 0 + 1)) ∧
  (∀ (v : Word) (s : State), let w := v.toNat
    (s.part = .ny7740 → ∃ t, exec (.registerWrite .sluiceCtl v) s = .next t ∧ t.fabric.berx = bits w 19 16 ∧
      t.fabric.usrlease = v.getLsbD 2 ∧ t.fabric.starve = v.getLsbD 1 ∧ t.fabric.frozen = v.getLsbD 0) ∧
    (s.part ≠ .ny7740 → exec (.registerWrite .sluiceCtl v) s = .next s) ∧
    (∃ t, exec (.registerWrite .dispcfg v) s = .next t ∧ t.work.age = bits w 63 48 ∧ t.work.predly = bits w 47 32) ∧
    (∃ t, exec (.registerWrite .syncretry v) s = .next t ∧ t.mgmt.syncretry = bits w 7 0) ∧
    (∃ t, exec (.registerWrite .seqcfg v) s = .next t ∧ t.agents.seqEn = v.getLsbD 0 ∧
      (s.agents.seqEn = true → t.agents.seqBase = s.agents.seqBase) ∧
      (s.agents.seqEn = false → bits w 63 12 < 2 ^ 40 → region (bits w 63 12 * 4096) ≤ 1 →
        t.agents.seqBase = bits w 63 12 * 4096)) ∧
    (∃ t, exec (.registerWrite .churnCfg v) s = .next t ∧ t.churn.fpool = bits w 51 12 ∧ t.churn.zreg = bits w 11 8 ∧
      t.churn.en = v.getLsbD 0 ∧ t.churn.ovf = (s.churn.ovf && !v.getLsbD 1) ∧ .freeFramePoll ∈ t.sched.inbox) ∧
    (∀ c, 1 ≤ c → c ≤ 3 → s.churn.en = false → ∃ t, exec (.registerWrite (.churnPool c) v) s = .next t ∧
      mget t.churn.pools c 0 = w64 (bits w 61 0)) ∧
    (∃ t, exec (.registerWrite .mboxCtl v) s = .next t ∧ t.host.thresh = bits w 10 1 ∧ t.host.ien = v.getLsbD 0) ∧
    (∀ i n, s.part ≠ .ny7710 → i < 4096 → n < 2 → ∃ t, exec (.registerWrite (.localTool i n) v) s = .next t ∧
      localWord t i n = bits w 63 48 * 2 ^ 48 + (if n = 0 then bits w 11 0 else bits w 0 0)) ∧
    (∀ i n, s.part ≠ .ny7710 → i < 1024 → n < 4 → ∃ t, exec (.registerWrite (.remoteTool i n) v) s = .next t ∧
      remoteWord t i n = (if n = 3 then bits w 63 48 * 2 ^ 48 + bits w 0 0 else w)) ∧
    (∀ k, isTile s.part k = true → ∃ t, exec (.registerWrite (.tvec k) v) s = .next t ∧
      (t.coreAt k).tvec = ((v.toNat / 4 % 2 ^ 52 * 4 : Nat) |> BitVec.ofNat 54).signExtend 64) ∧
    (∀ d, exec (.registerWrite (.sldir d) v) s = .next s) ∧ exec (.registerWrite .features v) s = .next s ∧
    exec (.registerWrite .mboxStat v) s = .next s)

/-- The caps fall and rise with the power average and the temperatures (R18, R19); the lifetime counters are flushed, read
and lost as R25 states; reset leaves the part, the store and the identifier and puts everything else at its reset value
(R16, R20). -/
def Obligations.PowerAndReset : Prop :=
  (∀ (n : Nat) (s : State),
    (s.mgmt.powerCap < n → ∃ t, exec (.powerCapCheck n) s = .next t ∧ t.mgmt.powerLow = true ∧
      t.work.cap = max 1 (s.work.cap - 1) ∧ t.cores = s.cores ∧ t.mem = s.mem) ∧
    (n < s.mgmt.powerCap → ∃ t, exec (.powerCapCheck n) s = .next t ∧ t.mgmt.powerLow = false ∧
      t.work.cap = (if s.mgmt.thermalLow then s.work.cap else 16) ∧ t.cores = s.cores ∧ t.mem = s.mem)) ∧
  (∀ (die temp : Nat) (s : State),
    let h := hottest (mput s.mgmt.temps die temp)
    (s.mgmt.thermalLow = false → h.2 < 760 → ∃ t, exec (.thermalWarning die temp) s = .next t ∧ t.work = s.work ∧
      mget t.mgmt.temps die 0 = temp) ∧
    (s.mgmt.thermalLow = false → 760 ≤ h.2 → s.host.d2h.length < 1024 →
      ∃ t, exec (.thermalWarning die temp) s = .next t ∧
      t.mgmt.thermalLow = true ∧ t.work.cap = max 1 (s.work.cap - 1) ∧
      t.host.d2h = s.host.d2h ++ [⟨w64 (0x83 * 2 ^ 56 + 7 * 2 ^ 48), w64 s.now, w64 (h.1 % 16), w64 (h.2 % 65536), 0, 0, 0, 0⟩]) ∧
    (s.mgmt.thermalLow = true → h.2 < 736 → ∃ t, exec (.thermalWarning die temp) s = .next t ∧
      t.mgmt.thermalLow = false ∧ t.work.cap = (if s.mgmt.powerLow then s.work.cap else 16)) ∧
    (s.mgmt.thermalLow = true → 736 ≤ h.2 → ∃ t, exec (.thermalWarning die temp) s = .next t ∧
      t.mgmt.thermalLow = true ∧ t.work.cap = max 1 (s.work.cap - 1)) ∧
    (h.2 < 880 → ∃ t, exec (.fatalThermal die temp) s = .next t ∧ t.host = s.host ∧ t.work = s.work) ∧
    (880 ≤ h.2 → activeParts s = [] → s.host.d2h.length < 1024 → s.host.ien = true →
      ∃ t, exec (.fatalThermal die temp) s = .next t ∧ t.host.fatal = true ∧ .irq 1 ∈ t.sched.out ∧
        t.host.d2h = s.host.d2h ++ [⟨w64 (0x83 * 2 ^ 56 + 8 * 2 ^ 48), w64 s.now, w64 (h.1 % 16), w64 (h.2 % 65536), 0, 0, 0, 0⟩])) ∧
  (∀ (i : Instr) (s : State), i = .counterFlush ∨ i = .orderlyShutdown → ∃ t, exec i s = .next t ∧
    t = s.setMgmt { s.mgmt with counters := [], stored := t.mgmt.stored } ∧
    (∀ n v, s.mgmt.counters = [(n, v)] → mget t.mgmt.stored n 0 = min (mget s.mgmt.stored n 0 + v) (2 ^ lifeWidth n - 1) ∧
      ∀ k, k ≠ n → mget t.mgmt.stored k 0 = mget s.mgmt.stored k 0)) ∧
  (∀ s : State, exec .mctpCounterRead s = .next (s.emit (.mctp s.now (counterSnapshot s)))) ∧
  (∀ (temp ber : Nat) (s : State), 320 ≤ temp → ber < 8 → ∃ t, exec (.secondsSpent [temp] [ber]) s = .next t ∧
    mget t.mgmt.counters (lifeTemp + min ((temp - 320) / 40) 15) 0 =
      min (mget s.mgmt.counters (lifeTemp + min ((temp - 320) / 40) 15) 0 + 1) (2 ^ 40 - 1) ∧
    mget t.mgmt.counters (lifeOptical + ber) 0 = min (mget s.mgmt.counters (lifeOptical + ber) 0 + 1) (2 ^ 40 - 1)) ∧
  (∀ (ok : Bool) (l : List (BitVec 512)) (s : State), ∃ t, exec (.powerOn ok l) s = .next t ∧ t.mgmt.booted = ok ∧
    t.mgmt.bootFailed = !ok ∧ t.host.ready = ok ∧ (∀ n, n < l.length → l.length ≤ 8 →
      mget t.mgmt.measure n 0 = Config.sha512 (natBytes 64 (mget s.mgmt.measure n 0).toNat ++ natBytes 64 (l.getD n 0).toNat)) ∧
    t.cores = s.cores ∧ t.mem = s.mem) ∧
  (∀ (i : Instr) (s : State), i = .moduleReset ∨ i = .powerLoss → ∃ t, exec i s = .next t ∧ t.part = s.part ∧
    t.cores = State.reset.cores ∧ t.mem = State.reset.mem ∧ t.arrays = State.reset.arrays ∧ t.work = State.reset.work ∧
    t.agents = State.reset.agents ∧ t.host = State.reset.host ∧ t.churn = State.reset.churn ∧
    t.fabric = { State.reset.fabric with self := s.fabric.self } ∧ t.now = 0 ∧ t.mgmt.counters = [] ∧
    t.mgmt.serial = s.mgmt.serial ∧ t.mgmt.keys = State.reset.mgmt.keys ∧ t.mgmt.powerCap = State.reset.mgmt.powerCap ∧
    (i = .powerLoss → t.mgmt.stored = s.mgmt.stored) ∧ (i = .moduleReset → t.mgmt.stored = (flushCounters s.mgmt).stored))

/-! ## The fabric and the homes (chapters 3 and 11) -/

/-- A router forwards a packet in the direction of R54 to R56, combines reductions (R67), or drops it (R57); requests pass
the weir and the credits of their source (R60, R70, R71); an undeliverable request has its effect at the source (R57). -/
def Obligations.FabricRouting : Prop :=
  (∀ (s : State) (m : Nat), let f := s.fabric
    (modX f.self = modX m → modY f.self = modY m → modX m ≤ f.sx → modY m ≤ f.sy →
      (modA f.self < modA m → nextDir s m = some 4) ∧ (modA m < modA f.self → nextDir s m = some 5) ∧
      (modA f.self = modA m → modB f.self < modB m → nextDir s m = some 6) ∧
      (modA f.self = modA m → modB m < modB f.self → nextDir s m = some 7) ∧
      (modA f.self = modA m → modB f.self = modB m → nextDir s m = none)) ∧
    (modX f.self < modX m → modX m ≤ f.sx →
      nextDir s m = some (if modX m - modX f.self ≤ f.sx + 1 - (modX m - modX f.self) then 0 else 1)) ∧
    (modX m < modX f.self → modX f.self ≤ f.sx →
      nextDir s m = some (if f.sx + 1 - (modX f.self - modX m) ≤ modX f.self - modX m then 0 else 1))) ∧
  (∀ (s : State) (p : FabPkt), modOf p.src ≠ s.fabric.self ∨ p.response = true ∨ p.seq ≠ 0 →
    (routeOf s p = none → p.response = true →
      exec (.routeHop p) s = .next ((s.fatalStop p.part).undeliverable p 0)) ∧
    (routeOf s p = none → p.response = false → p.srcs = [] →
      (modOf p.src = s.fabric.self → exec (.routeHop p) s = .next (s.post (.norouteArrival p))) ∧
      (modOf p.src ≠ s.fabric.self → ∃ t q, exec (.routeHop p) s = .next t ∧
        t.sched.inbox = s.sched.inbox ++ [.routeHop q] ∧ q.response = true ∧ q.dst = modOf p.src ∧ q.cls = p.cls ∧
        q.part = p.part ∧ q.flits = 1 ∧ q.pay = .noroute p.toFabHdr p.pay ∧ t.fabric = s.fabric)) ∧
    (∀ d det, routeOf s p = some (d, det) → d ≠ 8 →
      let k := queueOf s p d det
      let q := queueAt s p d det
      let r := routed s p d det
      ((∀ x ∈ s.fabric.inq, nextQueue s x ≠ some k) →
        (flitsOf q + p.flits ≤ 128 ∨ q = [] → (∀ x ∈ q, merges r x = false) →
          ∃ t, exec (.routeHop p) s = .next t ∧ mget t.fabric.outq k [] = q ++ [r] ∧
            t = s.setFabric { s.fabric with outq := t.fabric.outq }) ∧
        (∀ x rest, q = x :: rest → merges r x = true →
          ∃ t, exec (.routeHop p) s = .next t ∧ mget t.fabric.outq k [] = merged x r :: rest) ∧
        (128 < flitsOf q + p.flits → q ≠ [] → (∀ x ∈ q, merges r x = false) →
          exec (.routeHop p) s = .next (s.setFabric { s.fabric with inq := s.fabric.inq ++ [p] }))) ∧
      ((∃ x ∈ s.fabric.inq, nextQueue s x = some k) →
        exec (.routeHop p) s = .next (s.setFabric { s.fabric with inq := s.fabric.inq ++ [p] })))) ∧
  (∀ (s : State) (p : FabPkt), nextDir s p.dst = none →
    (p.response = true → exec (.routeHop p) s =
      .next (((if p.marked then s.post (.weirMark (modOf p.src)) else s).noteAnswer p).deliver p)) ∧
    (p.response = false → p.seq ≠ 0 → p.also = [] → s.fabric.reorder = [] →
      let k := creditKey (modOf p.src) (orderedSet p)
      let n := mget s.fabric.seqIn k 0
      (p.seq = n + 1 → exec (.routeHop p) s =
        .next ((((s.setFabric { s.fabric with seqIn := mput s.fabric.seqIn k ((n + 1) % 65536) }).giveCredit p.src p.cls p.part
          (orderedSet p) p.flits).noteRequest p).deliver p)) ∧
      (p.seq ≠ n + 1 → (n + 65537 - p.seq) % 65536 ≤ 32768 → exec (.routeHop p) s = .next s) ∧
      (p.seq ≠ n + 1 → 32768 < (n + 65537 - p.seq) % 65536 →
        exec (.routeHop p) s = .next (s.setFabric { s.fabric with reorder := [p] })))) ∧
  (∀ (s : State) (p : FabPkt), modOf p.src = s.fabric.self → p.response = false → p.seq = 0 → p.dst ≠ s.fabric.self →
    let set := orderedSet p
    let k := creditKey p.dst set
    (routeOf s p = none → p.srcs = [] → exec (.routeHop p) s = .next (s.post (.norouteArrival p))) ∧
    (routeOf s p ≠ none → (∃ q ∈ s.fabric.held, q.dst = p.dst ∧ (p.cls ≤ 1 ↔ q.cls ≤ 1)) ∨ mayInject s p = false →
      ∃ t, exec (.routeHop p) s = .next t ∧ t.fabric.held = s.fabric.held ++ [p] ∧
        ⟨s.now + 1, .weirAdmit p.dst⟩ ∈ t.sched.timers) ∧
    (∀ d det, routeOf s p = some (d, det) → d ≠ 8 → (∀ q ∈ s.fabric.held, q.dst ≠ p.dst ∨ ¬(p.cls ≤ 1 ↔ q.cls ≤ 1)) →
      mayInject s p = true → skipped s p.dst set = [] → ∃ t, exec (.routeHop p) s = .next t ∧ t = s.inject p ∧
        mget t.fabric.order p.dst 0 = mget s.fabric.order p.dst 0 + p.flits ∧
        mget t.fabric.seqOut k 0 = (mget s.fabric.seqOut k 0 + 1) % 65536 ∧ t.fabric.held = s.fabric.held ∧
        (∀ w, mget? s.fabric.weirs p.dst = some w → 2 ≤ p.cls → p.cls ≤ 6 → mget? t.fabric.weirs p.dst =
          some { w with tokens := w.bucket s p.dst - p.flits * 64 * tokenUnit, filled := s.now }))) ∧
  (∀ (s : State) (m : Nat), let s0 := s.untimer (.weirAdmit m)
    ((∀ q ∈ s.fabric.held, q.dst ≠ m) → exec (.weirAdmit m) s = .next s0) ∧
    (∀ p l r, s.fabric.held = l ++ p :: r → p.dst = m → (∀ q ∈ l ++ r, q.dst ≠ m) → routeOf s p ≠ none →
      (mayInject s p = false → exec (.weirAdmit m) s = .next (s0.after 1 (.weirAdmit m))) ∧
      (∀ d det, routeOf s p = some (d, det) → d ≠ 8 → mayInject s p = true → skipped s m (orderedSet p) = [] →
        exec (.weirAdmit m) s = .next ((s0.setFabric { s.fabric with held := l ++ r }).inject p)))) ∧
  (∀ (s : State) (m set n : Nat), ∃ t, exec (.creditReturn m set n) s = .next t ∧
    mget t.fabric.order m 0 = mget s.fabric.order m 0 - n ∧ .weirAdmit m ∈ t.sched.inbox) ∧
  (∀ (s : State) (m : Nat),
    (∀ w, mget? s.fabric.weirs m = some w → ∃ t w', exec (.weirMark m) s = .next t ∧ mget? t.fabric.weirs m = some w' ∧
      w'.f = max (w.f * 15 / 16) 64 ∧ w'.lastMark = s.now ∧ ∀ k, k ≠ m → mget? t.fabric.weirs k = mget? s.fabric.weirs k) ∧
    (mget? s.fabric.weirs m = none → s.fabric.weirs.length < 512 → ∃ t w', exec (.weirMark m) s = .next t ∧
      mget? t.fabric.weirs m = some w' ∧ w'.f = 61440 ∧ w'.lastMark = s.now) ∧
    (∀ w, s.fabric.weirs = [(m, w)] →
      (s.now < w.lastMark + 27200 ∨ w.f = 65536 → ∃ t, exec .weirTick s = .next t ∧ t.fabric.weirs = [(m, w)]) ∧
      (w.lastMark + 27200 ≤ s.now → w.f ≠ 65536 → ∃ t w', exec .weirTick s = .next t ∧ t.fabric.weirs = [(m, w')] ∧
        w'.f = min (w.f + 1024) 65536 ∧
        (w'.f = 65536 → w'.full = s.now ∧ ⟨s.now + 1700000, .weirFree⟩ ∈ t.sched.timers)))) ∧
  (∀ s : State, ∃ t, exec .weirFree s = .next t ∧ t = s.setFabric { s.fabric with weirs := t.fabric.weirs } ∧
    ∀ x, x ∈ t.fabric.weirs ↔ x ∈ s.fabric.weirs ∧ ¬(x.2.f = 65536 ∧ x.2.full + 1700000 ≤ s.now)) ∧
  (∀ (s : State) (p : FabPkt), let id : SlotId := ⟨coreOf p.src, p.slot⟩
    p.also = [] → s.forwarded id.core = id.core →
    (p.seq ≠ 0 → modOf p.src = s.fabric.self → p.pay = .none → exec (.norouteArrival p) s =
      .next ((s.setFabric
        { s.fabric with
          order := mput s.fabric.order p.dst (mget s.fabric.order p.dst 0 - p.flits),
          skips := s.fabric.skips ++ [(p.dst, orderedSet p, p.seq)] }).post (.weirAdmit p.dst))) ∧
    (p.seq = 0 →
      (∀ a n, p.cls = 4 ∨ p.cls = 5 → p.pay = .access a → p.srcs = [⟨gcid s id.core, id.slot, n⟩] →
        modOf (gcid s id.core) = s.fabric.self → coreOf (gcid s id.core) = id.core → exec (.norouteArrival p) s =
          .next (((s.setSlot id { s.slotAt id with posted := (s.slotAt id).posted - n }).farAnswer id n).norouteRecord p)) ∧
      (∀ r, p.cls = 6 → p.pay = .spawn r → ∃ t, exec (.norouteArrival p) s = .next t ∧
        (∀ i : SlotId, i = ⟨coreOf r.src, r.slot⟩ → s.forwarded i.core = i.core →
          (t.slotAt i).spawns = (s.slotAt i).spawns - 1 ∧
          (r.dst.toNat ≠ 0 → (s.slotAt i).task.launch = r.launch → ((s.slotAt i).cell r.dst.toNat).pend = true →
            (t.slotAt i).cell r.dst.toNat = ⟨2, true, false⟩))) ∧
      (∀ core level src msg, p.cls = 6 → p.pay = .message core level src msg → exec (.norouteArrival p) s =
        .next ((s.setSlot id { s.slotAt id with unackMsg := (s.slotAt id).unackMsg - 1 }).norouteRecord p)) ∧
      (∀ m m', p.cls = 3 → p.pay = .migrant m' → (s.slotAt id).st = .away → (s.slotAt id).mack = some m →
        (s.slotAt id).task.ord = false → (s.slotAt id).doomed = false → exec (.norouteArrival p) s =
          .next ((s.setSlot id { s.slotAt id with st := .running, mack := none, mnaks := 0 }).raise id
            ⟨trapNoroute, 0, w64 p.dst, (s.slotAt id).pc⟩)) ∧
      (∀ line cache shared, p.cls = 2 → p.pay = .lineRequest line cache shared → cache < 2 ^ 20 → cache ≠ remoteCache →
        ∃ t, exec (.norouteArrival p) s = .next t ∧
          t.mem.dead = s.mem.dead ++ [(cache, p.dst, line, causeNoroute)] ∧
          t.mem.fills = s.mem.fills.erase (cache, p.dst, line))))

/-- A migrant takes a guest slot, waits in a buffer or is refused, and its slot is freed by MACK or sends it again
after MNAK (R62, R63, R222, R230); acknowledgements lower the count of posted accesses (R65); an access is performed
at its home once nothing holds it (R261, R272, R273), and an arrival that waits outside its home's list reads its
block (R358); fills, refreshes and the peer directory keep R73, R74, R253, R270 and R290. -/
def Obligations.MigrantsAndHomes : Prop :=
  (∀ (s : State) (m : Migrant),
    let k := migrantCore s m
    let m' := { m with home := gcid s k }
    let src : SlotId := ⟨coreOf m.src, m.slot⟩
    let mine := s.work.migrants.filter (fun x => bufferOf s x.m == bufferOf s m')
    let plain := (mine.filter (fun x => !x.res)).length
    let answer (e : Ev) : Flight := ⟨2 ^ 26 + 2 ^ 20 + coreOf m'.home, srcKey src.core src.slot, e⟩
    modOf m.src = s.fabric.self → s.forwarded src.core = src.core → lmigHolds s (namedCore m) = false →
    (s.slotAt src).task.ord = false → (s.slotAt src).task.pre = false →
    (∀ n, migrantWaits s k = false → guestSlot s k = some n → ∃ t, exec (.migrantArrival m) s = .next t ∧
      (t.slotAt ⟨k, n⟩).st = .running ∧ (t.slotAt ⟨k, n⟩).guest = true ∧ (t.slotAt ⟨k, n⟩).task = (s.slotAt src).task ∧
      (t.slotAt ⟨k, n⟩).pc = ((BitVec.ofNat 54 m.h0.toNat).signExtend 64) ∧
      (t.slotAt ⟨k, n⟩).sup = m.h0.getLsbD 61 ∧ (t.slotAt ⟨k, n⟩).p = [] ∧
      (∀ r v, r ≠ 0 → m.regs[r]? = some v → (t.slotAt ⟨k, n⟩).cell r = ⟨v, m.t0.getLsbD (32 + r), false⟩) ∧
      answer (.mack src) ∈ t.sched.net) ∧
    (migrantWaits s k = true ∨ guestSlot s k = none →
      (plain < 28 → ∃ t, exec (.migrantArrival m) s = .next t ∧ answer (.mack src) ∈ t.sched.net ∧ t.cores = s.cores ∧
        t.work.migrants = s.work.migrants ++ [⟨m', (s.slotAt src).task, false⟩]) ∧
      (28 ≤ plain → m.reserve = true → mine.length - plain < 4 →
        (∀ x ∈ s.work.refused, s.now ≤ x.1 + 6800 → bufferOf s x.2 = bufferOf s m' →
          m.sent < x.2.sent ∨ (m.sent = x.2.sent ∧ m.src * 16 + m.slot ≤ x.2.src * 16 + x.2.slot)) →
        ∃ t, exec (.migrantArrival m) s = .next t ∧ answer (.mack src) ∈ t.sched.net ∧
        t.work.migrants = s.work.migrants ++ [⟨m', (s.slotAt src).task, true⟩]) ∧
      (28 ≤ plain → m.reserve = false ∨ 4 ≤ mine.length - plain → ∃ t, exec (.migrantArrival m) s = .next t ∧
        answer (.mnak src) ∈ t.sched.net ∧ t.work.migrants = s.work.migrants ∧ t.cores = s.cores ∧
        (m.reserve = true → (s.now, m') ∈ t.work.refused)))) ∧
  (∀ (s : State) (k : Nat),
    (s.work.migrants.find? (fun x => coreOf x.m.home == k) = none → exec (.migrantEntry k) s = .next s) ∧
    (∀ x, s.work.migrants.find? (fun x => coreOf x.m.home == k) = some x → x.task.ord = false → x.task.pre = false →
      (guestSlot s k = none → exec (.migrantEntry k) s = .next s) ∧
      (∀ n, guestSlot s k = some n → ∃ t, exec (.migrantEntry k) s = .next t ∧ (t.slotAt ⟨k, n⟩).st = .running ∧
        (t.slotAt ⟨k, n⟩).guest = true ∧ (t.slotAt ⟨k, n⟩).task = x.task ∧
        t.work.migrants = s.work.migrants.erase x ∧ .migrantEntry k ∈ t.sched.inbox))) ∧
  (∀ (s : State) (id : SlotId) (m : Migrant), let sl := s.slotAt id
    s.forwarded id.core = id.core → sl.st = .away → sl.mack = some m →
    (modOf m.home = s.fabric.self → ∃ t, exec (.mack id) s = .next t ∧ (t.slotAt id).st = .free ∧
      (t.slotAt id).task = Task.reset ∧ .primarySlotFree id.core ∈ t.sched.inbox) ∧
    (modOf m.home ≠ s.fabric.self → modOf sl.task.dcore = s.fabric.self → s.dcoreNow sl.task = sl.task → sl.doomed = false →
      ∃ t, exec (.mack id) s = .next t ∧ (t.slotAt id).st = .free ∧
        { sl.task with pre := sl.task.pre || sl.preempt } ∈ (t.coreAt (coreOf sl.task.dcore)).away) ∧
    (sl.doomed = false → taskCancelled s sl.task = false →
      ∃ t, exec (.mnak id) s = .next t ∧ t.slotAt id = { sl with mnaks := sl.mnaks + 1 } ∧
        ⟨s.now + 3400, .migrantResend id⟩ ∈ t.sched.timers) ∧
    (∃ t m', exec (.migrantResend id) s = .next t ∧ (t.slotAt id).mack = some m' ∧
      m' = { m with reserve := decide (8 ≤ sl.mnaks) } ∧
      (modOf m.home = s.fabric.self → t.sched.net = s.sched.net ++
        [⟨srcKey id.core id.slot, coreOf m.home, .migrantArrival m'⟩]) ∧
      (modOf m.home ≠ s.fabric.self →
        Requested t 3 (modOf m.home) (m.addr.getD 0) id.core id.slot m.part sl.task.launch (.migrant m')))) ∧
  (∀ (s : State) (id : SlotId) (n : Nat),
    (s.forwarded id.core = id.core → ∃ t, exec (.pwack id n) s = .next t ∧
      t.slotAt id = { s.slotAt id with posted := (s.slotAt id).posted - n } ∧ t.mem = s.mem) ∧
    (s.fabric.acks.find? (fun x => x.1 == id) = none → exec (.pwackCombineTimeout id) s = .next s) ∧
    (∀ x, s.fabric.acks.find? (fun x => x.1 == id) = some x → ∃ t q, exec (.pwackCombineTimeout id) s = .next t ∧
      t.fabric.acks = s.fabric.acks.filter (fun x => x.1 != id) ∧
      t.sched.inbox = s.sched.inbox ++ [.routeHop q] ∧ q.dst = modOf id.core ∧ q.response = true ∧
      q.pay = .pwack ⟨coreOf id.core, id.slot⟩ x.2)) ∧
  (∀ (s : State) (a : Access), let s0 := s.arrive (.homeAccess a)
    (region a.pa < 3 → (∀ w ∈ s.host.hostWaits, w.2 = 6 → w.1.pa / 64 ≠ a.pa / 64) →
      (movingOf s a.pa = none →
        (Performs s0 a → exec (.homeAccess a) s = .next (afterHome s0 a)) ∧
        (∀ c, homeCheck s0 a = some c → exec (.homeAccess a) s = .next (s0.homeFault a c)) ∧
        (homeCheck s0 a = none → lineBusy s0 a.pa (opWrites a.how) = none → a.how = .syncRead →
          (s0.heat a.pa).isFull a.pa = false → exec (.homeAccess a) s = .next ((s0.heat a.pa).addWaiter a))) ∧
      (∀ p, movingOf s a.pa = some p → exec (.homeAccess a) s = .next (s0.waitPage p a))) ∧
    (region a.pa = 8 → exec (.homeAccess a) s = .next (s0.hostAccess a)) ∧
    (4 ≤ region a.pa → region a.pa ≤ 7 →
      (movingOf s a.pa = none → exec (.homeAccess a) s = .next (s0.poolAccess a)) ∧
      (∀ p, movingOf s a.pa = some p → exec (.homeAccess a) s = .next ((s0.unwait a 5).waitPage p a))) ∧
    (region a.pa = 14 → paOk s a.pa = true →
      (∀ n v, a.how = .store n v → exec (.homeAccess a) s =
        .next ((s0.mmioWrite (a.pa % 2 ^ 48) n v.toNat).ackPosted a)) ∧
      (∀ f, a.how = .load f → exec (.homeAccess a) s =
        .next (s0.deliverResult a (extendLoad f (s0.mmioRead (a.pa % 2 ^ 48) (2 ^ (f.toNat % 4)))) 0))) ∧
    (s.mem.waiters.find? (retries a) = none → exec (.syncRetry a) s = .next s) ∧
    (∀ w, s.mem.waiters.find? (retries a) = some w → opBarrier a.how = true →
      exec (.syncRetry a) s = .next (if w.parked then s else s.pollBarrier w)) ∧
    (∀ w, s.mem.waiters.find? (retries a) = some w → opBarrier a.how = false →
      let s1 := s.setMem { s.mem with waiters := s.mem.waiters.eraseP (fun w => w.acc == a) }
      Performs s1 a → exec (.syncRetry a) s = .next (afterServe s1 a))) ∧
  (∀ (s : State) (c line : Nat), let pa := line % 2 ^ 46 * 64
    let s0 := s.arrive (.codeLineFill c line)
    line / 2 ^ 46 = s.fabric.self → lineBusy s0 pa false = none →
    ∃ t, exec (.codeLineFill c line) s = .next t ∧ t.mem.cells = (s0.heat pa).mem.cells ∧
      (∀ f ∈ t.mem.codeFills, ¬(f.loc = c ∧ f.line = line)) ∧
      ∀ f, s.mem.codeFills.filter (fun f => f.loc == c && f.line == line) = [f] →
        { f with words := lineWords s0 (s0.accKey f.job (w64 (f.vpage * 4096))) pa } ∈ t.mem.code) ∧
  (∀ (s : State) (c dev line : Nat) (data : List Byte), c < 3000 ∨ (5000 ≤ c ∧ c < 2 ^ 20) →
    let s0 := s.arrive (.lineFill c dev line data)
    (∀ k psn, (dev = s.fabric.self ∧ k = (mget? s.mem.keys line).getD noKey ∧ psn = 0) ∨
        (dev ≠ s.fabric.self ∧ ∃ r, findLine s.mem remoteCache dev line = some r ∧ k = r.key ∧ psn = r.psn) →
      ((c, dev, line) ∉ s.mem.fills → exec (.lineFill c dev line data) s = .next s0) ∧
      ((c, dev, line) ∈ s.mem.fills → ∃ t l, exec (.lineFill c dev line data) s = .next t ∧ l ∈ t.mem.clines ∧
        l.loc = c ∧ l.dev = dev ∧ l.line = line ∧ l.data = data ∧ l.dirty = 0 ∧ l.key = k ∧ l.psn = psn ∧
        t.mem.fills = s.mem.fills.erase (c, dev, line))) ∧
    (dev ≠ s.fabric.self → findLine s.mem remoteCache dev line = none → exec (.lineFill c dev line data) s =
      .next (s0.setMem { s.mem with fills := s.mem.fills.erase (c, dev, line) }))) ∧
  (∀ (s : State) (g : Nat), ∃ t, exec (.wsRefresh g) s = .next t ∧ mget t.mem.refresh g 0 = s.now + 13600 ∧
    t = s.setMem { s.mem with refresh := t.mem.refresh }) ∧
  (∀ (s : State) (line m agent : Nat), s.mem.peerWait = [] → s.sched.inbox = [] → s.mem.peerRecalls = [] →
    askedFault s (line * 64) = none → isPool (line * 64) = false → dirVictim s line = none →
    (mget? s.mem.peers line = none → lineBusy s (line * 64) true = none →
      ∃ t q, exec (.peerOwnershipRequest line m agent) s = .next t ∧ mget? t.mem.peers line = some ([], m + 1) ∧
        t.sched.inbox = [.routeHop q] ∧ q.response = true ∧ q.dst = m % 2 ^ 14 ∧
        q.pay = .lineData (ownLoc agent) line (lineBytes (s.heat (line * 64)) (line * 64)) (linePsn s (line * 64))
          (wireKey s ((mget? s.mem.keys line).getD noKey))) ∧
    (∀ own, mget? s.mem.peers line = some ([], own + 1) → ∃ t, exec (.peerOwnershipRequest line m agent) s = .next t ∧
      Requested t 2 own (line * 64) unitRouter 0 0 0 (.recall line) ∧ t.mem.peerWait = [(s.now, line, m, agent)] ∧
      t.mem.peerRecalls = [line] ∧ t.mem.recallOut = s.mem.recallOut ++ [(line, own)])) ∧
  (∀ (s : State) (line : Nat), s.mem.peerWait = [] →
    ((∃ x ∈ s.mem.recallOut, x.1 = line) → exec (.peerRecallDone line) s = .next s) ∧
    ((∀ x ∈ s.mem.recallOut, x.1 ≠ line) →
      (s.mem.peerRecalls = [line] → ∃ t, exec (.peerRecallDone line) s = .next t ∧
        t.mem.peers = mdel s.mem.peers line ∧ t.mem.peerRecalls = []) ∧
      (s.mem.peerRecalls = [] → exec (.peerRecallDone line) s = .next s))) ∧
  (∀ (s : State) (m : Nat), s.work.ordered = [] → ∃ t, exec (.peerLoss m) s = .next t ∧ t.mem.cells = s.mem.cells ∧
    (∀ x ∈ t.mem.peers, x.2.2 ≠ m + 1 ∧ m ∉ x.2.1) ∧ (∀ x ∈ t.mem.peerWait, x.2.2.1 ≠ m) ∧ m ∈ t.fabric.lost ∧
    (s.host.d2h.length < 1024 → t.host.d2h = s.host.d2h ++ [⟨w64 (0x83 * 2 ^ 56 + 4 * 2 ^ 48), w64 s.now, w64 m,
      w64 (s.mem.peers.filter (fun p => p.2.2 == m + 1)).length, 0, 0, 0, 0⟩]))

/-- Gang launch (R75 to R78): a module reserves or refuses; the initiator commits once every module has answered in time,
and starts the launch once every module has enqueued; a launch that fails is aborted before GCOMMIT and stopped after it;
a reservation that nobody claims is released and the host told. -/
def Obligations.GangLaunch : Prop :=
  (∀ (m : GangMsg) (s : State),
    (partClusters s m.part = [] → gprepReason s m = 2) ∧
    (partClusters s m.part ≠ [] → s.keyLive (s.keyOf (jobOfPart s m.part)) = false → gprepReason s m = 3) ∧
    (gprepReason s m = 0 → m.ntask ≤ queueRoom s m.part) ∧
    (gprepReason s m = 0 → ∃ t, exec (.gprep m) s = .next t ∧
      t.fabric.preps = s.fabric.preps ++ [⟨m.init, m.launch, m.part, m.ntask, m.desc, jobOfPart s m.part, 1, s.now⟩] ∧
      GangTold t m.init 2 (gangMsg s m.init m.launch m.part 0) ∧
      ⟨s.now + 340000, .orphanTimeout m.init m.launch⟩ ∈ t.sched.timers ∧ t.cores = s.cores ∧ t.mem = s.mem) ∧
    (gprepReason s m ≠ 0 → ∃ t, exec (.gprep m) s = .next t ∧ t.fabric = s.fabric ∧ t.cores = s.cores ∧ t.mem = s.mem ∧
      GangTold t m.init 3 (gangMsg s m.init m.launch m.part (gprepReason s m)))) ∧
  (∀ (m : GangMsg) (s : State),
    (s.gangOf m.launch = none → exec (.gpack m) s = .next (s.arrive (.gpack m)) ∧
      exec (.gpnak m) s = .next (s.arrive (.gpnak m)) ∧ exec (.gstart m) s = .next (s.arrive (.gstart m)) ∧
      exec (.gangPrepareTimeout m.launch) s = .next s ∧ exec (.gangStartTimeout m.launch) s = .next s) ∧
    (∀ g, s.gangOf m.launch = some g →
      (g.phase ≠ 0 ∨ g.ends ≤ s.now → exec (.gpack m) s = .next (s.arrive (.gpack m))) ∧
      (g.phase ≠ 1 ∨ g.ends ≤ s.now → exec (.gstart m) s = .next (s.arrive (.gstart m))) ∧
      (g.phase = 0 → s.now < g.ends → m.src ∉ g.ackd →
        ((∃ x ∈ g.mods, x.1 ∉ g.ackd ∧ x.1 ≠ m.src) → ∃ t, exec (.gpack m) s = .next t ∧
          t.gangOf m.launch = some { g with ackd := g.ackd ++ [m.src] } ∧ t.cores = s.cores ∧ t.mem = s.mem) ∧
        ((∀ x ∈ g.mods, x.1 ∈ g.ackd ∨ x.1 = m.src) → ∃ t, exec (.gpack m) s = .next t ∧
          t.gangOf m.launch = some { g with ackd := g.ackd ++ [m.src], phase := 1, ends := s.now + 85000 } ∧
          (∀ x ∈ g.mods, GangTold t x.1 4 (gangMsg s s.fabric.self g.launch g.part 0)) ∧
          ⟨s.now + 85000, .gangStartTimeout g.launch⟩ ∈ t.sched.timers ∧ t.cores = s.cores ∧ t.mem = s.mem)) ∧
      (g.phase = 1 → s.now < g.ends → m.src ∉ g.started →
        ((∃ x ∈ g.mods, x.1 ∉ g.started ∧ x.1 ≠ m.src) → ∃ t, exec (.gstart m) s = .next t ∧
          t.gangOf m.launch = some { g with started := g.started ++ [m.src] } ∧ t.cores = s.cores ∧ t.mem = s.mem) ∧
        ((∀ x ∈ g.mods, x.1 ∈ g.started ∨ x.1 = m.src) → ∃ t, exec (.gstart m) s = .next t ∧
          t.gangOf m.launch = none ∧ t.mem = s.mem ∧
          (s.forwarded g.id.core = g.id.core → g.d ≠ 0 → ((s.slotAt g.id).cell g.d).pend = true →
            (t.slotAt g.id).cell g.d = ⟨w64 (gangIndex g.launch), true, false⟩) ∧
          (∀ l, s.launchAt (gangIndex g.launch) = some l → l.ord = false →
            (∃ c, t.csweepOf (gangIndex g.launch) = some c ∧ c.sweeping = false ∧ c.accepted = true ∧ c.idles = 0) ∧
            .csweepStart (gangIndex g.launch) ∈ t.sched.inbox))) ∧
      (g.ends ≤ s.now → exec (.gpnak m) s = .next (s.arrive (.gpnak m))) ∧
      (s.now < g.ends → exec (.gpnak m) s =
        .next ((s.arrive (.gpnak m)).failGang g (if g.phase = 0 then m.reason else 8) m.src)) ∧
      (g.phase = 0 → exec (.gangPrepareTimeout m.launch) s =
        .next (s.failGang g 6 (((g.mods.find? (fun m => !g.ackd.contains m.1)).map (·.1)).getD 0))) ∧
      (g.phase = 1 → exec (.gangStartTimeout m.launch) s =
        .next (s.failGang g 7 (((g.mods.find? (fun m => !g.started.contains m.1)).map (·.1)).getD 0))))) ∧
  (∀ (s : State) (g : GangInit) (reason mod : Nat), ∃ x, GangFailed s x g reason mod ∧
    s.failGang g reason mod = if g.phase = 0 then x.endLaunch (gangIndex g.launch) 5 else x) ∧
  (∀ (m : GangMsg) (s : State),
    (s.prepOf m.init m.launch = none → (∃ t, exec (.gcommit m) s = .next t ∧ t.fabric = s.fabric ∧ t.cores = s.cores ∧
        GangTold t m.init 3 (gangMsg s m.init m.launch m.part 4)) ∧
      exec (.gabort m) s = .next (s.arrive (.gabort m)) ∧ exec (.gangTaskFetchDone m.init m.launch) s = .next s ∧
      exec (.orphanTimeout m.init m.launch) s = .next s) ∧
    (∀ p, s.prepOf m.init m.launch = some p →
      (p.st = 1 → s.now < p.at_ + 340000 → ∃ t, exec (.gcommit m) s = .next t ∧
        t.prepOf m.init m.launch = some { p with st := 2 } ∧ .gangTaskFetchDone m.init m.launch ∈ t.sched.inbox ∧
        (∀ x ∈ t.sched.timers, x.ev ≠ .orphanTimeout m.init m.launch) ∧ t.cores = s.cores ∧ t.mem = s.mem) ∧
      (p.st ≠ 1 ∨ p.at_ + 340000 ≤ s.now → ∃ t, exec (.gcommit m) s = .next t ∧ t.fabric = s.fabric ∧ t.cores = s.cores ∧
        GangTold t m.init 3 (gangMsg s m.init m.launch m.part 4)) ∧
      (p.st = 1 → ∃ t, exec (.gabort m) s = .next t ∧ t.prepOf m.init m.launch = none ∧ t.cores = s.cores ∧ t.mem = s.mem) ∧
      (p.st = 1 → ∃ t, exec (.orphanTimeout m.init m.launch) s = .next t ∧ t.prepOf m.init m.launch = none ∧
        (s.host.d2h.length < 1024 → t.host.d2h = s.host.d2h ++
          [⟨w64 (0x83 * 2 ^ 56 + 3 * 2 ^ 48), w64 s.now, m.launch, w64 (m.init * 2 ^ 32 + p.part * 2 ^ 16), 0, 0, 0, 0⟩])) ∧
      (p.st ≠ 1 → exec (.orphanTimeout m.init m.launch) s = .next s) ∧
      (p.st = 2 → ∀ l ps ts s1, readGang ⟨unitLaunch, p.job, true⟩ s.fabric.self p.desc s = .ok (l, ps, ts) s1 →
        (∀ x ∈ gangPackets ps ts (ts.length / 4), queueFull s1 (clusterOf x.2) = false) →
        ∃ t, exec (.gangTaskFetchDone m.init m.launch) s = .next t ∧ t.prepOf m.init m.launch = none ∧
          GangTold t m.init 5 (gangMsg t m.init m.launch p.part 0)) ∧
      (p.st = 2 → ∀ s1, readGang ⟨unitLaunch, p.job, true⟩ s.fabric.self p.desc s = .wait s1 →
        exec (.gangTaskFetchDone m.init m.launch) s = .next (s1.after 1 (.gangTaskFetchDone m.init m.launch))))) ∧
  (∀ (m : GangMsg) (s : State),
    (∀ l, s.launchAt (gangIndex m.launch) = some l → l.init ≠ m.init ∨ l.multi = false ∨ l.st ≠ 2) →
    ∃ t, exec (.gstop m) s = .next t ∧ t.prepOf m.init m.launch = none ∧ t.cores = s.cores ∧ t.work = s.work ∧
      t.mem = { s.mem with replay := s.mem.replay.filter (fun r => r.what != .gang m.init m.launch) }) ∧
  (∀ (m : GangMsg) (s : State) (l : Launch), s.launchAt (gangIndex m.launch) = some l → l.init = m.init → l.multi = true →
    l.st = 2 → ∃ x : State, x.prepOf m.init m.launch = none ∧ x.launchAt (gangIndex m.launch) = some l ∧ x.cores = s.cores ∧
      exec (.gstop m) s =
        .next (((((x.gangStop ⟨m.init, l.part, some (gangIndex m.launch), false⟩ none).cancelLaunch (gangIndex m.launch)).stopEnds
          ⟨m.init, l.part, some (gangIndex m.launch), false⟩).setLaunch (gangIndex m.launch)
            (fun l => { l with fail := true })).endLaunch (gangIndex m.launch) 5))

/-- The levee (R166 to R185): a sweep starts, reaches the clusters and dock groups, which report their old colour's counts;
reports are combined up to the root, which accepts a sweep whose counts agree and publishes the levee; a published levee
reaches the cores and commits. Completion sweeps do the same over modules for a plain launch (R448). -/
def Obligations.LeveeAndSweeps : Prop :=
  (∀ (part : Nat) (s : State),
    (∀ o, s.orderedOf part = some o → o.sweeping = true) → exec (.leveeSweepStart part) s = .next s) ∧
  (∀ (part : Nat) (s : State) (o : Ordered), s.orderedOf part = some o → o.sweeping = false →
    let colour := if o.accepted then !o.colour else o.colour
    let mods := (s.launchAt o.launch).elim [] Launch.modules
    ∃ t, exec (.leveeSweepStart part) s = .next t ∧ t.orderedOf part = some
        { o with sweeping := true, num := (o.num + 1) % 2 ^ 32, got := [], began := s.now, colour := colour } ∧
      LevelTold t part mods 1 .sweep
        { sweepMsg part ((o.num + 1) % 2 ^ 32) 0 with colour := colour, flip := o.accepted } ∧
      t.cores = s.cores ∧ t.mem = s.mem) ∧
  (∀ (m : SweepMsg) (s : State) (o : Ordered), s.orderedOf m.part = some o →
    (m.src = hubNode → ∃ t, exec (.sweep m) s = .next t ∧ t.orderedOf m.part = some
        { o with sweeping := true, num := m.num, got := [], colour := m.colour } ∧
      LevelTold t m.part ((s.launchAt o.launch).elim [] Launch.modules) 1 .sweep m ∧ t.cores = s.cores ∧ t.mem = s.mem) ∧
    (m.src = dockNode →
      let o' := if m.flip then { o with dockColour := m.colour, dockMin := 2 ^ 128 - 1 } else o
      ∃ t, exec (.sweep m) s = .next t ∧ t.orderedOf m.part = some o' ∧
        ReportSent t dockNode { m with
          colour := !o'.dockColour, idle := true, sent := countOf o'.dockSent (!o'.dockColour),
          recv := countOf o'.dockRecv (!o'.dockColour), key := BitVec.ofNat 128 o'.dockMin } ∧
        t.cores = s.cores ∧ t.mem = s.mem) ∧
    (m.src ≠ hubNode → m.src ≠ dockNode →
      let c := s.cluster m.src
      let c' := if m.flip then { c with colour := m.colour, minSent := 2 ^ 128 - 1 } else c
      ∃ t, exec (.sweep m) s = .next t ∧ t.cluster m.src = c' ∧
        ReportSent t m.src { m with
          colour := !c'.colour, idle := clusterIdle s m.src o.launch, sent := countOf c.sent (!c'.colour),
          recv := countOf c.recv (!c'.colour),
          key := BitVec.ofNat 128 ((liveKeys s m.src o.launch).foldl min (min c'.minSent (2 ^ 128 - 1))) } ∧
        t.cores = s.cores ∧ t.mem = s.mem)) ∧
  (∀ (m : SweepMsg) (s : State) (o : Ordered), s.orderedOf m.part = some o →
    (o.sweeping = false ∨ m.num ≠ o.num ∨ (∃ g ∈ o.got, g.src = m.src) →
      exec (.report m) s = .next (s.arrive (.report m))) ∧
    (o.sweeping = true → m.num = o.num → (∀ g ∈ o.got, g.src ≠ m.src) →
      ((∃ n ∈ partClusters s m.part ++ [dockNode], ∀ g ∈ o.got ++ [m], g.src ≠ n) → ∃ t, exec (.report m) s = .next t ∧
        t.orderedOf m.part = some { o with got := o.got ++ [m] } ∧ t.cores = s.cores ∧ t.mem = s.mem) ∧
      ((∀ n ∈ partClusters s m.part ++ [dockNode], ∃ g ∈ o.got ++ [m], g.src = n) →
        (∀ l, s.launchAt o.launch = some l → l.init ≠ s.fabric.self → ∃ t, exec (.report m) s = .next t ∧
          t.orderedOf m.part = some { o with sweeping := false, got := [] } ∧
          Requested t 1 l.init 0 unitLaunch 0 m.part o.launch
            (.sweep 2 { combine m.part o.num (o.got ++ [m]) with src := moduleNode s.fabric.self })) ∧
        (∀ l, s.launchAt o.launch = some l → l.init = s.fabric.self → (∀ x ∈ l.modules, x = s.fabric.self) →
          let r := combine m.part o.num (o.got ++ [m])
          let levee := max o.levee r.key.toNat
          (r.sent ≠ r.recv → ∃ t, exec (.report m) s = .next t ∧ t.orderedOf m.part = some
              { o with sweeping := false, accepted := false, idles := 0, got := [] } ∧
            (∃ x ∈ t.sched.timers, x.ev = .leveeSweepStart m.part)) ∧
          let idles := if r.idle then o.idles + 1 else 0
          (r.sent = r.recv → r.idle = false ∨ o.idles = 0 → ∃ t, exec (.report m) s = .next t ∧
            t.orderedOf m.part = some
              { o with sweeping := false, accepted := true, idles := idles, levee := levee, got := [] } ∧
            LevelTold t m.part [] 3 .levpub { sweepMsg m.part o.num 0 with key := BitVec.ofNat 128 levee }) ∧
          (r.sent = r.recv → r.idle = true → o.idles ≠ 0 → ∃ x : State, x.launchAt o.launch = some l ∧
            exec (.report m) s = .next (x.endLaunch o.launch (if l.cancelled then 4 else if l.fail then 5 else 3))))))) ∧
  (∀ (m : SweepMsg) (s : State) (o : Ordered), s.orderedOf m.part = some o →
    (m.src = hubNode → ∃ t, exec (.levpub m) s = .next t ∧
      LevelTold t m.part ((s.launchAt o.launch).elim [] Launch.modules) 3 .levpub m ∧ t.cores = s.cores ∧ t.mem = s.mem) ∧
    (m.src = dockNode → ∃ x : State, x.orderedOf m.part = some { o with dockLevee := some m.key.toNat } ∧
      x.cores = s.cores ∧ x.mem = s.mem ∧ exec (.levpub m) s = .next x.deliverHeld) ∧
    (m.src ≠ hubNode → m.src ≠ dockNode →
      (∀ n, n < 16 → ∀ e ∈ heldBelow (s.coreAt (clusterCore m.src n)) m.key.toNat,
        e.2.st ≠ .committing ∧ partStopped s (s.partOf (packetLaunch e.2.pkt)) = true) →
      ∃ x : State, exec (.levpub m) s = .next x.deliverHeld ∧ x.mem = s.mem ∧
        ∀ n, n < 16 → (x.coreAt (clusterCore m.src n)).levee = some m.key.toNat)) ∧
  (∀ (s : State) (k y : Nat) (e : SpecEnt), let t := s.commitRest k y e
    mget? (t.coreAt k).spec y = none ∧ ∀ x ∈ (t.coreAt k).log, x.spec ≠ y) ∧
  (∀ (i : Nat) (s : State) (c : CSweep) (l : Launch), s.csweepOf i = some c → s.launchAt i = some l →
    (c.sweeping = true → exec (.csweepStart i) s = .next s) ∧
    (c.sweeping = false →
      let c1 := { c with sweeping := true, num := (c.num + 1) % 2 ^ 32, got := [], began := s.now,
                         colour := if c.accepted then !c.colour else c.colour }
      let m : SweepMsg := { sweepMsg l.part c1.num s.fabric.self with
        colour := c1.colour, flip := c.accepted, key := BitVec.ofNat 128 i }
      ∃ t, exec (.csweepStart i) s = .next t ∧ t.csweepOf i = some c1 ∧
        ∀ mo ∈ l.modules, (mo = s.fabric.self → (⟨2 ^ 24 + unitLaunch, 2 ^ 28, .csweep m⟩ : Flight) ∈ t.sched.net) ∧
          (mo ≠ s.fabric.self → Requested t 1 mo 0 unitLaunch 0 l.part i (.sweep 4 m)))) ∧
  (∀ (m : SweepMsg) (s : State),
    (sweptLaunch s m.src m.key.toNat = none → ∃ t, exec (.csweep m) s = .next t ∧
      AnswerSent t m.src { m with colour := !m.colour, idle := true } ∧ t.work = s.work ∧ t.cores = s.cores) ∧
    (∀ i l, sweptLaunch s m.src m.key.toNat = some i → s.launchAt i = some l →
      let colour := if m.flip then m.colour else l.colour
      ∃ t, exec (.csweep m) s = .next t ∧ t.launchAt i = some { l with colour := colour } ∧
        AnswerSent t m.src { m with colour := !colour, idle := decide (l.count = 0), fail := l.fail,
                                    sent := countOf l.sent (!colour), recv := countOf l.recv (!colour) })) ∧
  (∀ (m : SweepMsg) (s : State) (c : CSweep) (l : Launch), s.csweepOf m.key.toNat = some c →
    s.launchAt m.key.toNat = some l →
    (c.sweeping = false ∨ m.num ≠ c.num ∨ (∃ g ∈ c.got, g.src = m.src) →
      exec (.creport m) s = .next (s.arrive (.creport m))) ∧
    (c.sweeping = true → m.num = c.num → (∀ g ∈ c.got, g.src ≠ m.src) →
      ((∃ mo ∈ l.modules, ∀ g ∈ c.got ++ [m], g.src ≠ moduleNode mo) → ∃ t, exec (.creport m) s = .next t ∧
        t.csweepOf m.key.toNat = some { c with got := c.got ++ [m] }) ∧
      ((∀ mo ∈ l.modules, ∃ g ∈ c.got ++ [m], g.src = moduleNode mo) →
        let r := combine m.part c.num (c.got ++ [m])
        let idles := if r.sent = r.recv ∧ r.idle = true then c.idles + 1 else 0
        (r.sent ≠ r.recv ∨ r.idle = false ∨ c.idles = 0 → ∃ t, exec (.creport m) s = .next t ∧
          t.csweepOf m.key.toNat = some
            { c with sweeping := false, accepted := decide (r.sent = r.recv), idles := idles, got := [] } ∧
          ⟨s.now + (c.began + 27200 - s.now), .csweepStart m.key.toNat⟩ ∈ t.sched.timers) ∧
        (r.sent = r.recv → r.idle = true → c.idles ≠ 0 → ∃ x : State, x.csweepOf m.key.toNat = none ∧
          x.launchAt m.key.toNat = some l ∧ exec (.creport m) s = .next (x.endLaunch m.key.toNat
            (if l.cancelled then 4 else if l.fail || r.fail then 5 else 3)))))) ∧
  (∀ (k : Nat) (vs : List Nat) (s : State),
    ((∀ y ∈ vs, mget? (s.coreAt k).spec y = none) → exec (.rollBack k vs) s = .next s) ∧
    (∀ y, vs = [y] → mget? (s.coreAt k).spec y ≠ none → closure (s.coreAt k) 48 [y] = [y] →
      (∀ m ∈ (s.coreAt k).mx, m.ord = false) →
      (∀ x ∈ (s.cluster (clusterOf k)).copies, x.2.core = k → x.2.ord = false) →
      ∃ t, exec (.rollBack k vs) s = .next t ∧ mget? (t.coreAt k).spec y = none)) ∧
  (∀ (s : State) (k y : Nat) (e : SpecEnt) (l : Launch), s.launchAt (packetLaunch e.pkt) = some l →
    e.annihilated = false → l.cancelled = false → ∃ q : QTask, q.pkt = e.pkt ∧ q.enq = e.enq ∧ q.st = .waitw ∧
      (q ∈ ((s.requeue k y e).cluster (clusterOf k)).queue ∨ q ∈ ((s.requeue k y e).cluster (clusterOf k)).ring)) ∧
  (∀ (s : State) (k row : Nat) (image : List Byte) (fe psn : Bool), image.length = 64 → row < 1024 →
    Memory.wf s.mem.cells = true → let t := s.restoreRow k row image fe psn
    bytesAt t.mem.cells (scrPa k (64 * row)) 64 = image ∧ ((t.coreAt k).row row).poison = psn) ∧
  (∀ (cl : Nat) (colour : Bool) (hdr : Words8) (s : State), bit hdr.w2.toNat 58 = false →
    (∀ q, ((s.cluster cl).queue ++ (s.cluster cl).ring).find? (isPositive hdr) = some q → q.st = .waitw →
      ∃ t, exec (.antiMessageArrival cl colour hdr) s = .next t ∧
        (∀ x ∈ (t.cluster cl).queue ++ (t.cluster cl).ring, x.id ≠ q.id) ∧ .overflowReturn cl ∈ t.sched.inbox ∧
        t.cores = s.cores ∧ t.mem = { s.mem with waiters := t.mem.waiters }) ∧
    (((s.cluster cl).queue ++ (s.cluster cl).ring).find? (isPositive hdr) = none →
      (∀ k y e, runningPositive s cl hdr = some (k, y) → mget? (s.coreAt k).spec y = some e →
        ∃ t, exec (.antiMessageArrival cl colour hdr) s = .next t ∧
          mget? (t.coreAt k).spec y = some { e with annihilated := true } ∧ .rollBack k [y] ∈ t.sched.inbox ∧
          t.mem = s.mem) ∧
      (runningPositive s cl hdr = none → queueFull s cl = true → ∃ t, exec (.antiMessageArrival cl colour hdr) s = .next t ∧
        (t.cluster cl).blocked = (s.cluster cl).blocked ++ [(⟨2 ^ 20, 0⟩, colour, hdr)] ∧ t.cores = s.cores) ∧
      (runningPositive s cl hdr = none → queueFull s cl = false → ∃ t q, exec (.antiMessageArrival cl colour hdr) s = .next t ∧
        q.st = .anti ∧ q.pkt = { hdr with w2 := hdr.w2 &&& ~~~(w64 (2 ^ 57)) } ∧ t.cores = s.cores ∧
        (q ∈ (t.cluster cl).queue ∨ q ∈ (t.cluster cl).ring))))

/-- LEASE, LEASEREL and LEASEQ have the results of R33 to R36 and R50; the sluice answers its neighbours' messages, and
its lanes move as R31, R35 to R38 and R42 to R47 say. -/
def Obligations.SluiceLeasesAndLanes : Prop :=
  (∀ d l, d < 8 → l < 64 → laneSlot d l < 512 ∧ slotLane (laneSlot d l) = l ∧ fedDir (laneSlot d l) = d ∧
    feedingDir (laneSlot d l) = opposite d) ∧
  (∀ (type : Nat) (m : SluiceMsg), type < 16 → m.count < 128 → m.modid < 2 ^ 14 → m.term < 2 ^ 16 → m.gen < 2 ^ 16 →
    m.reason < 256 → ∀ w0 w1 w2 w3, packSluice type m = (w0, w1, w2, w3) → unpackSluice w0 w1 w2 w3 = (type, m) ∧
      bits w0.toNat 63 60 = type ∧ bits w0.toNat 27 0 = 0 ∧ w1 = m.mask ∧ bits w2.toNat 23 0 = 0 ∧ w3 = 0) ∧
  (∀ (o : OpsDA) (s : State), Ready s (daDemand o) →
    (s.part ≠ .ny7740 → exec (.lease o) s = .next (s.raise s.sched.cur (s.trapHere trapAbsent 0)) ∧
      exec (.leaserel o) s = .next (s.raise s.sched.cur (s.trapHere trapAbsent 0))) ∧
    (ownModule s → s.forwarded s.here = s.here → ∃ t, exec (.leaseq o) s = .next t ∧ Wrote s t (daDemand o) o.d.toNat false
      (if (s.vals (daDemand o)).a.getLsbD 63 then laneImage s (leaseDir s o) (bits (s.vals (daDemand o)).a.toNat 13 8)
       else sldirImage s (leaseDir s o)))) ∧
  (∀ (o : OpsDA) (s : State), LeaseReady s o →
    let d := leaseDir s o
    let x := s.dir d
    let tg := leaseTarget s o
    let part := s.partOf s.me.task.launch
    let m := daDemand o
    let word (st count : Nat) : Word := leaseWord st count x.gen.toNat d
    let answers (st count : Nat) : Prop := ∃ t, exec (.lease o) s = .next t ∧ Wrote s t m o.d.toNat false (word st count)
    let need := tg - x.count
    let starved := 4 ≤ x.refuse ∧ s.fabric.starve = true
    let lack := txUsed s + need - drainingTx s - 256
    (x.pend.isSome = true ∨ x.waiting ≠ [] → ∃ t, exec (.lease o) s = .next t ∧ t.dir d =
      { x with waiting := x.waiting ++ [⟨s.sched.cur, o.d.toNat, (s.vals m).a, part, s.me.task.job⟩] }) ∧
    (x.pend = none → x.waiting = [] →
      (s.fabric.frozen = true → answers 6 x.count) ∧
      (s.fabric.frozen = false → leaseBad s o → answers 5 x.count) ∧
      (s.fabric.frozen = false → ¬leaseBad s o →
        (x.present = false → answers 4 x.count) ∧
        (x.present = true → (∃ l, x.lease = some l ∧ l.part ≠ part) → answers 3 x.count) ∧
        (x.present = true → (∀ l, x.lease = some l → l.part = part) →
          (tg ≤ x.count → ∃ t gen, exec (.lease o) s = .next t ∧ (t.dir d).lease =
              some ⟨part, s.me.task.job, (s.now / 27200 + leaseTerm s o) * 27200⟩ ∧ (t.dir d).lstate = 1 ∧
            (t.dir d).refuse = 0 ∧ (t.dir d).gen = gen ∧ gen = (if x.lease = none then x.gen + 1 else x.gen) ∧
            (o.d ≠ 0 → t.me.cell o.d.toNat = ⟨leaseWord 0 (min tg (staying x.tx)) gen.toNat d, true, false⟩) ∧
            ⟨s.now + ((s.now / 27200 + leaseTerm s o) * 27200 - s.now), .leaseExpiry d⟩ ∈ t.sched.timers) ∧
          (x.count < tg → (darkLanes x.tx need).length = need → txUsed s + need ≤ 256 →
            ∃ t p, exec (.lease o) s = .next t ∧ (t.dir d).pend = some p ∧ p.sent = true ∧
            p.msg = { sluiceMsg s d need (maskOf (darkLanes x.tx need)) (if starved then 3 else 0) with term := leaseTerm s o } ∧
            p.asker = some (s.sched.cur, o.d.toNat) ∧ p.target = tg ∧ p.starve = false ∧
            (x.lit = true → sluiceFlit d 1 p.msg ∈ t.sched.out) ∧ ⟨s.now + 34000, .lgreqTimeout d⟩ ∈ t.sched.timers ∧
            ((∀ e, e ≠ d → (s.dir e).pend = none) → o.d ≠ 0 → (t.me.cell o.d.toNat).pend = true)) ∧
          (x.count < tg → (darkLanes x.tx need).length < need ∨ 256 < txUsed s + need →
            (¬starved → ∃ t, exec (.lease o) s = .next t ∧ t.dir d = { x with refuse := min 4 (x.refuse + 1) } ∧
              (o.d ≠ 0 → t.me.cell o.d.toNat = ⟨word 1 x.count, true, false⟩)) ∧
            (starved → (darkLanes x.tx need).length < need ∨ spareTx s d < lack → answers 9 x.count) ∧
            (starved → (darkLanes x.tx need).length = need → lack ≤ spareTx s d → ∃ t p, exec (.lease o) s = .next t ∧
              (t.dir d).pend = some p ∧ p.starve = true ∧ p.target = tg)))))) ∧
  (∀ (o : OpsDA) (s : State), LeaseReady s o →
    let h := (s.vals (daDemand o)).a.toNat % 2 ^ 32
    let d := h % 8
    let x := s.dir d
    let active := ∃ l, x.lease = some l ∧ l.part = s.partOf s.me.task.launch
    (active → h = x.handle d → ∃ t, exec (.leaserel o) s = .next t ∧ (t.dir d).lease = none ∧ (t.dir d).lstate =
        (if (t.dir d).pend = none ∧ (t.dir d).count = staying (t.dir d).tx ∧ ((t.dir d).count = 32 ∨
          (t.dir d).count = soundLanes (t.dir d).tx ∨ (t.dir d).present = false) then 0 else 2) ∧
      (o.d ≠ 0 → t.me.cell o.d.toNat = ⟨leaseWord 0x0B 32 x.gen.toNat d, true, false⟩)) ∧
    (¬active ∨ h ≠ x.handle d → ∃ t, exec (.leaserel o) s = .next t ∧
      Wrote s t (daDemand o) o.d.toNat false (leaseWord 0x0A x.count x.gen.toNat d))) ∧
  (∀ (m : SluiceMsg) (s : State), let d := arrivedOn m
    let x := s.dir d
    let used := rxUsed s + rxAsked s
    let sound := ∀ l ∈ maskLanes m.mask, lane x.rx l ≠ 5
    let refused := exec (.lgreq m) s = .next (s.sluiceReply d 3 (sluiceMsg s d (256 - used) 0 0) m.seq)
    (m.reason ≠ 1 → m.reason ≠ 2 →
      (sound → m.count + used ≤ 256 → s.fabric.grantq = [] →
        ((∀ l ∈ maskLanes m.mask, lane x.rx l = 0) → ∃ t, exec (.lgreq m) s = .next t ∧
          (∀ l ∈ maskLanes m.mask, lane (t.dir d).rx l = 1 ∧ .rxTune d l ∈ t.sched.inbox) ∧
          (x.lit = true → sluiceFlit d 2 { sluiceMsg s d m.count m.mask m.reason with seq := m.seq } ∈ t.sched.out)) ∧
        ((∃ l ∈ maskLanes m.mask, lane x.rx l ≠ 0) →
          exec (.lgreq m) s = .next (s.setFabric { s.fabric with grantq := [⟨d, m, false⟩] }))) ∧
      (¬sound → refused) ∧
      (sound → 256 < m.count + used → used ≤ 256 → m.reason ≠ 3 ∨ s.fabric.starve = false ∨
        spareRx s d < m.count + used - 256 - rxFreeing s → refused) ∧
      (sound → 256 < m.count + used → used ≤ 256 → m.reason = 3 → s.fabric.starve = true →
        m.count + used - 256 - rxFreeing s ≤ spareRx s d →
        exec (.lgreq m) s = .next (s.setFabric { s.fabric with grantq := s.fabric.grantq ++ [⟨d, m, true⟩] }).serveRx)) ∧
    (m.reason = 1 ∨ m.reason = 2 → x.rxSeq ≠ some m.seq →
      ((∃ g ∈ s.fabric.grantq, g.dir = d ∧ g.msg.seq = m.seq) → exec (.lgreq m) s = .next s) ∧
      ((∀ g ∈ s.fabric.grantq, ¬(g.dir = d ∧ g.msg.seq = m.seq)) → exec (.lgreq m) s =
        let good := (maskLanes m.mask).filter (fun l => lane x.rx l != 5)
        .next (s.setFabric { s.fabric with
          grantq := s.fabric.grantq ++ [⟨d, { m with mask := maskOf good, count := good.length }, false⟩] }).serveRx))) ∧
  (∀ (m : SluiceMsg) (s : State), let d := arrivedOn m
    let x := s.dir d
    let dark := (maskLanes m.mask).filter (fun l => lane x.tx l == 0)
    let late := exec (.lgack m) s =
      .next (if dark = [] then s else s.sluiceReply d 4 (sluiceMsg s d dark.length (maskOf dark) 0) m.seq)
    (x.pend = none → late ∧ exec (.lgnak m) s = .next s ∧ (x.waiting = [] → exec (.lgreqTimeout d) s = .next s) ∧
      exec (.reversionResend d) s = .next s) ∧
    (∀ p, x.pend = some p → p.sent = false ∨ p.msg.seq ≠ m.seq → late ∧ exec (.lgnak m) s = .next s) ∧
    (∀ p id r, x.pend = some p → p.sent = true → p.msg.seq = m.seq → p.asker = some (id, r) → x.waiting = [] →
      (∃ t gen, exec (.lgack m) s = .next t ∧ (t.dir d).pend = none ∧ (t.dir d).gen = gen ∧
        (∀ l ∈ dark, lane (t.dir d).tx l = 1 ∧ .tuneBegin d l ∈ t.sched.inbox) ∧
        (t.dir d).lease = some ⟨p.part, p.job, (s.now / 27200 + p.term) * 27200⟩ ∧ (t.dir d).lstate = 1 ∧
        gen = (if x.lease.any (fun l => l.part == p.part) then x.gen else x.gen + 1) ∧
        LeaseAnswered s t p.asker
          (leaseWord (if p.starve = true ∨ m.reason = 3 then 8 else 0) (t.dir d).count gen.toNat d)) ∧
      (∃ t, exec (.lgnak m) s = .next t ∧ (x.lstate ≠ 2 → x.lstate ≠ 3 → t.dir d =
          { x with pend := none, refuse := if p.msg.reason = 3 then x.refuse else min 4 (x.refuse + 1) }) ∧
        LeaseAnswered s t p.asker (leaseWord (if p.msg.reason = 3 then 9 else 2) x.count x.gen.toNat d)) ∧
      (34000 ≤ s.now - p.at_ → ∃ t, exec (.lgreqTimeout d) s = .next t ∧
        (x.lstate ≠ 2 → x.lstate ≠ 3 → t.dir d = { x with pend := none }) ∧
        LeaseAnswered s t p.asker (leaseWord 7 x.count x.gen.toNat d))) ∧
    (∀ p, x.pend = some p → p.asker = none → exec (.lgreqTimeout d) s = .next s ∧ exec (.lgnak m) s = .next s ∧
      (p.sent = true → x.present = true → 34000 ≤ s.now - p.at_ → ∃ t, exec (.reversionResend d) s = .next t ∧
        (t.dir d).pend = some { p with at_ := s.now } ∧
        (x.lit = true → t.sched.out = s.sched.out ++ [sluiceFlit d 1 p.msg]) ∧
        ⟨s.now + 34000, .reversionResend d⟩ ∈ t.sched.timers))) ∧
  (∀ (m next : SluiceMsg) (s : State), let d := arrivedOn m
    let x := s.dir d
    (s.fabric.grantq = [] → ∃ t, exec (.lshrink m) s = .next t ∧ (t.dir d).tx = x.tx ∧ ∀ l ∈ maskLanes m.mask,
      (m.reason = 4 → lane (t.dir d).rx l = 5) ∧
      (m.reason ≠ 4 → (lane x.rx l = 3 → lane (t.dir d).rx l = 4 ∧
          (⟨2 ^ 23 + 8 + d, l, .drainDone d (64 + l)⟩ : Flight) ∈ t.sched.net) ∧
        (lane x.rx l = 1 ∨ lane x.rx l = 2 → lane (t.dir d).rx l = 0) ∧
        (lane x.rx l = 0 ∨ 3 < lane x.rx l → lane (t.dir d).rx l = lane x.rx l))) ∧
    exec (.lrecall m) s =
      .next ((s.releaseLanes d (x.shrinkSet (min m.count (staying x.tx - 4))) 3 (some m.seq)).revoke d) ∧
    (∃ t, exec (.lswap m next) s = .next t ∧
      (∀ l ∈ maskLanes next.mask, lane x.rx l = 0 → lane (t.dir d).rx l = 1 ∧ .rxTune d l ∈ t.sched.inbox) ∧
      (∀ l ∈ maskLanes m.mask, l ∉ maskLanes next.mask → lane (t.dir d).rx l = 5) ∧ (t.dir d).tx = x.tx) ∧
    (∃ t, exec (.llit m) s = .next t ∧ (t.dir d).rx = x.rx ∧
      (∀ l ∈ maskLanes m.mask, lane x.tx l = 2 → mget (t.dir d).litAt l 0 = s.now) ∧
      ∀ l, lane (t.dir d).tx l = if l ∈ maskLanes m.mask ∧ lane x.tx l = 2 then 3 else lane x.tx l) ∧
    exec (.lalive m) s = .next ((s.setDir d { x with lastAlive := s.now }).after 17000 (.directionDown d)) ∧
    (∃ t, exec (.sluiceBadType m) s = .next t ∧ mget t.agents.counters errSluice 0 = mget s.agents.counters errSluice 0 + 1 ∧
      t.fabric = s.fabric)) ∧
  (∀ (s : State) (d l reason : Nat), let x := s.dir d
    let t := s.releaseLanes d [l] reason none
    lane (t.dir d).tx l = (if lane x.tx l = 3 then 4 else 0) ∧
    ((t.dir d).lit = true → sluiceFlit d 4 (sluiceMsg s d 1 (maskOf [l]) reason) ∈ t.sched.out) ∧
    (lane x.tx l = 3 → ⟨s.now + 1700, .drainTimeout d l⟩ ∈ t.sched.timers ∧
      ((∀ k ∈ x.link, k.lane ≠ l) → .drainDone d l ∈ t.sched.inbox))) ∧
  (∀ (s : State) (d : Nat) (l : Lease), (s.dir d).lease = some l → let t := s.revoke d
    t.dir d = { s.dir d with lease := none, lstate := 3 } ∧ (s.host.d2h.length < 1024 → t.host.d2h = s.host.d2h ++
      [⟨msgHead 0x83 1 l.job 0, w64 s.now, w64 (l.part * 2 ^ 48 + d), w64 ((s.dir d).handle d), w64 (staying (s.dir d).tx),
        0, 0, 0⟩])) ∧
  (∀ s : State, ∃ t, exec .laliveSend s = .next t ∧ ∀ d, d < 8 → (s.dir d).present = true →
    ⟨s.now + 6800, .laliveSend⟩ ∈ t.sched.timers ∧
    ((s.dir d).lit = true → sluiceFlit d 9 (sluiceMsg s d 0 0 0) ∈ t.sched.out)) ∧
  (∀ (s : State) (d : Nat),
    ((∀ l, (s.dir d).lease = some l → s.now < l.expiry) → exec (.leaseExpiry d) s = .next s) ∧
    (∀ l, (s.dir d).lease = some l → l.expiry ≤ s.now →
      ∃ t, exec (.leaseExpiry d) s = .next t ∧ (t.dir d).lease = none ∧ (t.dir d).lstate =
        (if (t.dir d).pend = none ∧ (t.dir d).count = staying (t.dir d).tx ∧ ((t.dir d).count = 32 ∨
          (t.dir d).count = soundLanes (t.dir d).tx ∨ (t.dir d).present = false) then 0 else 2))) ∧
  (∀ (s : State) (d l : Nat), let x := s.dir d
    (lane x.tx l ≠ 2 → exec (.retuneTimeout d l) s = .next s) ∧
    (lane x.tx l = 2 → exec (.retuneTimeout d l) s = .next (s.failLane d l true)) ∧
    (lane x.tx l ≠ 4 → exec (.drainTimeout d l) s = .next s) ∧
    (lane x.tx l = 4 → exec (.drainTimeout d l) s = .next (s.failLane d l false)) ∧
    (l < 64 → lane x.tx l = 3 ∨ lane x.tx l = 2 → exec (.laneFailure d l) s = .next (s.failLane d l true)) ∧
    (∃ t, exec (.laneFailure d (64 + l)) s = .next t ∧ lane (t.dir d).rx l = 5 ∧ (t.dir d).tx = x.tx ∧
      (1 ≤ lane x.rx l → lane x.rx l ≤ 3 → l ∈ (t.dir d).owed)) ∧
    (lane x.tx l ≠ 0 →
      (∀ replace, lane ((s.failLane d l replace).dir d).tx l = 5) ∧
      (∀ n e, x.spare = some n → e ≠ l → lane x.tx e = 3 → let t := s.failLane d l true
        lane (t.dir d).tx n = 2 ∧ sluiceFlit d 6 (sluiceMsg s d 1 (maskOf [l]) 4) ∈ t.sched.out ∧
        sluiceFlit d 6 { sluiceMsg s d 1 (maskOf [n]) 4 with seq := x.seq + 1 } ∈ t.sched.out)) ∧
    (l < 64 → lane x.tx l ≠ 4 ∨ (∃ k ∈ x.link, k.lane = l) → exec (.drainDone d l) s = .next s) ∧
    (l < 64 → lane x.tx l = 4 → (∀ k ∈ x.link, k.lane ≠ l) → x.lstate ≠ 2 → x.lstate ≠ 3 →
      ∃ t, exec (.drainDone d l) s = .next t ∧ lane (t.dir d).tx l = 0) ∧
    (lane x.rx l = 4 → s.fabric.grantq = [] → ∃ t, exec (.drainDone d (64 + l)) s = .next t ∧
      lane (t.dir d).rx l = 0) ∧
    (l < 64 → lane x.tx l = 5 → ∃ t, exec (.slotClear d l) s = .next t ∧ lane (t.dir d).tx l = 0 ∧
      mget t.mgmt.counters (lifeOptical + laneSlot d l * 16 + 15) 0 =
        min (mget s.mgmt.counters (lifeOptical + laneSlot d l * 16 + 15) 0 + 1) (2 ^ 40 - 1)) ∧
    (lane x.rx l = 5 → ∃ t, exec (.slotClear d (64 + l)) s = .next t ∧ lane (t.dir d).rx l = 0) ∧
    (l < 64 → lane x.tx l ≠ 5 → exec (.slotClear d l) s = .next s)) ∧
  (∀ (s : State) (d m : Nat), let x := s.dir d
    let n := min 32 (min (256 - txUsed s) (256 - rxUsed s))
    (7 < d ∨ x.present = true → exec (.directionTrained d m) s = .next s) ∧
    (s.part ≠ .ny7740 → d ≤ 1 → x.present = false → ∃ t, exec (.directionTrained d m) s = .next t ∧
      (t.dir d).present = true ∧ (t.dir d).modid = m ∧ (t.dir d).tx = x.tx) ∧
    (s.part = .ny7740 → d ≤ 7 → x.present = false →
      (n < 4 → ∃ t, exec (.directionTrained d m) s = .next t ∧ t.fabric = s.fabric ∧
        ⟨s.now + 1700, .directionTrained d m⟩ ∈ t.sched.timers) ∧
      (4 ≤ n → ∃ t, exec (.directionTrained d m) s = .next t ∧ (t.dir d).present = true ∧ (t.dir d).modid = m ∧
        (t.dir d).tx = lightLanes x.tx n ∧ (t.dir d).rx = lightLanes x.rx n ∧ (t.dir d).lastAlive = s.now ∧
        (t.dir d).lease = x.lease ∧ ⟨s.now + 17000, .directionDown d⟩ ∈ t.sched.timers ∧
        ((∀ y ∈ s.sched.timers, y.ev ≠ .laliveSend) → ⟨s.now + 6800, .laliveSend⟩ ∈ t.sched.timers))) ∧
    (x.present = false ∨ (s.part = .ny7740 ∧ (x.dark = 0 ∨ s.now + 1 - x.dark < 17000) ∧ s.now - x.lastAlive < 17000) →
      exec (.directionDown d) s = .next s) ∧
    (x.present = true → 17000 ≤ s.now - x.lastAlive ∨ (x.dark ≠ 0 ∧ 17000 ≤ s.now + 1 - x.dark) → x.waiting = [] →
      ∃ t, exec (.directionDown d) s = .next t ∧
      (t.dir d).present = false ∧ (t.dir d).pend = x.pend.filter (fun p => p.sent && p.asker.isSome) ∧
      (t.dir d).tx = x.tx.filter (fun y => y.2 == 5) ∧ (t.dir d).rx = x.rx.filter (fun y => y.2 == 5) ∧
      (t.dir d).lease = x.lease ∧
      LeaseAnswered s t ((x.pend.filter (fun p => !p.sent)).bind (fun p => p.asker)) (leaseWord 4 0 x.gen.toNat d) ∧
      (s.host.d2h.length < 1024 → t.host.d2h = s.host.d2h ++
        [⟨w64 (0x83 * 2 ^ 56 + 5 * 2 ^ 48), w64 s.now, w64 d, w64 x.modid, 0, 0, 0, 0⟩])))

/-- A matrix stream runs its commands by its core's array cycles (R238 to R243): a command waits for its stamp, runs one
offset a cycle, and ends on its last; MMA, MMAZ, MMST, MMLD, MMZ, MMSIG and MMEND have their effects (R246 to R249, R374,
R377 to R381); what misses its schedule, and what is no command, ends the stream with its token; a PORT loss ends it with
cause PORT at any offset and leaves the tiles, the rows and their tags as they are (R242, R379). -/
def Obligations.MatrixStreams : Prop :=
  (∀ (s : State) (m : MxStream) (a : Nat) (st : BitVec 26), m.stop = false →
    let k := s.sched.cur.core
    let id : SlotId := ⟨k, m.slot⟩
    let sl := s.slotAt id
    let done (i : Instr) (x : State) (y : MxStream) : Prop := exec i s =
      .next (x.setMx k { y with idx := m.idx + 1, free := a + 1, off := none, got := [], pause := none })
    (MxTurn s m a st (plainCmd none) 0 → done (.mmnop st) s m ∧ ∀ val : BitVec 12,
      (sl.toks0.length + sl.streams0 < 4 → done (.mmsig st val) (s.setSlot id
        { sl with toks0 := sl.toks0 ++ [(tokenWord m.tag m.idx val.toNat 0 0 false true false false false, 0)] }) m) ∧
      (4 ≤ sl.toks0.length + sl.streams0 → done (.mmsig st val) s { m with ovf := true })) ∧
    (∀ tile : BitVec 2, MxTurn s m a st (plainCmd (some tile.toNat)) 0 →
      done (.mmz st tile) (s.setArray k ((s.arrayAt k).zeroTile tile.toNat)) m) ∧
    (∀ o c, MxTurn s m a st (mmaCmd s k m o) c → c + 1 = (mmaCmd s k m o).dur → let y := mxSeen s m (mmaCmd s k m o) c
      done (.mma st o) (mmaFin o false s k y).1 (mmaFin o false s k y).2 ∧
      done (.mmaz st o) (mmaFin o true s k y).1 (mmaFin o true s k y).2) ∧
    (∀ o c, MxTurn s m a st (mmstCmd k true o) c → c + 1 = 2 * (o.nr.toNat + 1) → let y := mxSeen s m (mmstCmd k true o) c
      done (.mmld st o) (mmldFin o s k y).1 (mmldFin o s k y).2) ∧
    (∀ o c, MxTurn s m a st (mmstCmd k false o) c → c + 1 = 2 * (o.nr.toNat + 1) →
      let psn := (List.range (o.nr.toNat + 1)).any
        (fun j => (s.arrayAt k).poison.getLsbD (16 * o.tile.toNat + (o.row0.toNat + j)))
      done (.mmst st o) (mmstRow o s k m c) { m with psn := m.psn || psn })) ∧
  (∀ (i : Instr) (s : State) (m : MxStream) (a : Nat) (st : BitVec 26) (d : MxCmd), mxForm s m i = some (st, d) →
    let k := s.sched.cur.core
    MxAt s m a →
    (m.off = none → d.bad = true → exec i s = .next (s.endMx k m 0 0x11 0 true true)) ∧
    (m.off = none → d.bad = false →
      (m.base + st.toNat < m.free → exec i s = .next (s.missMx k m 2)) ∧
      (m.free ≤ m.base + st.toNat → a < m.base + st.toNat → exec i s = .next s) ∧
      (m.free ≤ m.base + st.toNat → m.base + st.toNat ≤ a →
        (d.other = true → m.ord = true → exec i s = .next (s.endMx k m 7 0 3 false true)) ∧
        (d.other = false ∨ m.ord = false → ∀ cause, beginMiss s k d = some cause →
          exec i s = .next (s.missMx k m cause)))) ∧
    (∀ c r, m.off = some c ∨ (c = 0 ∧ MxBegins s m a st d) → d.rows.find? (fun r => r.1 == c) = some r →
      portLost s k r.2 = true → exec i s = .next (s.missMx k m 3))) ∧
  (∀ (i : Instr) (s : State) (m : MxStream) (a : Nat) (st : BitVec 26) (d : MxCmd) (c : Nat), mxForm s m i = some (st, d) →
    MxTurn s m a st d c →
    let k := s.sched.cur.core
    (c + 1 < d.dur → ∃ t, exec i s = .next t ∧ t.arrays = s.arrays ∧
      (t.coreAt k).mx = { mxSeen s m d c with off := some (c + 1) } :: (s.coreAt k).mx.drop 1 ∧
      ((∀ o, i ≠ .mmst st o) → t.mem = s.mem ∧ t.sched = s.sched ∧ t.work = s.work)) ∧
    (c + 1 = d.dur → m.stop = true → ∃ t, exec i s = .next t ∧ (t.coreAt k).mx = (s.coreAt k).mx.drop 1) ∧
    (c + 1 = d.dur → m.stop = false → ∃ t m', exec i s = .next t ∧ (t.coreAt k).mx = m' :: (s.coreAt k).mx.drop 1 ∧
      m'.idx = m.idx + 1 ∧ m'.free = a + 1 ∧ m'.off = none ∧ m'.got = [] ∧ m'.base = m.base ∧ m'.cmds = m.cmds ∧
      ((∀ o, i ≠ .mmst st o) → t.mem = s.mem) ∧ (∀ k', pairOf k' ≠ pairOf k → t.arrayAt k' = s.arrayAt k') ∧
      (i = .mmnop st → { t with cores := s.cores } = s) ∧
      (∀ o, i = .mma st o → t.arrayAt k = ((mmaFin o false s k (mxSeen s m d c)).1).arrayAt k) ∧
      (∀ o, i = .mmaz st o → t.arrayAt k = ((mmaFin o true s k (mxSeen s m d c)).1).arrayAt k) ∧
      (∀ o, i = .mmld st o → ∀ j n, j ≤ o.nr.toNat → n < 32 → o.row0.toNat + j < 16 →
        (t.arrayAt k).elem o.tile.toNat (o.row0.toNat + j) n
          = bytesNat (((gotRun (mxSeen s m d c) (2 * j) 2).drop (4 * n)).take 4)) ∧
      (∀ tile, i = .mmz st tile → ∀ j n, j < 16 → n < 32 → (t.arrayAt k).elem tile.toNat j n = 0 ∧
        (t.arrayAt k).poison.getLsbD (16 * tile.toNat + j) = false) ∧
      (∀ val, i = .mmsig st val → let sl := s.slotAt ⟨k, m.slot⟩
        (sl.toks0.length + sl.streams0 < 4 → (t.slotAt ⟨k, m.slot⟩).toks0 = sl.toks0 ++
          [(tokenWord m.tag m.idx val.toNat 0 0 false true false false false, 0)] ∧ m'.ovf = m.ovf) ∧
        (4 ≤ sl.toks0.length + sl.streams0 → (t.slotAt ⟨k, m.slot⟩).toks0 = sl.toks0 ∧ m'.ovf = true)))) ∧
  (∀ (s : State) (m : MxStream) (a : Nat) (st : BitVec 26) (o : MmstOps) (c : Nat),
    let k := s.sched.cur.core
    MxTurn s m a st (mmstCmd k false o) c → Memory.wf s.mem.cells = true → c < 2 * (o.nr.toNat + 1) →
    o.row.toNat + c < 768 → clusterCore (clusterOf k) o.core.toNat < 65536 → ∃ t, exec (.mmst st o) s = .next t ∧
      RowHolds t (clusterCore (clusterOf k) o.core.toNat) (o.row.toNat + c)
        (accRow (s.arrayAt k) o.tile.toNat (o.row0.toNat + c / 2) (c % 2))
        (s.arrayAt k |>.poison.getLsbD (16 * o.tile.toNat + (o.row0.toNat + c / 2)))) ∧
  (∀ (s : State) (k : Nat) (m : MxStream) (cause dsub sub : Nat) (dec err : Bool),
    let id : SlotId := ⟨k, m.slot⟩
    let t := s.endMx k m cause dsub sub dec err
    (t.coreAt k).mx = (s.coreAt k).mx.drop 1 ∧ (t.slotAt id).toks0 = (s.slotAt id).toks0 ++
      [(tokenWord m.tag m.idx 0 cause dsub m.ovf false dec m.psn err, sub)] ∧
    (t.slotAt id).streams0 = (s.slotAt id).streams0 - 1 ∧ t.mem = s.mem ∧ t.arrays = s.arrays ∧
    (∀ id', id' ≠ id → t.slotAt id' = s.slotAt id') ∧
    s.missMx k m cause = (s.endMx k m cause 0 0 false true).countLife (lifeMiss + coreDie k) 48 1) ∧
  (∀ (i : Instr) (s : State) (st : BitVec 26), let k := s.sched.cur.core
    (∃ o, i = .mma st o) ∨ (∃ o, i = .mmaz st o) ∨ (∃ o, i = .mmst st o) ∨ (∃ o, i = .mmld st o) ∨ (∃ t, i = .mmz st t) ∨
      i = .mmnop st ∨ (∃ v, i = .mmsig st v) ∨ (∃ c r f, i = .mmwait st c r f) ∨ i = .mmend st →
    (∀ m, (s.coreAt k).mx.head? = some m → (s.arrayAt k).owns (parity k) = false → exec i s = .next (s.missMx k m 4)) ∧
    ((s.coreAt k).mx = [] ∨ ((s.arrayAt k).owns (parity k) = true ∧ (s.arrayAt k).cycle (parity k) s.now = none) →
      exec i s = .next s)) ∧
  (∀ (s : State) (m : MxStream) (a : Nat) (st : BitVec 26), let k := s.sched.cur.core
    MxAt s m a →
    (m.base + st.toNat < m.free → exec (.mmend st) s = .next (s.missMx k m 2)) ∧
    (m.free ≤ m.base + st.toNat → a < m.base + st.toNat → exec (.mmend st) s = .next s) ∧
    (m.free ≤ m.base + st.toNat → m.base + st.toNat ≤ a → exec (.mmend st) s = .next (s.endMx k m 0 0 0 false false))) ∧
  (∀ (s : State) (m : MxStream) (a : Nat) (st : BitVec 26) (core : BitVec 4) (row : BitVec 10) (full : Bool),
    let k := s.sched.cur.core
    let i : Instr := .mmwait st core row full
    MxAt s m a →
    (768 ≤ row.toNat → exec i s = .next (s.endMx k m 0 0x11 0 true true)) ∧
    (row.toNat < 768 → m.pause = none →
      (m.base + st.toNat < m.free → exec i s = .next (s.missMx k m 2)) ∧
      (m.free ≤ m.base + st.toNat → a < m.base + st.toNat → exec i s = .next s) ∧
      (m.free ≤ m.base + st.toNat → m.base + st.toNat ≤ a → m.ord = false ∨ core.toNat = coreNum k →
        let tag := ((s.coreAt (clusterCore (clusterOf k) core.toNat)).row row.toNat).full
        (tag = full → exec i s = .next (s.setMx k { m with idx := m.idx + 1, free := a + 1 })) ∧
        (tag ≠ full → exec i s = .next (s.setMx k { m with pause := some a }))))) ∧
  (∀ (s : State) (k : Nat) (m : MxStream) (a : Nat), (s.coreAt k).mx.head? = some m →
    (∀ a0, m.pause = some a0 → (s.arrayAt k).cycle (parity k) s.now = some a → exec (.mmwaitMatch k) s =
      .next (s.setMx k { m with idx := m.idx + 1, free := a + 1, base := m.base + (a - a0), pause := none })) ∧
    (m.pause = none → exec (.mmwaitMatch k) s = .next s) ∧
    ∀ sid dsub, exec (.streamDecodeCondition false k sid dsub) s = .next (s.endMx k m 0 dsub 0 true true))

/-- A copy stream runs its commands (R250 to R253, R383 to R386): rows are filled, tagged, read from global lines and
written to them through owned lines; waits and signals; its token follows its last acknowledged write-back (R251, R374);
an owned line returns home when it is recalled (R252). -/
def Obligations.CopyStreams : Prop :=
  (∀ (s : State) (c : CpStream), cpHere s = some c → let cl := s.sched.cur.core
    let sid := s.sched.cur.slot
    exec .cpnop s = .next (s.setCp cl sid c.stepped) ∧
    c.stepped.idx = c.idx + 1 ∧ c.stepped.cmd = c.cmd + 1 ∧ c.stepped.begun = false ∧
    (∀ val, let sl := s.slotAt ⟨c.core, c.slot⟩
      (c.stop = false → sl.toks1.length + sl.streams1 < 8 → ∃ t, exec (.cpsig val) s = .next t ∧
        (t.slotAt ⟨c.core, c.slot⟩).toks1 = sl.toks1 ++
          [(tokenWord c.tag c.idx val.toNat 0 0 false true false false false, 0)] ∧ t.cp? cl sid = some c.stepped) ∧
      (c.stop = false → 8 ≤ sl.toks1.length + sl.streams1 → exec (.cpsig val) s = .next s)) ∧
    (c.outstanding = 0 → c.stop = false → ∃ t, exec .cpend s = .next t ∧ t.cp? cl sid = none ∧
      (t.slotAt ⟨c.core, c.slot⟩).toks1 = (s.slotAt ⟨c.core, c.slot⟩).toks1 ++
        [(tokenWord c.tag c.idx 0 0 0 false false false c.psn false, 0)] ∧
      (t.slotAt ⟨c.core, c.slot⟩).streams1 = (s.slotAt ⟨c.core, c.slot⟩).streams1 - 1) ∧
    (c.outstanding ≠ 0 → ∃ t, exec .cpend s = .next t ∧ t.cp? cl sid =
        some { c with fin := some (0, 0, 0, false, false), begun := false, waitFor := none } ∧
      (t.slotAt ⟨c.core, c.slot⟩) = s.slotAt ⟨c.core, c.slot⟩)) ∧
  (∀ (s : State) (c : CpStream) (core : BitVec 4) (row nrow : BitVec 10) (pat : Word) (act : BitVec 2), cpHere s = some c →
    let cl := s.sched.cur.core
    let sid := s.sched.cur.slot
    let kc := clusterCore cl core.toNat
    let out := decide (768 < row.toNat + nrow.toNat + 1)
    (c.begun = false → out = true → exec (.cpfill core row nrow pat) s = .next (s.endCp cl sid c 0 0x11 0 true true)) ∧
    (c.begun = false → act = 3 ∨ out = true → exec (.cptag core row nrow act) s = .next (s.endCp cl sid c 0 0x11 0 true true)) ∧
    (c.begun = false → out = false → c.ord = true → kc ≠ c.core →
      exec (.cpfill core row nrow pat) s = .next (s.endCp cl sid c 7 0 3 false true)) ∧
    (CpGoes c out → (cpBegun c).row ≤ nrow.toNat → row.toNat + (cpBegun c).row < 768 → kc < 65536 →
      Memory.wf s.mem.cells = true →
      ∃ t, exec (.cpfill core row nrow pat) s = .next t ∧ t.cp? cl sid = some (cpAfterRow (cpBegun c) nrow.toNat) ∧
        RowHolds t kc (row.toNat + (cpBegun c).row) ((List.range 8).flatMap (fun _ => natBytes 8 pat.toNat)) false) ∧
    (CpGoes c (act == 3 || out) → (cpBegun c).row ≤ nrow.toNat → row.toNat + (cpBegun c).row < 768 → kc < 65536 →
      ∃ t, exec (.cptag core row nrow act) s = .next t ∧ t.cp? cl sid = some (cpAfterRow (cpBegun c) nrow.toNat) ∧
        t.mem = s.mem ∧ let old := (s.coreAt kc).row (row.toNat + (cpBegun c).row)
        (t.coreAt kc).row (row.toNat + (cpBegun c).row) = if act = 0 then { old with full := false }
          else if act = 1 then { old with full := true } else { old with poison := false })) ∧
  (∀ (s s0 : State) (c : CpStream) (o : CpOps), cpHere s = some c →
    let cl := s.sched.cur.core
    let sid := s.sched.cur.slot
    let c1 := cpBegun c
    let va := cpVa o c1.row
    let reads (i : Instr) (cores : List Nat) (masked ws : Bool) : Prop :=
      (c.begun = false → cpBad o masked = true → exec i s = .next (s.endCp cl sid c 0 0x11 0 true true)) ∧
      (c.begun = false → cpBad o masked = false → c.ord = true → (∃ k ∈ cores, clusterCore cl k ≠ c.core) →
        exec i s = .next (s.endCp cl sid c 7 0 3 false true)) ∧
      (CpGoes c (cpBad o masked) → CpEntered (cpIn s c) c1 (cpSource (cpIn s c) c1 o) s0 →
        (∀ l psn s1, cpReadLine s0 cl c1 va ws = .got l psn s1 → l.length = 64 → Memory.wf s1.mem.cells = true →
          o.row.toNat + c1.row < 768 → (∀ k ∈ cores, clusterCore cl k < 65536) → ∃ t, exec i s = .next t ∧
            (∀ k ∈ cores, RowHolds t (clusterCore cl k) (o.row.toNat + c1.row) l psn) ∧
            t.cp? cl sid = some (cpAfterRow { c1 with psn := c1.psn || psn } o.nrow.toNat)) ∧
        (∀ s1, cpReadLine s0 cl c1 va ws = .wait s1 → exec i s = .next s1) ∧
        (∀ cause lv, cpReadLine s0 cl c1 va ws = .fault cause lv →
          exec i s = .next (s0.cpFault cl sid c1 cause lv accCopyRead va)) ∧
        (cpReadLine s0 cl c1 va ws = .type → exec i s = .next (s0.endCp cl sid c1 3 0 0 false true)) ∧
        (∀ sub, cpReadLine s0 cl c1 va ws = .order sub → exec i s = .next (s0.endCp cl sid c1 7 0 sub false true)))
    reads (.cpget o) [o.core.toNat] false false ∧ reads (.cpmc o) (maskCores o.mask) true false ∧
    reads (.cpws o) (maskCores o.mask) true true) ∧
  (∀ (s s0 : State) (c : CpStream) (o : CpOps), cpHere s = some c →
    let cl := s.sched.cur.core
    let sid := s.sched.cur.slot
    let kc := clusterCore cl o.core.toNat
    let writes (i : Instr) (ws : Bool) : Prop :=
      let c1 := { cpBegun c with ww := c.ww || ws }
      let segEnd := min (o.nrow.toNat + 1) (c1.seg + 512)
      let next := cpNextOwn o c1 segEnd
      let va := cpVa o next
      let row := o.row.toNat + c1.row
      (c.begun = false → cpBad o false = true → exec i s = .next (s.endCp cl sid c 0 0x11 0 true true)) ∧
      (c.begun = false → cpBad o false = false → c.ord = true → kc ≠ c.core →
        exec i s = .next (s.endCp cl sid c 7 0 3 false true)) ∧
      (CpGoes c (cpBad o false) →
        (c1.owned < segEnd → CpEntered (cpIn s c) c1 (cpTarget (cpIn s c) c1 o next) s0 →
          (∀ l s1, cpOwn s0 cl sid c1 va next ws = .own l s1 → ∃ t, exec i s = .next t ∧
            t.cp? cl sid = some { c1 with owned := c1.owned + 1 } ∧
            (t.cluster cl).copyLines = (s1.cluster cl).copyLines ++ [l]) ∧
          (∀ s1, cpOwn s0 cl sid c1 va next ws = .wait s1 → exec i s = .next s1) ∧
          (∀ cause lv, cpOwn s0 cl sid c1 va next ws = .fault cause lv →
            exec i s = .next (s0.cpFault cl sid c1 cause lv accCopyWrite va)) ∧
          (cpOwn s0 cl sid c1 va next ws = .type →
            exec i s = .next ((s0.returnAll cl sid).endCp cl sid c1 3 0 0 false true)) ∧
          (∀ sub, cpOwn s0 cl sid c1 va next ws = .order sub →
            exec i s = .next ((s0.returnAll cl sid).endCp cl sid c1 7 0 sub false true))) ∧
        (segEnd ≤ c1.owned → ((s.coreAt kc).row row).full = false →
          exec i s = .next ((cpIn s c).setCp cl sid { c1 with waitFor := some (false, kc, row, true) })) ∧
        (segEnd ≤ c1.owned → ((s.coreAt kc).row row).full = true →
          let psn := ((s.coreAt kc).row row).poison
          let c2 := { c1 with row := c1.row + 1, psn := c1.psn || psn }
          let s2 := ((cpIn s c).setCp cl sid c2).mergeOwn cl sid c1.row (s.scrBytes kc (64 * row) 64) psn
          (c1.row + 1 < segEnd → exec i s = .next s2) ∧
          (segEnd ≤ c1.row + 1 → ∃ t c3, exec i s = .next t ∧ t.cp? cl sid = some c3 ∧ (t.cluster cl).copyLines =
              (s2.cluster cl).copyLines.filter (fun o => o.sid != sid) ∧ c3.psn = c2.psn ∧
            c3.idx = (if segEnd = o.nrow.toNat + 1 then c.idx + 1 else c.idx))))
    writes (.cpput o) false ∧ writes (.cpww o) true) ∧
  (∀ (s : State) (cl : Nat) (o : OwnLine) (c : CpStream) (l : List Byte) (psn : Bool), o.data = some (l, psn) →
    s.cp? cl o.sid = some c → l.length = 64 →
    (o.recalled = false ∨ o.dev = s.fabric.self → s.returnLine cl { o with data := none } = s) ∧
    (o.dev = s.fabric.self → region (o.line * 64) < 3 → Memory.wf s.mem.cells = true → let t := s.returnLine cl o
      t.mem.read o.key (o.line * 64) 64 = l ∧ t.cp? cl o.sid = some { c with outstanding := c.outstanding + 1 } ∧
      (⟨o.line * 64, 2 ^ 22 + cl, .copyWritebackAck cl o.sid⟩ : Flight) ∈ t.sched.net) ∧
    (o.dev ≠ s.fabric.self → let t := s.returnLine cl o
      Requested t 2 o.dev (o.line * 64) unitRouter 0 0 0
        (.lineWrite o.line (cpWriter cl o.sid) l (BitVec.allOnes 64) psn (wireKey s o.key)) ∧
      t.cp? cl o.sid = some { c with outstanding := c.outstanding + 1 })) ∧
  (∀ (s : State) (c : CpStream) (core : BitVec 4) (row : BitVec 10) (full : Bool), cpHere s = some c →
    let cl := s.sched.cur.core
    let sid := s.sched.cur.slot
    let kc := clusterCore cl core.toNat
    (c.begun = false → 768 ≤ row.toNat →
      exec (.cpwait core row full) s = .next (s.endCp cl sid c 0 0x11 0 true true)) ∧
    (c.begun = false → row.toNat < 768 → c.ord = true → kc ≠ c.core →
      exec (.cpwait core row full) s = .next (s.endCp cl sid c 7 0 3 false true)) ∧
    (CpGoes c (decide (768 ≤ row.toNat)) →
      (((s.coreAt kc).row row.toNat).full = full →
        exec (.cpwait core row full) s = .next ((cpIn s c).setCp cl sid (cpBegun c).stepped)) ∧
      (((s.coreAt kc).row row.toNat).full ≠ full → exec (.cpwait core row full) s =
        .next ((cpIn s c).setCp cl sid { cpBegun c with waitFor := some (true, kc, row.toNat, full) })))) ∧
  (∀ (s : State) (cl sid : Nat),
    (s.cp? cl sid = none → exec (.cpwaitMatch cl sid) s = .next s ∧ exec (.copySourceRowFull cl sid) s = .next s ∧
      exec (.copyWritebackAck cl sid) s = .next (s.arrive (.copyWritebackAck cl sid))) ∧
    (∀ c, s.cp? cl sid = some c →
      (∀ w, c.waitFor = some (true, w) → exec (.cpwaitMatch cl sid) s = .next (s.setCp cl sid c.stepped) ∧
        exec (.copySourceRowFull cl sid) s = .next s) ∧
      (∀ w, c.waitFor = some (false, w) → exec (.cpwaitMatch cl sid) s = .next s ∧
        exec (.copySourceRowFull cl sid) s = .next (s.setCp cl sid { c with waitFor := none })) ∧
      (c.fin = none ∨ 1 < c.outstanding → ∃ t, exec (.copyWritebackAck cl sid) s = .next t ∧
        t.cp? cl sid = some { c with outstanding := c.outstanding - 1 } ∧ t.cores = s.cores) ∧
      (∀ f, c.fin = some f → c.outstanding ≤ 1 → c.stop = false → ∃ t, exec (.copyWritebackAck cl sid) s = .next t ∧
        t.cp? cl sid = none ∧ (t.slotAt ⟨c.core, c.slot⟩).toks1 = (s.slotAt ⟨c.core, c.slot⟩).toks1 ++
          [(tokenWord c.tag c.idx 0 f.1 f.2.1 false false f.2.2.2.1 c.psn f.2.2.2.2, f.2.2.1)]) ∧
      (∀ k dsub, clusterOf k = cl → c.outstanding = 0 → c.stop = false →
        ∃ t, exec (.streamDecodeCondition true k sid dsub) s = .next t ∧ t.cp? cl sid = none ∧
          (t.slotAt ⟨c.core, c.slot⟩).toks1 = (s.slotAt ⟨c.core, c.slot⟩).toks1 ++
            [(tokenWord c.tag c.idx 0 0 dsub false false true c.psn true, 0)]))) ∧
  (∀ (s : State) (cl line : Nat), let hit (o : OwnLine) : Bool := o.dev == s.fabric.self && o.line == line
    ((∀ o ∈ (s.cluster cl).copyLines, hit o = true → o.data.isSome = true) → ∃ t, exec (.lineRecall cl line) s = .next t ∧
      (t.cluster cl).copyLines = (s.cluster cl).copyLines.filter (fun o => !hit o)) ∧
    ((∃ o ∈ (s.cluster cl).copyLines, hit o = true ∧ o.data = none) → ∃ t, exec (.lineRecall cl line) s = .next t ∧
      t.mem = s.mem ∧ t.cores = s.cores ∧ (t.cluster cl).copyLines = (s.cluster cl).copyLines.map
        (fun (o : OwnLine) => if hit o then { o with recalled := true } else o)))

/-- MOVQ starts streams and pops tokens and counters (R373 to R375, R382, R389, R390); TLBI drops translations and waits
for every cache (R110, R419); the weight store opens and closes (R420); KEYKILL sweeps a key (R126, R127, R421); HALTG
stops and resumes a partition (R157 to R160, R422). -/
def Obligations.PortsAndSupervisorInstructions : Prop :=
  (∀ (g : Reg) (q : BitVec 3) (sync : Bool) (func : BitVec 8) (s : State),
    let m : Demand := readsA g sync
    let v := (s.vals m).a
    Ready s m → s.onDcore = true →
    (q.toNat ≤ 1 → func ≠ 0 → exec (.movqPush g q sync func) s = .next (s.raise s.sched.cur (s.trapHere trapIllegal 0))) ∧
    (2 ≤ q.toNat → q.toNat ≠ 4 → exec (.movqPush g q sync func) s = .next (s.raise s.sched.cur s.badOperand)) ∧
    (q.toNat ≤ 1 → func = 0 → badStart q.toNat v = true →
      exec (.movqPush g q sync func) s = .next (s.raise s.sched.cur s.badOperand)) ∧
    (q = 0 → func = 0 → badStart 0 v = false → s.me.acq = none → s.me.task.ord = false → s.me.streams0 = 0 →
      (s.coreAt s.here).mx = [] → s.me.toks0.length < 4 →
      ∀ cmds ends s1, readChain s s.here s.me.task.job (!s.me.sup) 32 (startLine v) true [] = (.held cmds ends, s1) →
      ∃ t x, exec (.movqPush g q sync func) s = .next t ∧ (t.coreAt s.here).mx = [x] ∧ x.slot = s.sched.cur.slot ∧
        x.cmds = cmds ∧ x.ends = ends ∧ x.idx = 0 ∧ x.off = none ∧ x.tag = bits v.toNat 63 58 ∧
        x.base = (s.arrayAt s.here).firstCycle (parity s.here) (s.now + 32) ∧ t.me.streams0 = 1 ∧
        t.me.pc = s.sched.ir.npc ∧ (∀ r, t.me.cell r = cellAfter s m r)) ∧
    (q = 1 → func = 0 → badStart 1 v = false → s.me.acq = none → s.me.streams1 < 4 →
      s.me.toks1.length + s.me.streams1 < 8 →
      ∀ sid, nextStream (s.cluster (clusterOf s.here)).copies = some sid →
      ∃ t x, exec (.movqPush g q sync func) s = .next t ∧ t.cp? (clusterOf s.here) sid = some x ∧
        x.core = s.here ∧ x.slot = s.sched.cur.slot ∧ x.line = startLine v ∧ x.cmd = 0 ∧ x.idx = 0 ∧ x.first = true ∧
        x.begun = false ∧ x.outstanding = 0 ∧ x.tag = bits v.toNat 63 58 ∧ t.me.streams1 = s.me.streams1 + 1 ∧
        t.me.pc = s.sched.ir.npc ∧ (∀ r, t.me.cell r = cellAfter s m r) ∧ t.mem = s.mem)) ∧
  (∀ (g : Reg) (q : BitVec 3) (func : BitVec 8) (s : State), let m : Demand := writesRun g 1
    Ready s m →
    (6 ≤ q.toNat → exec (.movqPop g q func) s = .next (s.raise s.sched.cur s.badOperand)) ∧
    (q = 0 → s.onDcore = true → func = 0 →
      (s.me.toks0 = [] → s.me.streams0 = 0 → exec (.movqPop g q func) s = .next (s.raise s.sched.cur s.badOperand)) ∧
      (s.me.toks0 = [] → s.me.streams0 ≠ 0 → exec (.movqPop g q func) s = .next s) ∧
      (∀ tok sub rest, s.me.toks0 = (tok, sub) :: rest → s.me.acq = none →
        ∃ t, Wrote (s.setMe { s.me with toks0 := rest }) t m g.toNat false tok ∧
          exec (.movqPop g q func) s = match tokenTrap 0 tok sub s.sched.ir.npc with
            | none => .next t
            | some x => .next (t.raise s.sched.cur x))) ∧
    (q = 1 → s.onDcore = true → func = 0 →
      (s.me.toks1 = [] → s.me.streams1 = 0 → exec (.movqPop g q func) s = .next (s.raise s.sched.cur s.badOperand)) ∧
      (s.me.toks1 = [] → s.me.streams1 ≠ 0 → exec (.movqPop g q func) s = .next s) ∧
      (∀ tok sub rest, s.me.toks1 = (tok, sub) :: rest → s.me.acq = none →
        ∃ t, Wrote (s.setMe { s.me with toks1 := rest }) t m g.toNat false tok ∧
          exec (.movqPop g q func) s = match tokenTrap 1 tok sub s.sched.ir.npc with
            | none => .next t
            | some x => .next (t.raise s.sched.cur x))) ∧
    (q = 3 → func.toNat ≤ 4 → ownModule s → s.me.acq = none → ∃ t, exec (.movqPop g q func) s = .next t ∧
      Wrote s t m g.toNat false (w64 (mailCount (s.coreAt (coreOf s.me.task.dcore)) func.toNat))) ∧
    (q = 2 ∨ q = 5 ∨ (q = 4 ∧ s.part ≠ .ny7710) → func.toNat ≤ 1 → s.me.acq = none →
      let n := if q = 2 then s.me.unackMsg else if q = 4 then s.me.q4 else s.me.q5
      (func = 0 ∨ n = 0 → ∃ t, exec (.movqPop g q func) s = .next t ∧ Wrote s t m g.toNat false (w64 n)) ∧
      (func = 1 → n ≠ 0 → exec (.movqPop g q func) s = .next s))) ∧
  (∀ (i : Instr) (m : Demand) (scope : BitVec 3) (sel : TlbSel) (s : State),
    (∃ o, i = .tlbiPage o scope ∧ m = ⟨some (o.a.toNat, o.sa), some (o.b.toNat, o.sb), none, [], []⟩ ∧
      sel = .page (bits (s.vals m).b.toNat 15 0) (s.vals m).a.toNat) ∨
    (∃ b sb, i = .tlbiJob b sb scope ∧ m = ⟨none, some (b.toNat, sb), none, [], []⟩ ∧
      sel = .job (bits (s.vals m).b.toNat 15 0)) ∨
    (i = .tlbiAll scope ∧ m = noDemand ∧ sel = .all) →
    Ready s m → s.me.sup = true →
    (scope = 0 → exec i s = .next (s.raise s.sched.cur (s.trapHere trapIllegal 0))) ∧
    (scope ≠ 0 → s.me.posted ≠ 0 → exec i s = .next s) ∧
    (scope ≠ 0 → s.me.posted = 0 → s.me.acq = none → s.me.outst = 0 → s.mem.waiters = [] → ∃ t w, exec i s = .next t ∧
      t.me.st = .waiting ∧ t.me.next = s.sched.ir.npc ∧ w.id = s.sched.cur ∧
      t.mem = { tlbiDrop s.mem s.here scope.toNat sel with tlbis := s.mem.tlbis ++ [w] } ∧
      (∀ e ∈ t.mem.tcache, ¬(locInScope s.here scope.toNat e.loc = true ∧ sel.hits e = true)) ∧
      .tlbiComplete s.sched.cur ∈ t.sched.inbox ∧
      (scope.toNat < 5 ∨ s.fabric.enable = false → w.left = 0) ∧
      (5 ≤ scope.toNat → s.fabric.enable = true → w.left = s.otherModules.length ∧ ∀ mo ∈ s.otherModules,
        Requested t 2 mo 0 s.here s.sched.cur.slot (s.partOfTask s.me.task) 0 (.tlbi sel.job? sel.vpage?)))) ∧
  (∀ (id : SlotId) (s : State) (w : TlbWait), s.mem.tlbis.find? (fun w => w.id == id) = some w → s.mem.waiters = [] →
    ((w.rest s).over = false → ∃ t, exec (.tlbiComplete id) s = .next t ∧ t.cores = s.cores ∧
      ⟨s.now + 1, .tlbiComplete id⟩ ∈ t.sched.timers) ∧
    ((w.rest s).over = true → id.core < 2 ^ 30 → (s.slotAt id).st = .waiting → ∃ t, exec (.tlbiComplete id) s = .next t ∧
      (t.slotAt id).st = .running ∧ (t.slotAt id).pc = (s.slotAt id).next ∧
      (∀ id', id' ≠ id → t.slotAt id' = s.slotAt id') ∧ t.mem.cells = s.mem.cells)) ∧
  (∀ (o : OpsDA) (s : State), Ready s (daDemand o) → s.me.sup = true →
    let v := (s.vals (daDemand o)).a
    (∃ t, exec (.wsopen o) s = .next t ∧ t.mem.wsOpen = s.mem.wsOpen ||| (v.extractLsb' 0 8 &&& dieMask s.part) ∧
      Wrote (s.setMem { s.mem with wsOpen := t.mem.wsOpen }) t (daDemand o) o.d.toNat false 0) ∧
    (s.me.posted = 0 → cpwwOut s s.sched.cur = false → ∃ t, exec (.wsclose o) s = .next t ∧
      t.mem.wsOpen = s.mem.wsOpen &&& ~~~(v.extractLsb' 0 8) ∧
      Wrote (s.setMem { s.mem with wsOpen := t.mem.wsOpen }) t (daDemand o) o.d.toNat false 0) ∧
    (s.me.posted ≠ 0 ∨ cpwwOut s s.sched.cur = true → exec (.wsclose o) s = .next s) ∧
    (ownModule s → s.forwarded s.here = s.here → let k := bits v.toNat 5 0
      (k = 0 → ∃ t, exec (.keykill o) s = .next t ∧ Wrote s t (daDemand o) o.d.toNat false (keyResult 2 0)) ∧
      (k ≠ 0 → s.keyLive k = false → ∃ t, exec (.keykill o) s = .next t ∧
        Wrote s t (daDemand o) o.d.toNat false (keyResult 1 0)) ∧
      (k ≠ 0 → s.keyLive k = true → ∃ t, exec (.keykill o) s = .next t ∧ mget? t.mgmt.keys k = some .sweep ∧
        t.keyLive k = false ∧ (∀ l ∈ t.mem.clines, underKey k l.key = false) ∧ t.mem.cells = s.mem.cells ∧
        .keySweepDone k ∈ t.sched.inbox ∧ (o.d ≠ 0 → (t.me.cell o.d.toNat).pend = true)))) ∧
  (∀ (key : Nat) (s : State),
    (mget s.mgmt.keys key .empty ≠ .sweep → exec (.keySweepDone key) s = .next s) ∧
    (mget s.mgmt.keys key .empty = .sweep → peersUnder s key ≠ [] →
      exec (.keySweepDone key) s = .next (s.after 16 (.keySweepDone key))) ∧
    (mget s.mgmt.keys key .empty = .sweep → peersUnder s key = [] → ∃ t, exec (.keySweepDone key) s = .next t ∧
      t.mem = s.mem ∧
      mget t.mgmt.keys key .empty = (if s.work.jobs.any (fun j => j.2.key == key && j.2.running) then .dead else .empty) ∧
      LeaseAnswered s t (mget? s.mgmt.keyWait key) (keyResult 0 (mget s.mgmt.dropped key 0)))) ∧
  (∀ (d : Reg) (s : State), Ready s (writesRun d 1) → s.me.sup = true →
    let part := s.partOfTask s.me.task
    (s.forwarded s.here = s.here → stopUnderway s part = true →
      (∃ t, exec (.haltgStop d) s = .next t ∧ Wrote s t (writesRun d 1) d.toNat false 2) ∧
      ∃ t, exec (.haltgResume d) s = .next t ∧ Wrote s t (writesRun d 1) d.toNat false 2) ∧
    (stopUnderway s part = false →
      (∃ t, exec (.haltgStop d) s = .next t ∧ t.work.stops = s.work.stops ++ [⟨s.fabric.self, part, none, false⟩] ∧
        StopSpreads s t d.toNat part none false ∧
        (∀ id, id ≠ s.sched.cur → (s.slotAt id).st ≠ .free → s.partOfTask (s.slotAt id).task = part →
          (t.slotAt id).halted = true)) ∧
      (s.forwarded s.here = s.here → (∀ g ∈ s.work.stops, g.part = part → g.fatal = true) →
        ∃ t, exec (.haltgResume d) s = .next t ∧ Wrote s t (writesRun d 1) d.toNat false 1) ∧
      ((∃ g ∈ s.work.stops, g.part = part ∧ g.fatal = false) → ∃ t, exec (.haltgResume d) s = .next t ∧
        t.work.stops = s.work.stops.filter (fun g => g.part != part || g.fatal) ∧ StopSpreads s t d.toNat part none true ∧
        (∀ id, id ≠ s.sched.cur → (s.slotAt id).halted = true → stopped t (s.slotAt id).task = false →
          (t.slotAt id).halted = false)))) ∧
  (∀ (o : OpsDA) (s : State), Ready s (daDemand o) → s.me.sup = true →
    let part := s.partOfTask s.me.task
    let l := bits (s.vals (daDemand o)).a.toNat 15 0
    (s.forwarded s.here = s.here → stopUnderway s part = true → ∃ t, exec (.haltgStopl o) s = .next t ∧
      Wrote s t (daDemand o) o.d.toNat false 2) ∧
    (stopUnderway s part = false →
      (s.forwarded s.here = s.here → s.launchAt l = none → ∃ t, exec (.haltgStopl o) s = .next t ∧
        Wrote s t (daDemand o) o.d.toNat false 1) ∧
      (s.launchAt l ≠ none → ∃ t, exec (.haltgStopl o) s = .next t ∧
        t.work.stops = s.work.stops ++ [⟨s.fabric.self, part, some l, false⟩] ∧
        StopSpreads s t o.d.toNat part (some l) false ∧
        (∀ id, id ≠ s.sched.cur → (s.slotAt id).st ≠ .free → s.partOfTask (s.slotAt id).task = part →
          (s.slotAt id).task.launch = l → modOf (s.slotAt id).task.dcore = s.fabric.self →
          (t.slotAt id).halted = true)))) ∧
  (∀ (id : SlotId) (d part : Nat) (s : State), ∃ t, execHaltDone id d part s = .next t ∧
    LeaseAnswered s t (some (id, d)) 0)

/-- Every step keeps the canonical form of memory (the model's own form, notes/assumptions/2). -/
def Obligations.MemoryStaysCanonical : Prop :=
  ∀ s t : State, Memory.wf s.mem.cells = true → step s = .next t → Memory.wf t.mem.cells = true
end

