-- ==== Sys2Proof/Laws/State.lean ====
section
/-! SUPPORT. What each update of the state leaves: one lemma for each field and update, true by definition. -/

namespace Sys2Proof.Machine

/-! ## setSched -/

@[simp] theorem setSched_part (s : State) (x : Sched) : (s.setSched x).part = s.part := rfl
@[simp] theorem setSched_sched (s : State) (x : Sched) : (s.setSched x).sched = x := rfl
@[simp] theorem setSched_mem (s : State) (x : Sched) : (s.setSched x).mem = s.mem := rfl
@[simp] theorem setSched_cores (s : State) (x : Sched) : (s.setSched x).cores = s.cores := rfl
@[simp] theorem setSched_arrays (s : State) (x : Sched) : (s.setSched x).arrays = s.arrays := rfl
@[simp] theorem setSched_work (s : State) (x : Sched) : (s.setSched x).work = s.work := rfl
@[simp] theorem setSched_agents (s : State) (x : Sched) : (s.setSched x).agents = s.agents := rfl
@[simp] theorem setSched_fabric (s : State) (x : Sched) : (s.setSched x).fabric = s.fabric := rfl
@[simp] theorem setSched_host (s : State) (x : Sched) : (s.setSched x).host = s.host := rfl
@[simp] theorem setSched_churn (s : State) (x : Sched) : (s.setSched x).churn = s.churn := rfl
@[simp] theorem setSched_mgmt (s : State) (x : Sched) : (s.setSched x).mgmt = s.mgmt := rfl

/-! ## setMem -/

@[simp] theorem setMem_part (s : State) (x : Mem) : (s.setMem x).part = s.part := rfl
@[simp] theorem setMem_sched (s : State) (x : Mem) : (s.setMem x).sched = s.sched := rfl
@[simp] theorem setMem_mem (s : State) (x : Mem) : (s.setMem x).mem = x := rfl
@[simp] theorem setMem_cores (s : State) (x : Mem) : (s.setMem x).cores = s.cores := rfl
@[simp] theorem setMem_arrays (s : State) (x : Mem) : (s.setMem x).arrays = s.arrays := rfl
@[simp] theorem setMem_work (s : State) (x : Mem) : (s.setMem x).work = s.work := rfl
@[simp] theorem setMem_agents (s : State) (x : Mem) : (s.setMem x).agents = s.agents := rfl
@[simp] theorem setMem_fabric (s : State) (x : Mem) : (s.setMem x).fabric = s.fabric := rfl
@[simp] theorem setMem_host (s : State) (x : Mem) : (s.setMem x).host = s.host := rfl
@[simp] theorem setMem_churn (s : State) (x : Mem) : (s.setMem x).churn = s.churn := rfl
@[simp] theorem setMem_mgmt (s : State) (x : Mem) : (s.setMem x).mgmt = s.mgmt := rfl

/-! ## setWork -/

@[simp] theorem setWork_part (s : State) (x : Work) : (s.setWork x).part = s.part := rfl
@[simp] theorem setWork_sched (s : State) (x : Work) : (s.setWork x).sched = s.sched := rfl
@[simp] theorem setWork_mem (s : State) (x : Work) : (s.setWork x).mem = s.mem := rfl
@[simp] theorem setWork_cores (s : State) (x : Work) : (s.setWork x).cores = s.cores := rfl
@[simp] theorem setWork_arrays (s : State) (x : Work) : (s.setWork x).arrays = s.arrays := rfl
@[simp] theorem setWork_work (s : State) (x : Work) : (s.setWork x).work = x := rfl
@[simp] theorem setWork_agents (s : State) (x : Work) : (s.setWork x).agents = s.agents := rfl
@[simp] theorem setWork_fabric (s : State) (x : Work) : (s.setWork x).fabric = s.fabric := rfl
@[simp] theorem setWork_host (s : State) (x : Work) : (s.setWork x).host = s.host := rfl
@[simp] theorem setWork_churn (s : State) (x : Work) : (s.setWork x).churn = s.churn := rfl
@[simp] theorem setWork_mgmt (s : State) (x : Work) : (s.setWork x).mgmt = s.mgmt := rfl

/-! ## setAgents -/

@[simp] theorem setAgents_part (s : State) (x : Agents) : (s.setAgents x).part = s.part := rfl
@[simp] theorem setAgents_sched (s : State) (x : Agents) : (s.setAgents x).sched = s.sched := rfl
@[simp] theorem setAgents_mem (s : State) (x : Agents) : (s.setAgents x).mem = s.mem := rfl
@[simp] theorem setAgents_cores (s : State) (x : Agents) : (s.setAgents x).cores = s.cores := rfl
@[simp] theorem setAgents_arrays (s : State) (x : Agents) : (s.setAgents x).arrays = s.arrays := rfl
@[simp] theorem setAgents_work (s : State) (x : Agents) : (s.setAgents x).work = s.work := rfl
@[simp] theorem setAgents_agents (s : State) (x : Agents) : (s.setAgents x).agents = x := rfl
@[simp] theorem setAgents_fabric (s : State) (x : Agents) : (s.setAgents x).fabric = s.fabric := rfl
@[simp] theorem setAgents_host (s : State) (x : Agents) : (s.setAgents x).host = s.host := rfl
@[simp] theorem setAgents_churn (s : State) (x : Agents) : (s.setAgents x).churn = s.churn := rfl
@[simp] theorem setAgents_mgmt (s : State) (x : Agents) : (s.setAgents x).mgmt = s.mgmt := rfl

/-! ## setFabric -/

@[simp] theorem setFabric_part (s : State) (x : Fabric) : (s.setFabric x).part = s.part := rfl
@[simp] theorem setFabric_sched (s : State) (x : Fabric) : (s.setFabric x).sched = s.sched := rfl
@[simp] theorem setFabric_mem (s : State) (x : Fabric) : (s.setFabric x).mem = s.mem := rfl
@[simp] theorem setFabric_cores (s : State) (x : Fabric) : (s.setFabric x).cores = s.cores := rfl
@[simp] theorem setFabric_arrays (s : State) (x : Fabric) : (s.setFabric x).arrays = s.arrays := rfl
@[simp] theorem setFabric_work (s : State) (x : Fabric) : (s.setFabric x).work = s.work := rfl
@[simp] theorem setFabric_agents (s : State) (x : Fabric) : (s.setFabric x).agents = s.agents := rfl
@[simp] theorem setFabric_fabric (s : State) (x : Fabric) : (s.setFabric x).fabric = x := rfl
@[simp] theorem setFabric_host (s : State) (x : Fabric) : (s.setFabric x).host = s.host := rfl
@[simp] theorem setFabric_churn (s : State) (x : Fabric) : (s.setFabric x).churn = s.churn := rfl
@[simp] theorem setFabric_mgmt (s : State) (x : Fabric) : (s.setFabric x).mgmt = s.mgmt := rfl

/-! ## setHost -/

@[simp] theorem setHost_part (s : State) (x : HostIf) : (s.setHost x).part = s.part := rfl
@[simp] theorem setHost_sched (s : State) (x : HostIf) : (s.setHost x).sched = s.sched := rfl
@[simp] theorem setHost_mem (s : State) (x : HostIf) : (s.setHost x).mem = s.mem := rfl
@[simp] theorem setHost_cores (s : State) (x : HostIf) : (s.setHost x).cores = s.cores := rfl
@[simp] theorem setHost_arrays (s : State) (x : HostIf) : (s.setHost x).arrays = s.arrays := rfl
@[simp] theorem setHost_work (s : State) (x : HostIf) : (s.setHost x).work = s.work := rfl
@[simp] theorem setHost_agents (s : State) (x : HostIf) : (s.setHost x).agents = s.agents := rfl
@[simp] theorem setHost_fabric (s : State) (x : HostIf) : (s.setHost x).fabric = s.fabric := rfl
@[simp] theorem setHost_host (s : State) (x : HostIf) : (s.setHost x).host = x := rfl
@[simp] theorem setHost_churn (s : State) (x : HostIf) : (s.setHost x).churn = s.churn := rfl
@[simp] theorem setHost_mgmt (s : State) (x : HostIf) : (s.setHost x).mgmt = s.mgmt := rfl

/-! ## setChurn -/

@[simp] theorem setChurn_part (s : State) (x : Churn) : (s.setChurn x).part = s.part := rfl
@[simp] theorem setChurn_sched (s : State) (x : Churn) : (s.setChurn x).sched = s.sched := rfl
@[simp] theorem setChurn_mem (s : State) (x : Churn) : (s.setChurn x).mem = s.mem := rfl
@[simp] theorem setChurn_cores (s : State) (x : Churn) : (s.setChurn x).cores = s.cores := rfl
@[simp] theorem setChurn_arrays (s : State) (x : Churn) : (s.setChurn x).arrays = s.arrays := rfl
@[simp] theorem setChurn_work (s : State) (x : Churn) : (s.setChurn x).work = s.work := rfl
@[simp] theorem setChurn_agents (s : State) (x : Churn) : (s.setChurn x).agents = s.agents := rfl
@[simp] theorem setChurn_fabric (s : State) (x : Churn) : (s.setChurn x).fabric = s.fabric := rfl
@[simp] theorem setChurn_host (s : State) (x : Churn) : (s.setChurn x).host = s.host := rfl
@[simp] theorem setChurn_churn (s : State) (x : Churn) : (s.setChurn x).churn = x := rfl
@[simp] theorem setChurn_mgmt (s : State) (x : Churn) : (s.setChurn x).mgmt = s.mgmt := rfl

/-! ## setMgmt -/

@[simp] theorem setMgmt_part (s : State) (x : Mgmt) : (s.setMgmt x).part = s.part := rfl
@[simp] theorem setMgmt_sched (s : State) (x : Mgmt) : (s.setMgmt x).sched = s.sched := rfl
@[simp] theorem setMgmt_mem (s : State) (x : Mgmt) : (s.setMgmt x).mem = s.mem := rfl
@[simp] theorem setMgmt_cores (s : State) (x : Mgmt) : (s.setMgmt x).cores = s.cores := rfl
@[simp] theorem setMgmt_arrays (s : State) (x : Mgmt) : (s.setMgmt x).arrays = s.arrays := rfl
@[simp] theorem setMgmt_work (s : State) (x : Mgmt) : (s.setMgmt x).work = s.work := rfl
@[simp] theorem setMgmt_agents (s : State) (x : Mgmt) : (s.setMgmt x).agents = s.agents := rfl
@[simp] theorem setMgmt_fabric (s : State) (x : Mgmt) : (s.setMgmt x).fabric = s.fabric := rfl
@[simp] theorem setMgmt_host (s : State) (x : Mgmt) : (s.setMgmt x).host = s.host := rfl
@[simp] theorem setMgmt_churn (s : State) (x : Mgmt) : (s.setMgmt x).churn = s.churn := rfl
@[simp] theorem setMgmt_mgmt (s : State) (x : Mgmt) : (s.setMgmt x).mgmt = x := rfl

/-! ## setCore and setSlot -/

@[simp] theorem setCore_part (s : State) (k : Nat) (c : Core) : (s.setCore k c).part = s.part := rfl
@[simp] theorem setCore_sched (s : State) (k : Nat) (c : Core) : (s.setCore k c).sched = s.sched := rfl
@[simp] theorem setCore_mem (s : State) (k : Nat) (c : Core) : (s.setCore k c).mem = s.mem := rfl
@[simp] theorem setCore_arrays (s : State) (k : Nat) (c : Core) : (s.setCore k c).arrays = s.arrays := rfl
@[simp] theorem setCore_work (s : State) (k : Nat) (c : Core) : (s.setCore k c).work = s.work := rfl
@[simp] theorem setCore_agents (s : State) (k : Nat) (c : Core) : (s.setCore k c).agents = s.agents := rfl
@[simp] theorem setCore_fabric (s : State) (k : Nat) (c : Core) : (s.setCore k c).fabric = s.fabric := rfl
@[simp] theorem setCore_host (s : State) (k : Nat) (c : Core) : (s.setCore k c).host = s.host := rfl
@[simp] theorem setCore_churn (s : State) (k : Nat) (c : Core) : (s.setCore k c).churn = s.churn := rfl
@[simp] theorem setCore_mgmt (s : State) (k : Nat) (c : Core) : (s.setCore k c).mgmt = s.mgmt := rfl
@[simp] theorem setCore_cores (s : State) (k : Nat) (c : Core) : (s.setCore k c).cores = mput s.cores k c := rfl

@[simp] theorem setSlot_part (s : State) (id : SlotId) (sl : Slot) : (s.setSlot id sl).part = s.part := rfl
@[simp] theorem setSlot_sched (s : State) (id : SlotId) (sl : Slot) : (s.setSlot id sl).sched = s.sched := rfl
@[simp] theorem setSlot_mem (s : State) (id : SlotId) (sl : Slot) : (s.setSlot id sl).mem = s.mem := rfl
@[simp] theorem setSlot_arrays (s : State) (id : SlotId) (sl : Slot) : (s.setSlot id sl).arrays = s.arrays := rfl
@[simp] theorem setSlot_work (s : State) (id : SlotId) (sl : Slot) : (s.setSlot id sl).work = s.work := rfl
@[simp] theorem setSlot_agents (s : State) (id : SlotId) (sl : Slot) : (s.setSlot id sl).agents = s.agents := rfl
@[simp] theorem setSlot_fabric (s : State) (id : SlotId) (sl : Slot) : (s.setSlot id sl).fabric = s.fabric := rfl
@[simp] theorem setSlot_host (s : State) (id : SlotId) (sl : Slot) : (s.setSlot id sl).host = s.host := rfl
@[simp] theorem setSlot_churn (s : State) (id : SlotId) (sl : Slot) : (s.setSlot id sl).churn = s.churn := rfl
@[simp] theorem setSlot_mgmt (s : State) (id : SlotId) (sl : Slot) : (s.setSlot id sl).mgmt = s.mgmt := rfl

@[simp] theorem setMe_part (s : State) (sl : Slot) : (s.setMe sl).part = s.part := rfl
@[simp] theorem setMe_sched (s : State) (sl : Slot) : (s.setMe sl).sched = s.sched := rfl
@[simp] theorem setMe_mem (s : State) (sl : Slot) : (s.setMe sl).mem = s.mem := rfl
@[simp] theorem setMe_arrays (s : State) (sl : Slot) : (s.setMe sl).arrays = s.arrays := rfl
@[simp] theorem setMe_work (s : State) (sl : Slot) : (s.setMe sl).work = s.work := rfl
@[simp] theorem setMe_agents (s : State) (sl : Slot) : (s.setMe sl).agents = s.agents := rfl
@[simp] theorem setMe_fabric (s : State) (sl : Slot) : (s.setMe sl).fabric = s.fabric := rfl
@[simp] theorem setMe_host (s : State) (sl : Slot) : (s.setMe sl).host = s.host := rfl
@[simp] theorem setMe_churn (s : State) (sl : Slot) : (s.setMe sl).churn = s.churn := rfl
@[simp] theorem setMe_mgmt (s : State) (sl : Slot) : (s.setMe sl).mgmt = s.mgmt := rfl

@[simp] theorem retire_part (s : State) (sl : Slot) : (s.retire sl).part = s.part := rfl
@[simp] theorem retire_sched (s : State) (sl : Slot) : (s.retire sl).sched = s.sched := rfl
@[simp] theorem retire_mem (s : State) (sl : Slot) : (s.retire sl).mem = s.mem := rfl
@[simp] theorem retire_arrays (s : State) (sl : Slot) : (s.retire sl).arrays = s.arrays := rfl
@[simp] theorem retire_work (s : State) (sl : Slot) : (s.retire sl).work = s.work := rfl
@[simp] theorem retire_agents (s : State) (sl : Slot) : (s.retire sl).agents = s.agents := rfl
@[simp] theorem retire_fabric (s : State) (sl : Slot) : (s.retire sl).fabric = s.fabric := rfl
@[simp] theorem retire_host (s : State) (sl : Slot) : (s.retire sl).host = s.host := rfl
@[simp] theorem retire_churn (s : State) (sl : Slot) : (s.retire sl).churn = s.churn := rfl
@[simp] theorem retire_mgmt (s : State) (sl : Slot) : (s.retire sl).mgmt = s.mgmt := rfl

/-! ## Posting and sending touch the schedule alone -/

@[simp] theorem post_part (s : State) (e : Ev) : (s.post e).part = s.part := rfl
@[simp] theorem post_mem (s : State) (e : Ev) : (s.post e).mem = s.mem := rfl
@[simp] theorem post_cores (s : State) (e : Ev) : (s.post e).cores = s.cores := rfl
@[simp] theorem post_arrays (s : State) (e : Ev) : (s.post e).arrays = s.arrays := rfl
@[simp] theorem post_work (s : State) (e : Ev) : (s.post e).work = s.work := rfl
@[simp] theorem post_agents (s : State) (e : Ev) : (s.post e).agents = s.agents := rfl
@[simp] theorem post_fabric (s : State) (e : Ev) : (s.post e).fabric = s.fabric := rfl
@[simp] theorem post_host (s : State) (e : Ev) : (s.post e).host = s.host := rfl
@[simp] theorem post_churn (s : State) (e : Ev) : (s.post e).churn = s.churn := rfl
@[simp] theorem post_mgmt (s : State) (e : Ev) : (s.post e).mgmt = s.mgmt := rfl

@[simp] theorem postFirst_part (s : State) (l : List Ev) : (s.postFirst l).part = s.part := rfl
@[simp] theorem postFirst_mem (s : State) (l : List Ev) : (s.postFirst l).mem = s.mem := rfl
@[simp] theorem postFirst_cores (s : State) (l : List Ev) : (s.postFirst l).cores = s.cores := rfl
@[simp] theorem postFirst_arrays (s : State) (l : List Ev) : (s.postFirst l).arrays = s.arrays := rfl
@[simp] theorem postFirst_work (s : State) (l : List Ev) : (s.postFirst l).work = s.work := rfl
@[simp] theorem postFirst_agents (s : State) (l : List Ev) : (s.postFirst l).agents = s.agents := rfl
@[simp] theorem postFirst_fabric (s : State) (l : List Ev) : (s.postFirst l).fabric = s.fabric := rfl
@[simp] theorem postFirst_host (s : State) (l : List Ev) : (s.postFirst l).host = s.host := rfl
@[simp] theorem postFirst_churn (s : State) (l : List Ev) : (s.postFirst l).churn = s.churn := rfl
@[simp] theorem postFirst_mgmt (s : State) (l : List Ev) : (s.postFirst l).mgmt = s.mgmt := rfl

@[simp] theorem after_part (s : State) (n : Nat) (e : Ev) : (s.after n e).part = s.part := rfl
@[simp] theorem after_mem (s : State) (n : Nat) (e : Ev) : (s.after n e).mem = s.mem := rfl
@[simp] theorem after_cores (s : State) (n : Nat) (e : Ev) : (s.after n e).cores = s.cores := rfl
@[simp] theorem after_arrays (s : State) (n : Nat) (e : Ev) : (s.after n e).arrays = s.arrays := rfl
@[simp] theorem after_work (s : State) (n : Nat) (e : Ev) : (s.after n e).work = s.work := rfl
@[simp] theorem after_agents (s : State) (n : Nat) (e : Ev) : (s.after n e).agents = s.agents := rfl
@[simp] theorem after_fabric (s : State) (n : Nat) (e : Ev) : (s.after n e).fabric = s.fabric := rfl
@[simp] theorem after_host (s : State) (n : Nat) (e : Ev) : (s.after n e).host = s.host := rfl
@[simp] theorem after_churn (s : State) (n : Nat) (e : Ev) : (s.after n e).churn = s.churn := rfl
@[simp] theorem after_mgmt (s : State) (n : Nat) (e : Ev) : (s.after n e).mgmt = s.mgmt := rfl

@[simp] theorem untimer_part (s : State) (e : Ev) : (s.untimer e).part = s.part := rfl
@[simp] theorem untimer_mem (s : State) (e : Ev) : (s.untimer e).mem = s.mem := rfl
@[simp] theorem untimer_cores (s : State) (e : Ev) : (s.untimer e).cores = s.cores := rfl
@[simp] theorem untimer_arrays (s : State) (e : Ev) : (s.untimer e).arrays = s.arrays := rfl
@[simp] theorem untimer_work (s : State) (e : Ev) : (s.untimer e).work = s.work := rfl
@[simp] theorem untimer_agents (s : State) (e : Ev) : (s.untimer e).agents = s.agents := rfl
@[simp] theorem untimer_fabric (s : State) (e : Ev) : (s.untimer e).fabric = s.fabric := rfl
@[simp] theorem untimer_host (s : State) (e : Ev) : (s.untimer e).host = s.host := rfl
@[simp] theorem untimer_churn (s : State) (e : Ev) : (s.untimer e).churn = s.churn := rfl
@[simp] theorem untimer_mgmt (s : State) (e : Ev) : (s.untimer e).mgmt = s.mgmt := rfl

@[simp] theorem send_part (s : State) (src dst : Nat) (e : Ev) : (s.send src dst e).part = s.part := rfl
@[simp] theorem send_mem (s : State) (src dst : Nat) (e : Ev) : (s.send src dst e).mem = s.mem := rfl
@[simp] theorem send_cores (s : State) (src dst : Nat) (e : Ev) : (s.send src dst e).cores = s.cores := rfl
@[simp] theorem send_arrays (s : State) (src dst : Nat) (e : Ev) : (s.send src dst e).arrays = s.arrays := rfl
@[simp] theorem send_work (s : State) (src dst : Nat) (e : Ev) : (s.send src dst e).work = s.work := rfl
@[simp] theorem send_agents (s : State) (src dst : Nat) (e : Ev) : (s.send src dst e).agents = s.agents := rfl
@[simp] theorem send_fabric (s : State) (src dst : Nat) (e : Ev) : (s.send src dst e).fabric = s.fabric := rfl
@[simp] theorem send_host (s : State) (src dst : Nat) (e : Ev) : (s.send src dst e).host = s.host := rfl
@[simp] theorem send_churn (s : State) (src dst : Nat) (e : Ev) : (s.send src dst e).churn = s.churn := rfl
@[simp] theorem send_mgmt (s : State) (src dst : Nat) (e : Ev) : (s.send src dst e).mgmt = s.mgmt := rfl

@[simp] theorem arrive_part (s : State) (e : Ev) : (s.arrive e).part = s.part := rfl
@[simp] theorem arrive_mem (s : State) (e : Ev) : (s.arrive e).mem = s.mem := rfl
@[simp] theorem arrive_cores (s : State) (e : Ev) : (s.arrive e).cores = s.cores := rfl
@[simp] theorem arrive_arrays (s : State) (e : Ev) : (s.arrive e).arrays = s.arrays := rfl
@[simp] theorem arrive_work (s : State) (e : Ev) : (s.arrive e).work = s.work := rfl
@[simp] theorem arrive_agents (s : State) (e : Ev) : (s.arrive e).agents = s.agents := rfl
@[simp] theorem arrive_fabric (s : State) (e : Ev) : (s.arrive e).fabric = s.fabric := rfl
@[simp] theorem arrive_host (s : State) (e : Ev) : (s.arrive e).host = s.host := rfl
@[simp] theorem arrive_churn (s : State) (e : Ev) : (s.arrive e).churn = s.churn := rfl
@[simp] theorem arrive_mgmt (s : State) (e : Ev) : (s.arrive e).mgmt = s.mgmt := rfl

@[simp] theorem emit_part (s : State) (o : Out) : (s.emit o).part = s.part := rfl
@[simp] theorem emit_mem (s : State) (o : Out) : (s.emit o).mem = s.mem := rfl
@[simp] theorem emit_cores (s : State) (o : Out) : (s.emit o).cores = s.cores := rfl
@[simp] theorem emit_arrays (s : State) (o : Out) : (s.emit o).arrays = s.arrays := rfl
@[simp] theorem emit_work (s : State) (o : Out) : (s.emit o).work = s.work := rfl
@[simp] theorem emit_agents (s : State) (o : Out) : (s.emit o).agents = s.agents := rfl
@[simp] theorem emit_fabric (s : State) (o : Out) : (s.emit o).fabric = s.fabric := rfl
@[simp] theorem emit_host (s : State) (o : Out) : (s.emit o).host = s.host := rfl
@[simp] theorem emit_churn (s : State) (o : Out) : (s.emit o).churn = s.churn := rfl
@[simp] theorem emit_mgmt (s : State) (o : Out) : (s.emit o).mgmt = s.mgmt := rfl

/-! ## Reading cores and slots after a part has changed -/

@[simp] theorem setSched_coreAt (s : State) (x : Sched) (k : Nat) : (s.setSched x).coreAt k = s.coreAt k := rfl
@[simp] theorem setSched_slotAt (s : State) (x : Sched) (id : SlotId) : (s.setSched x).slotAt id = s.slotAt id := rfl
@[simp] theorem setMem_coreAt (s : State) (x : Mem) (k : Nat) : (s.setMem x).coreAt k = s.coreAt k := rfl
@[simp] theorem setMem_slotAt (s : State) (x : Mem) (id : SlotId) : (s.setMem x).slotAt id = s.slotAt id := rfl
@[simp] theorem setWork_coreAt (s : State) (x : Work) (k : Nat) : (s.setWork x).coreAt k = s.coreAt k := rfl
@[simp] theorem setWork_slotAt (s : State) (x : Work) (id : SlotId) : (s.setWork x).slotAt id = s.slotAt id := rfl
@[simp] theorem setAgents_coreAt (s : State) (x : Agents) (k : Nat) : (s.setAgents x).coreAt k = s.coreAt k := rfl
@[simp] theorem setAgents_slotAt (s : State) (x : Agents) (id : SlotId) : (s.setAgents x).slotAt id = s.slotAt id := rfl
@[simp] theorem setFabric_coreAt (s : State) (x : Fabric) (k : Nat) : (s.setFabric x).coreAt k = s.coreAt k := rfl
@[simp] theorem setFabric_slotAt (s : State) (x : Fabric) (id : SlotId) : (s.setFabric x).slotAt id = s.slotAt id := rfl
@[simp] theorem setHost_coreAt (s : State) (x : HostIf) (k : Nat) : (s.setHost x).coreAt k = s.coreAt k := rfl
@[simp] theorem setHost_slotAt (s : State) (x : HostIf) (id : SlotId) : (s.setHost x).slotAt id = s.slotAt id := rfl
@[simp] theorem setChurn_coreAt (s : State) (x : Churn) (k : Nat) : (s.setChurn x).coreAt k = s.coreAt k := rfl
@[simp] theorem setChurn_slotAt (s : State) (x : Churn) (id : SlotId) : (s.setChurn x).slotAt id = s.slotAt id := rfl
@[simp] theorem setMgmt_coreAt (s : State) (x : Mgmt) (k : Nat) : (s.setMgmt x).coreAt k = s.coreAt k := rfl
@[simp] theorem setMgmt_slotAt (s : State) (x : Mgmt) (id : SlotId) : (s.setMgmt x).slotAt id = s.slotAt id := rfl

end Sys2Proof.Machine
end

