-- ==== Sys2Proof/Laws/Maps.lean ====
section
/-! SUPPORT. Reading a map after a write, and cores and slots after theirs. -/

namespace Sys2Proof.Machine

theorem mget?_mput_self {α : Type} (m : Map α) (k : Nat) (v : α) : mget? (mput m k v) k = some v := by
  induction m with
  | nil => simp [mput, mget?]
  | cons x m ih =>
    obtain ⟨j, w⟩ := x
    simp only [mput]
    split
    · simp [mget?]
    · split
      · simp [mget?]
      · rename_i h1 h2
        simp [mget?, h1, h2, ih]

theorem mget?_mput_ne {α : Type} (m : Map α) (k k' : Nat) (v : α) (h : k' ≠ k) :
    mget? (mput m k v) k' = mget? m k' := by
  induction m with
  | nil => simp [mput, mget?, h]
  | cons x m ih =>
    obtain ⟨j, w⟩ := x
    simp only [mput]
    split
    · rename_i hj
      subst hj
      simp [mget?, h]
    · split
      · rename_i h1 h2
        simp only [mget?, if_neg h]
        by_cases h3 : k' < k
        · rw [if_pos h3, if_neg (by omega), if_pos (by omega)]
        · rw [if_neg h3]
      · simp only [mget?, ih]

theorem mget_mput_self {α : Type} (m : Map α) (k : Nat) (v d : α) : mget (mput m k v) k d = v := by
  simp [mget, mget?_mput_self]

theorem mget_mput_ne {α : Type} (m : Map α) (k k' : Nat) (v d : α) (h : k' ≠ k) :
    mget (mput m k v) k' d = mget m k' d := by
  simp [mget, mget?_mput_ne m k k' v h]

@[simp] theorem setCore_coreAt_self (s : State) (k : Nat) (c : Core) : (s.setCore k c).coreAt k = c :=
  mget_mput_self _ _ _ _

theorem setCore_coreAt_ne (s : State) (k k' : Nat) (c : Core) (h : k' ≠ k) :
    (s.setCore k c).coreAt k' = s.coreAt k' :=
  mget_mput_ne _ _ _ _ _ h

@[simp] theorem setSlot_slotAt_self (s : State) (id : SlotId) (sl : Slot) : (s.setSlot id sl).slotAt id = sl := by
  simp [State.setSlot, State.slotAt, Core.slotAt, mget_mput_self]

theorem setSlot_slotAt_ne (s : State) (id id' : SlotId) (sl : Slot) (h : id' ≠ id) :
    (s.setSlot id sl).slotAt id' = s.slotAt id' := by
  obtain ⟨k, n⟩ := id
  obtain ⟨k', n'⟩ := id'
  simp only [State.setSlot, State.slotAt, Core.slotAt]
  by_cases hk : k' = k
  · subst hk
    have hn : n' ≠ n := fun e => h (by rw [e])
    rw [setCore_coreAt_self]
    exact mget_mput_ne _ _ _ _ _ hn
  · rw [setCore_coreAt_ne _ _ _ _ hk]

/-- A core other than the slot's is left as it was. -/
theorem setSlot_coreAt_ne (s : State) (id : SlotId) (sl : Slot) (k : Nat) (h : k ≠ id.core) :
    (s.setSlot id sl).coreAt k = s.coreAt k :=
  setCore_coreAt_ne _ _ _ _ h

/-- The slot's own core keeps everything but its slots. -/
theorem setSlot_coreAt_self (s : State) (id : SlotId) (sl : Slot) :
    (s.setSlot id sl).coreAt id.core = { s.coreAt id.core with slots := mput (s.coreAt id.core).slots id.slot sl } := by
  simp [State.setSlot]

@[simp] theorem setMe_me (s : State) (sl : Slot) : (s.setMe sl).me = sl :=
  setSlot_slotAt_self _ _ _

end Sys2Proof.Machine
end

