-- ==== Sys2Proof/Laws/Memory.lean ====
section
/-! SUPPORT. Memory: a write keeps the canonical form, a read after a write, and equal memories are equal lists. -/

namespace Sys2Proof.Machine

/-- The canonical form of a tail, above an address. -/
theorem wf_cons (a : Nat) (b : Byte) (m : List Host.Cell) :
    Memory.wf ((a, b) :: m) = true ↔ b ≠ 0 ∧ Memory.wf m = true ∧ ∀ x ∈ m.head?, a < x.1 := by
  cases m with
  | nil => simp [Memory.wf]
  | cons x m =>
    obtain ⟨a', b'⟩ := x
    simp [Memory.wf]
    tauto

theorem wf_all (a : Nat) (b : Byte) (m : List Host.Cell) (h : Memory.wf ((a, b) :: m) = true) :
    ∀ x ∈ m, a < x.1 := by
  induction m generalizing a b with
  | nil => simp
  | cons x m ih =>
    obtain ⟨a', b'⟩ := x
    obtain ⟨_, h2, h3⟩ := (wf_cons _ _ _).1 h
    have ha : a < a' := h3 (a', b') (by simp)
    intro y hy
    rcases List.mem_cons.1 hy with rfl | hy
    · exact ha
    · exact Nat.lt_trans ha (ih a' b' h2 y hy)

theorem byteAt_below (m : List Host.Cell) (a : Nat) (h : ∀ x ∈ m, a < x.1) : byteAt m a = 0 := by
  cases m with
  | nil => rfl
  | cons x m =>
    obtain ⟨j, b⟩ := x
    have hj : a < j := h (j, b) (by simp)
    simp [byteAt, Nat.ne_of_lt hj, hj]

theorem head_setByte (m : List Host.Cell) (a : Nat) (v : Byte) (j : Nat) (hj : j < a)
    (h : ∀ x ∈ m.head?, j < x.1) (hw : Memory.wf m = true) : ∀ x ∈ (setByte m a v).head?, j < x.1 := by
  cases m with
  | nil =>
    simp only [setByte]
    split <;> simp [hj]
  | cons y m =>
    obtain ⟨i, b⟩ := y
    have hi : j < i := h (i, b) (by simp)
    simp only [setByte]
    split
    · split
      · intro x hx
        have := wf_all _ _ _ hw x (List.mem_of_mem_head? hx)
        omega
      · simp [hj]
    · split
      · split <;> simp [hi, hj]
      · simp [hi]

/-- Writing one byte keeps the canonical form. -/
theorem setByte_wf (m : List Host.Cell) (a : Nat) (v : Byte) (h : Memory.wf m = true) :
    Memory.wf (setByte m a v) = true := by
  induction m with
  | nil =>
    simp only [setByte]
    split
    · rfl
    · rename_i hv
      simpa [Memory.wf] using hv
  | cons x m ih =>
    obtain ⟨j, b⟩ := x
    obtain ⟨h1, h2, h3⟩ := (wf_cons _ _ _).1 h
    simp only [setByte]
    split
    · rename_i ha
      subst ha
      split
      · exact h2
      · rename_i hv
        exact (wf_cons _ _ _).2 ⟨hv, h2, h3⟩
    · split
      · rename_i hlt
        split
        · exact h
        · rename_i hv
          exact (wf_cons _ _ _).2 ⟨hv, h, by simpa using hlt⟩
      · exact (wf_cons _ _ _).2 ⟨h1, ih h2, head_setByte m a v j (by omega) h3 h2⟩

/-- Writing a run of bytes keeps the canonical form. -/
theorem setBytes_wf (m : List Host.Cell) (a : Nat) (l : List Byte) (h : Memory.wf m = true) :
    Memory.wf (setBytes m a l) = true := by
  induction l generalizing m a with
  | nil => exact h
  | cons b l ih => exact ih _ _ (setByte_wf _ _ _ h)

/-- A read at the address just written. -/
theorem byteAt_setByte_self (m : List Host.Cell) (a : Nat) (v : Byte) (h : Memory.wf m = true) :
    byteAt (setByte m a v) a = v := by
  induction m with
  | nil =>
    simp only [setByte]
    split
    · rename_i hv
      simp [byteAt, hv]
    · simp [byteAt]
  | cons x m ih =>
    obtain ⟨j, b⟩ := x
    obtain ⟨_, h2, _⟩ := (wf_cons _ _ _).1 h
    simp only [setByte]
    split
    · rename_i ha
      subst ha
      split
      · rename_i hv
        rw [byteAt_below m a (wf_all _ _ _ h), hv]
      · simp [byteAt]
    · rename_i ha
      split
      · rename_i hlt
        split
        · rename_i hv
          simp [byteAt, ha, hlt, hv]
        · simp [byteAt]
      · rename_i hge
        simp [byteAt, ha, hge, ih h2]

/-- A read at any other address. -/
theorem byteAt_setByte_ne (m : List Host.Cell) (a a' : Nat) (v : Byte) (h : Memory.wf m = true) (hne : a' ≠ a) :
    byteAt (setByte m a v) a' = byteAt m a' := by
  induction m with
  | nil =>
    simp only [setByte]
    split
    · rfl
    · simp [byteAt, hne]
  | cons x m ih =>
    obtain ⟨j, b⟩ := x
    obtain ⟨_, h2, _⟩ := (wf_cons _ _ _).1 h
    simp only [setByte]
    split
    · rename_i ha
      subst ha
      split
      · simp only [byteAt, if_neg hne]
        split
        · rename_i hlt
          exact byteAt_below m a' (fun x hx => Nat.lt_trans hlt (wf_all _ _ _ h x hx))
        · rfl
      · simp [byteAt, hne]
    · rename_i ha
      split
      · rename_i hlt
        split
        · rfl
        · by_cases h1 : a' < a
          · have h4 : a' ≠ j := by omega
            have h5 : a' < j := by omega
            simp [byteAt, hne, h1, h4, h5]
          · simp [byteAt, hne, h1]
      · simp only [byteAt, ih h2]

/-- A run of bytes leaves every address outside it alone. -/
theorem byteAt_setBytes_out (m : List Host.Cell) (a a' : Nat) (l : List Byte) (h : Memory.wf m = true)
    (ho : a' < a ∨ a + l.length ≤ a') : byteAt (setBytes m a l) a' = byteAt m a' := by
  induction l generalizing m a with
  | nil => rfl
  | cons b l ih =>
    have hlen : (b :: l).length = l.length + 1 := rfl
    simp only [setBytes]
    rw [ih _ _ (setByte_wf _ _ _ h) (by omega), byteAt_setByte_ne _ _ _ _ h (by omega)]

/-- A run of bytes is read back. -/
theorem byteAt_setBytes_in (m : List Host.Cell) (a i : Nat) (l : List Byte) (h : Memory.wf m = true)
    (hi : i < l.length) : byteAt (setBytes m a l) (a + i) = l[i] := by
  induction l generalizing m a i with
  | nil => simp at hi
  | cons b l ih =>
    simp only [setBytes]
    cases i with
    | zero =>
      rw [byteAt_setBytes_out _ _ _ _ (setByte_wf _ _ _ h) (by omega)]
      simpa using byteAt_setByte_self m a b h
    | succ i =>
      have := ih (setByte m a b) (a + 1) i (setByte_wf _ _ _ h) (by simpa using hi)
      rw [show a + (i + 1) = a + 1 + i by omega]
      simpa using this

/-- The n bytes at an address, one by one. -/
theorem bytesAt_get (m : List Host.Cell) (a n i : Nat) (h : i < (bytesAt m a n).length) :
    (bytesAt m a n)[i] = byteAt m (a + i) := by
  induction n generalizing a i with
  | zero => simp [bytesAt] at h
  | succ n ih =>
    cases i with
    | zero => simp [bytesAt]
    | succ i => simp [bytesAt, ih, Nat.add_assoc, Nat.add_comm 1 i]

@[simp] theorem bytesAt_length (m : List Host.Cell) (a n : Nat) : (bytesAt m a n).length = n := by
  induction n generalizing a with
  | zero => rfl
  | succ n ih => simp [bytesAt, ih]

/-- A run of bytes read where it was written. -/
theorem bytesAt_setBytes (m : List Host.Cell) (a : Nat) (l : List Byte) (h : Memory.wf m = true) :
    bytesAt (setBytes m a l) a l.length = l := by
  apply List.ext_getElem (by simp)
  intro i h1 h2
  rw [bytesAt_get, byteAt_setBytes_in m a i l h h2]

/-- Two memories in canonical form that read alike are the same list. -/
theorem memory_ext (m m' : List Host.Cell) (h : Memory.wf m = true) (h' : Memory.wf m' = true)
    (e : ∀ a, byteAt m a = byteAt m' a) : m = m' := by
  induction m generalizing m' with
  | nil =>
    cases m' with
    | nil => rfl
    | cons x m' =>
      obtain ⟨j, b⟩ := x
      have := e j
      simp [byteAt] at this
      exact absurd this.symm ((wf_cons _ _ _).1 h').1
  | cons x m ih =>
    obtain ⟨j, b⟩ := x
    obtain ⟨hb, hm, _⟩ := (wf_cons _ _ _).1 h
    cases m' with
    | nil =>
      have := e j
      simp [byteAt] at this
      exact absurd this hb
    | cons y m' =>
      obtain ⟨i, c⟩ := y
      obtain ⟨hc, hm', _⟩ := (wf_cons _ _ _).1 h'
      have hij : j = i := by
        rcases Nat.lt_trichotomy j i with hlt | rfl | hlt
        · have := e j
          simp [byteAt, Nat.ne_of_lt hlt, hlt] at this
          exact absurd this hb
        · rfl
        · have := e i
          simp [byteAt, Nat.ne_of_lt hlt, hlt] at this
          exact absurd this.symm hc
      subst hij
      have hbc : b = c := by simpa [byteAt] using e j
      subst hbc
      rw [ih m' hm hm' (fun a => by
        by_cases ha : a ≤ j
        · rw [byteAt_below m a (fun x hx => Nat.lt_of_le_of_lt ha (wf_all _ _ _ h x hx)),
            byteAt_below m' a (fun x hx => Nat.lt_of_le_of_lt ha (wf_all _ _ _ h' x hx))]
        · have := e a
          simpa [byteAt, show a ≠ j by omega, show ¬ a < j by omega] using this)]

/-- The bytes of a number, read back as a number. -/
theorem bytesNat_natBytes (k n : Nat) : bytesNat (natBytes k n) = n % 256 ^ k := by
  induction k generalizing n with
  | zero => simp [natBytes, bytesNat, Nat.mod_one]
  | succ k ih =>
    simp only [natBytes, bytesNat, ih, BitVec.toNat_ofNat]
    rw [pow_succ 256 k, Nat.mul_comm (256 ^ k) 256, Nat.mod_mul]

@[simp] theorem natBytes_length (k n : Nat) : (natBytes k n).length = k := by
  induction k generalizing n with
  | zero => rfl
  | succ k ih => simp [natBytes, ih]

/-- Putting a line under another key changes the cells, if at all, by one run of bytes. -/
theorem rekey_cells (m : Mem) (key line : Nat) :
    (m.rekey key line).cells = m.cells ∨ ∃ l, (m.rekey key line).cells = setBytes m.cells (line * 64) l := by
  unfold Mem.rekey
  cases encrypted (region (line * 64)) with
  | false => exact Or.inl rfl
  | true =>
    cases mget? m.keys line with
    | none =>
      by_cases hk : key = 0
      · simp [hk]
      · simp [hk]
    | some k =>
      by_cases hk : k = key
      · simp [hk]
      · exact Or.inr ⟨m.read key (line * 64) 64, by simp [hk]⟩

/-- Putting a line under another key keeps the canonical form. -/
theorem rekey_wf (m : Mem) (key line : Nat) (h : Memory.wf m.cells = true) :
    Memory.wf (m.rekey key line).cells = true := by
  rcases rekey_cells m key line with e | ⟨l, e⟩
  · rw [e]; exact h
  · rw [e]; exact setBytes_wf _ _ _ h

/-- Every write of a run under a key keeps the canonical form. -/
theorem write_wf (m : Mem) (key pa : Nat) (l : List Byte) (h : Memory.wf m.cells = true) :
    Memory.wf (m.write key pa l).cells = true := by
  show Memory.wf (setBytes (m.rekey key (pa / 64)).cells pa l) = true
  exact setBytes_wf _ _ _ (rekey_wf m key (pa / 64) h)

end Sys2Proof.Machine
end

