-- ==== Sys2Proof/Laws/Dispatch.lean ====
section
/-! SUPPORT. What the dispatch table answers for each instruction, one lemma an arm. -/

namespace Sys2Proof.Machine

open Sys2Proof

@[simp] theorem exec_nop {s : State} : exec (.nop) s = execNop s := rfl
@[simp] theorem exec_trap {n} {a} {s : State} : exec (.trap n a) s = execTrap n a s := rfl
@[simp] theorem exec_bkpt {s : State} : exec (.bkpt) s = execBkpt s := rfl
@[simp] theorem exec_stamp {d} {s : State} : exec (.stamp d) s = execStamp d s := rfl
@[simp] theorem exec_feat {d} {sel} {s : State} : exec (.feat d sel) s = execFeat d sel s := rfl
@[simp] theorem exec_impl {d} {sel} {s : State} : exec (.impl d sel) s = execImpl d sel s := rfl
@[simp] theorem exec_srr {d} {n} {s : State} : exec (.srr d n) s = execSrr d n s := rfl
@[simp] theorem exec_add {o} {w} {s : State} : exec (.add o w) s = execAdd o w s := rfl
@[simp] theorem exec_sub {o} {w} {s : State} : exec (.sub o w) s = execSub o w s := rfl
@[simp] theorem exec_mul {o} {w} {s : State} : exec (.mul o w) s = execMul o w s := rfl
@[simp] theorem exec_mulh {o} {w} {s : State} : exec (.mulh o w) s = execMulh o w s := rfl
@[simp] theorem exec_mulhn {o} {w} {s : State} : exec (.mulhn o w) s = execMulhn o w s := rfl
@[simp] theorem exec_madd {o} {w} {s : State} : exec (.madd o w) s = execMadd o w s := rfl
@[simp] theorem exec_div {o} {w} {s : State} : exec (.div o w) s = execDiv o w s := rfl
@[simp] theorem exec_divn {o} {w} {s : State} : exec (.divn o w) s = execDivn o w s := rfl
@[simp] theorem exec_rem {o} {w} {s : State} : exec (.rem o w) s = execRem o w s := rfl
@[simp] theorem exec_remn {o} {w} {s : State} : exec (.remn o w) s = execRemn o w s := rfl
@[simp] theorem exec_min {o} {w} {s : State} : exec (.min o w) s = execMin o w s := rfl
@[simp] theorem exec_max {o} {w} {s : State} : exec (.max o w) s = execMax o w s := rfl
@[simp] theorem exec_minn {o} {w} {s : State} : exec (.minn o w) s = execMinn o w s := rfl
@[simp] theorem exec_maxn {o} {w} {s : State} : exec (.maxn o w) s = execMaxn o w s := rfl
@[simp] theorem exec_abs {o} {w} {s : State} : exec (.abs o w) s = execAbs o w s := rfl
@[simp] theorem exec_and {o} {s : State} : exec (.and o) s = execAnd o s := rfl
@[simp] theorem exec_or {o} {s : State} : exec (.or o) s = execOr o s := rfl
@[simp] theorem exec_xor {o} {s : State} : exec (.xor o) s = execXor o s := rfl
@[simp] theorem exec_andn {o} {s : State} : exec (.andn o) s = execAndn o s := rfl
@[simp] theorem exec_orn {o} {s : State} : exec (.orn o) s = execOrn o s := rfl
@[simp] theorem exec_xnor {o} {s : State} : exec (.xnor o) s = execXnor o s := rfl
@[simp] theorem exec_shl {o} {w} {s : State} : exec (.shl o w) s = execShl o w s := rfl
@[simp] theorem exec_shr {o} {w} {s : State} : exec (.shr o w) s = execShr o w s := rfl
@[simp] theorem exec_sar {o} {w} {s : State} : exec (.sar o w) s = execSar o w s := rfl
@[simp] theorem exec_rol {o} {w} {s : State} : exec (.rol o w) s = execRol o w s := rfl
@[simp] theorem exec_ror {o} {w} {s : State} : exec (.ror o w) s = execRor o w s := rfl
@[simp] theorem exec_clz {o} {w} {s : State} : exec (.clz o w) s = execClz o w s := rfl
@[simp] theorem exec_ctz {o} {w} {s : State} : exec (.ctz o w) s = execCtz o w s := rfl
@[simp] theorem exec_popc {o} {w} {s : State} : exec (.popc o w) s = execPopc o w s := rfl
@[simp] theorem exec_brev {o} {s : State} : exec (.brev o) s = execBrev o s := rfl
@[simp] theorem exec_bswap {o} {s : State} : exec (.bswap o) s = execBswap o s := rfl
@[simp] theorem exec_sext {o} {w} {s : State} : exec (.sext o w) s = execSext o w s := rfl
@[simp] theorem exec_zext {o} {w} {s : State} : exec (.zext o w) s = execZext o w s := rfl
@[simp] theorem exec_bext {o} {s : State} : exec (.bext o) s = execBext o s := rfl
@[simp] theorem exec_bins {o} {s : State} : exec (.bins o) s = execBins o s := rfl
@[simp] theorem exec_addsc {o} {w} {s : State} : exec (.addsc o w) s = execAddsc o w s := rfl
@[simp] theorem exec_cmpeq {o} {w} {s : State} : exec (.cmpeq o w) s = execCmpeq o w s := rfl
@[simp] theorem exec_cmpne {o} {w} {s : State} : exec (.cmpne o w) s = execCmpne o w s := rfl
@[simp] theorem exec_cmplt {o} {w} {s : State} : exec (.cmplt o w) s = execCmplt o w s := rfl
@[simp] theorem exec_cmpltn {o} {w} {s : State} : exec (.cmpltn o w) s = execCmpltn o w s := rfl
@[simp] theorem exec_cmple {o} {w} {s : State} : exec (.cmple o w) s = execCmple o w s := rfl
@[simp] theorem exec_cmplen {o} {w} {s : State} : exec (.cmplen o w) s = execCmplen o w s := rfl
@[simp] theorem exec_sel {o} {s : State} : exec (.sel o) s = execSel o s := rfl
@[simp] theorem exec_addi {o} {s : State} : exec (.addi o) s = execAddi o s := rfl
@[simp] theorem exec_andi {o} {s : State} : exec (.andi o) s = execAndi o s := rfl
@[simp] theorem exec_ori {o} {s : State} : exec (.ori o) s = execOri o s := rfl
@[simp] theorem exec_xori {o} {s : State} : exec (.xori o) s = execXori o s := rfl
@[simp] theorem exec_shli {o} {s : State} : exec (.shli o) s = execShli o s := rfl
@[simp] theorem exec_shri {o} {s : State} : exec (.shri o) s = execShri o s := rfl
@[simp] theorem exec_sari {o} {s : State} : exec (.sari o) s = execSari o s := rfl
@[simp] theorem exec_cmpeqi {o} {s : State} : exec (.cmpeqi o) s = execCmpeqi o s := rfl
@[simp] theorem exec_cmplti {o} {s : State} : exec (.cmplti o) s = execCmplti o s := rfl
@[simp] theorem exec_muli {o} {s : State} : exec (.muli o) s = execMuli o s := rfl
@[simp] theorem exec_ldi {d} {imm} {s : State} : exec (.ldi d imm) s = execLdi d imm s := rfl
@[simp] theorem exec_ldih {d} {imm} {s : State} : exec (.ldih d imm) s = execLdih d imm s := rfl
@[simp] theorem exec_fadd {o} {rm} {f} {s : State} : exec (.fadd o rm f) s = execFadd o rm f s := rfl
@[simp] theorem exec_fsub {o} {rm} {f} {s : State} : exec (.fsub o rm f) s = execFsub o rm f s := rfl
@[simp] theorem exec_fmul {o} {rm} {f} {s : State} : exec (.fmul o rm f) s = execFmul o rm f s := rfl
@[simp] theorem exec_ffma {o} {rm} {f} {s : State} : exec (.ffma o rm f) s = execFfma o rm f s := rfl
@[simp] theorem exec_fmin {o} {f} {s : State} : exec (.fmin o f) s = execFmin o f s := rfl
@[simp] theorem exec_fmax {o} {f} {s : State} : exec (.fmax o f) s = execFmax o f s := rfl
@[simp] theorem exec_fdiv {o} {rm} {f} {s : State} : exec (.fdiv o rm f) s = execFdiv o rm f s := rfl
@[simp] theorem exec_fsqrt {o} {rm} {f} {s : State} : exec (.fsqrt o rm f) s = execFsqrt o rm f s := rfl
@[simp] theorem exec_fabs {o} {f} {s : State} : exec (.fabs o f) s = execFabs o f s := rfl
@[simp] theorem exec_fneg {o} {f} {s : State} : exec (.fneg o f) s = execFneg o f s := rfl
@[simp] theorem exec_fcpys {o} {f} {s : State} : exec (.fcpys o f) s = execFcpys o f s := rfl
@[simp] theorem exec_fcmpeq {o} {f} {s : State} : exec (.fcmpeq o f) s = execFcmpeq o f s := rfl
@[simp] theorem exec_fcmplt {o} {f} {s : State} : exec (.fcmplt o f) s = execFcmplt o f s := rfl
@[simp] theorem exec_fcmple {o} {f} {s : State} : exec (.fcmple o f) s = execFcmple o f s := rfl
@[simp] theorem exec_fcmpun {o} {f} {s : State} : exec (.fcmpun o f) s = execFcmpun o f s := rfl
@[simp] theorem exec_fclass {o} {f} {s : State} : exec (.fclass o f) s = execFclass o f s := rfl
@[simp] theorem exec_fcvt {o} {x} {rm} {f} {s : State} : exec (.fcvt o x rm f) s = execFcvt o x rm f s := rfl
@[simp] theorem exec_fcvti {o} {x} {rm} {f} {s : State} : exec (.fcvti o x rm f) s = execFcvti o x rm f s := rfl
@[simp] theorem exec_icvtf {o} {x} {rm} {f} {s : State} : exec (.icvtf o x rm f) s = execIcvtf o x rm f s := rfl
@[simp] theorem exec_frnd {o} {rm} {f} {s : State} : exec (.frnd o rm f) s = execFrnd o rm f s := rfl
@[simp] theorem exec_br {disp} {s : State} : exec (.br disp) s = execBr disp s := rfl
@[simp] theorem exec_call {d} {disp} {s : State} : exec (.call d disp) s = execCall d disp s := rfl
@[simp] theorem exec_brz {a} {disp} {s : State} : exec (.brz a disp) s = execBrz a disp s := rfl
@[simp] theorem exec_brnz {a} {disp} {s : State} : exec (.brnz a disp) s = execBrnz a disp s := rfl
@[simp] theorem exec_brltz {a} {disp} {s : State} : exec (.brltz a disp) s = execBrltz a disp s := rfl
@[simp] theorem exec_brgez {a} {disp} {s : State} : exec (.brgez a disp) s = execBrgez a disp s := rfl
@[simp] theorem exec_brbit {a} {bit} {disp} {s : State} : exec (.brbit a bit disp) s = execBrbit a bit disp s := rfl
@[simp] theorem exec_jmp {o} {s : State} : exec (.jmp o) s = execJmp o s := rfl
@[simp] theorem exec_nest {o} {s : State} : exec (.nest o) s = execNest o s := rfl
@[simp] theorem exec_iter {d} {n} {s : State} : exec (.iter d n) s = execIter d n s := rfl
@[simp] theorem exec_ld {d} {base} {sb} {func3} {disp} {s : State} : exec (.ld d base sb func3 disp) s = execLd d base sb func3 disp s := rfl
@[simp] theorem exec_ldx {d} {base} {sb} {b} {s : State} : exec (.ldx d base sb b) s = execLdx d base sb b s := rfl
@[simp] theorem exec_st {d} {base} {sb} {size} {disp} {s : State} : exec (.st d base sb size disp) s = execSt d base sb size disp s := rfl
@[simp] theorem exec_stx {d} {base} {sb} {b} {s : State} : exec (.stx d base sb b) s = execStx d base sb b s := rfl
@[simp] theorem exec_ldf {o} {s : State} : exec (.ldf o) s = execLdf o s := rfl
@[simp] theorem exec_stf {o} {s : State} : exec (.stf o) s = execStf o s := rfl
@[simp] theorem exec_tagr {o} {s : State} : exec (.tagr o) s = execTagr o s := rfl
@[simp] theorem exec_tagwE {a} {sa} {s : State} : exec (.tagwE a sa) s = execTagwE a sa s := rfl
@[simp] theorem exec_tagwF {a} {sa} {s : State} : exec (.tagwF a sa) s = execTagwF a sa s := rfl
@[simp] theorem exec_ldacq {o} {scope} {s : State} : exec (.ldacq o scope) s = execLdacq o scope s := rfl
@[simp] theorem exec_strel {o} {scope} {s : State} : exec (.strel o scope) s = execStrel o scope s := rfl
@[simp] theorem exec_std {o} {size} {s : State} : exec (.std o size) s = execStd o size s := rfl
@[simp] theorem exec_home {s : State} : exec (.home) s = execHome s := rfl
@[simp] theorem exec_visit {a} {sa} {s : State} : exec (.visit a sa) s = execVisit a sa s := rfl
@[simp] theorem exec_amo {o} {aop} {width} {s : State} : exec (.amo o aop width) s = execAmo o aop width s := rfl
@[simp] theorem exec_cas {o} {s : State} : exec (.cas o) s = execCas o s := rfl
@[simp] theorem exec_cas2 {o} {s : State} : exec (.cas2 o) s = execCas2 o s := rfl
@[simp] theorem exec_red {o} {op} {ty} {s : State} : exec (.red o op ty) s = execRed o op ty s := rfl
@[simp] theorem exec_fence {kind} {scope} {s : State} : exec (.fence kind scope) s = execFence kind scope s := rfl
@[simp] theorem exec_promote {a} {sa} {s : State} : exec (.promote a sa) s = execPromote a sa s := rfl
@[simp] theorem exec_phase {o} {s : State} : exec (.phase o) s = execPhase o s := rfl
@[simp] theorem exec_ackw {scope} {s : State} : exec (.ackw scope) s = execAckw scope s := rfl
@[simp] theorem exec_barjoin {o} {s : State} : exec (.barjoin o) s = execBarjoin o s := rfl
@[simp] theorem exec_barleave {o} {s : State} : exec (.barleave o) s = execBarleave o s := rfl
@[simp] theorem exec_bararr {o} {scope} {s : State} : exec (.bararr o scope) s = execBararr o scope s := rfl
@[simp] theorem exec_bararn {o} {scope} {s : State} : exec (.bararn o scope) s = execBararn o scope s := rfl
@[simp] theorem exec_lds {o} {s : State} : exec (.lds o) s = execLds o s := rfl
@[simp] theorem exec_ldsN {o} {s : State} : exec (.ldsN o) s = execLdsN o s := rfl
@[simp] theorem exec_sts {o} {s : State} : exec (.sts o) s = execSts o s := rfl
@[simp] theorem exec_ldbit {d} {sx} {step} {p} {len} {s : State} : exec (.ldbit d sx step p len) s = execLdbit d sx step p len s := rfl
@[simp] theorem exec_stbit {d} {step} {p} {len} {s : State} : exec (.stbit d step p len) s = execStbit d step p len s := rfl
@[simp] theorem exec_pset {d} {p} {s : State} : exec (.pset d p) s = execPset d p s := rfl
@[simp] theorem exec_pget {d} {p} {s : State} : exec (.pget d p) s = execPget d p s := rfl
@[simp] theorem exec_rowtagR {d} {base} {sb} {s : State} : exec (.rowtagR d base sb) s = execRowtagR d base sb s := rfl
@[simp] theorem exec_rowtagF {base} {sb} {s : State} : exec (.rowtagF base sb) s = execRowtagF base sb s := rfl
@[simp] theorem exec_rowtagE {base} {sb} {s : State} : exec (.rowtagE base sb) s = execRowtagE base sb s := rfl
@[simp] theorem exec_rowtagC {base} {sb} {s : State} : exec (.rowtagC base sb) s = execRowtagC base sb s := rfl
@[simp] theorem exec_vadd {v} {ty} {s : State} : exec (.vadd v ty) s = execVadd v ty s := rfl
@[simp] theorem exec_vsub {v} {ty} {s : State} : exec (.vsub v ty) s = execVsub v ty s := rfl
@[simp] theorem exec_vmul {v} {ty} {s : State} : exec (.vmul v ty) s = execVmul v ty s := rfl
@[simp] theorem exec_vfma {v} {ty} {s : State} : exec (.vfma v ty) s = execVfma v ty s := rfl
@[simp] theorem exec_vmin {v} {ty} {s : State} : exec (.vmin v ty) s = execVmin v ty s := rfl
@[simp] theorem exec_vmax {v} {ty} {s : State} : exec (.vmax v ty) s = execVmax v ty s := rfl
@[simp] theorem exec_vabs {v} {ty} {s : State} : exec (.vabs v ty) s = execVabs v ty s := rfl
@[simp] theorem exec_vneg {v} {ty} {s : State} : exec (.vneg v ty) s = execVneg v ty s := rfl
@[simp] theorem exec_vaddSat {v} {ty} {s : State} : exec (.vaddSat v ty) s = execVaddSat v ty s := rfl
@[simp] theorem exec_vsubSat {v} {ty} {s : State} : exec (.vsubSat v ty) s = execVsubSat v ty s := rfl
@[simp] theorem exec_vand {v} {s : State} : exec (.vand v) s = execVand v s := rfl
@[simp] theorem exec_vor {v} {s : State} : exec (.vor v) s = execVor v s := rfl
@[simp] theorem exec_vxor {v} {s : State} : exec (.vxor v) s = execVxor v s := rfl
@[simp] theorem exec_vshl {v} {ty} {s : State} : exec (.vshl v ty) s = execVshl v ty s := rfl
@[simp] theorem exec_vshr {v} {ty} {s : State} : exec (.vshr v ty) s = execVshr v ty s := rfl
@[simp] theorem exec_vshlS {v} {ty} {g} {s : State} : exec (.vshlS v ty g) s = execVshlS v ty g s := rfl
@[simp] theorem exec_vshrS {v} {ty} {g} {s : State} : exec (.vshrS v ty g) s = execVshrS v ty g s := rfl
@[simp] theorem exec_vcmpEq {v} {ty} {s : State} : exec (.vcmpEq v ty) s = execVcmpEq v ty s := rfl
@[simp] theorem exec_vcmpNe {v} {ty} {s : State} : exec (.vcmpNe v ty) s = execVcmpNe v ty s := rfl
@[simp] theorem exec_vcmpLt {v} {ty} {s : State} : exec (.vcmpLt v ty) s = execVcmpLt v ty s := rfl
@[simp] theorem exec_vcmpLe {v} {ty} {s : State} : exec (.vcmpLe v ty) s = execVcmpLe v ty s := rfl
@[simp] theorem exec_vcmpUn {v} {ty} {s : State} : exec (.vcmpUn v ty) s = execVcmpUn v ty s := rfl
@[simp] theorem exec_vsel {v} {ty} {s : State} : exec (.vsel v ty) s = execVsel v ty s := rfl
@[simp] theorem exec_vcvt {v} {ty} {narrow} {k} {s : State} : exec (.vcvt v ty narrow k) s = execVcvt v ty narrow k s := rfl
@[simp] theorem exec_vdec {v} {ty} {k} {s : State} : exec (.vdec v ty k) s = execVdec v ty k s := rfl
@[simp] theorem exec_venc {v} {ty} {k} {s : State} : exec (.venc v ty k) s = execVenc v ty k s := rfl
@[simp] theorem exec_vscl {v} {ty} {g} {s : State} : exec (.vscl v ty g) s = execVscl v ty g s := rfl
@[simp] theorem exec_vsum {v} {ty} {s : State} : exec (.vsum v ty) s = execVsum v ty s := rfl
@[simp] theorem exec_vmaxr {v} {ty} {s : State} : exec (.vmaxr v ty) s = execVmaxr v ty s := rfl
@[simp] theorem exec_vexp {v} {s : State} : exec (.vexp v) s = execVexp v s := rfl
@[simp] theorem exec_vrcp {v} {s : State} : exec (.vrcp v) s = execVrcp v s := rfl
@[simp] theorem exec_vrsq {v} {s : State} : exec (.vrsq v) s = execVrsq v s := rfl
@[simp] theorem exec_vbcst {pd} {sd} {ty} {g} {s : State} : exec (.vbcst pd sd ty g) s = execVbcst pd sd ty g s := rfl
@[simp] theorem exec_vmov {v} {s : State} : exec (.vmov v) s = execVmov v s := rfl
@[simp] theorem exec_vperm {v} {ty} {s : State} : exec (.vperm v ty) s = execVperm v ty s := rfl
@[simp] theorem exec_vpack {v} {ty} {s : State} : exec (.vpack v ty) s = execVpack v ty s := rfl
@[simp] theorem exec_vunpackLo {v} {ty} {s : State} : exec (.vunpackLo v ty) s = execVunpackLo v ty s := rfl
@[simp] theorem exec_vunpackHi {v} {ty} {s : State} : exec (.vunpackHi v ty) s = execVunpackHi v ty s := rfl
@[simp] theorem exec_vmask {v} {ty} {s : State} : exec (.vmask v ty) s = execVmask v ty s := rfl
@[simp] theorem exec_movqPush {g} {q} {stampv} {func} {s : State} : exec (.movqPush g q stampv func) s = execMovqPush g q stampv func s := rfl
@[simp] theorem exec_movqPop {g} {q} {func} {s : State} : exec (.movqPop g q func) s = execMovqPop g q func s := rfl
@[simp] theorem exec_quit {s : State} : exec (.quit) s = execQuit s := rfl
@[simp] theorem exec_spawn {d} {a} {b} {sa} {s : State} : exec (.spawn d a b sa) s = execSpawn d a b sa s := rfl
@[simp] theorem exec_spawnw {d} {a} {b} {sa} {s : State} : exec (.spawnw d a b sa) s = execSpawnw d a b sa s := rfl
@[simp] theorem exec_post {o} {s : State} : exec (.post o) s = execPost o s := rfl
@[simp] theorem exec_launch {o} {s : State} : exec (.launch o) s = execLaunch o s := rfl
@[simp] theorem exec_graph {o} {s : State} : exec (.graph o) s = execGraph o s := rfl
@[simp] theorem exec_cancel {o} {s : State} : exec (.cancel o) s = execCancel o s := rfl
@[simp] theorem exec_joinw {o} {s : State} : exec (.joinw o) s = execJoinw o s := rfl
@[simp] theorem exec_send {a} {b} {sa} {s : State} : exec (.send a b sa) s = execSend a b sa s := rfl
@[simp] theorem exec_recv {d} {s : State} : exec (.recv d) s = execRecv d s := rfl
@[simp] theorem exec_recvp {d} {b} {sb} {s : State} : exec (.recvp d b sb) s = execRecvp d b sb s := rfl
@[simp] theorem exec_vtkey {d} {s : State} : exec (.vtkey d) s = execVtkey d s := rfl
@[simp] theorem exec_levee {d} {s : State} : exec (.levee d) s = execLevee d s := rfl
@[simp] theorem exec_irrev {a} {s : State} : exec (.irrev a) s = execIrrev a s := rfl
@[simp] theorem exec_sendvt {d} {a} {b} {sa} {s : State} : exec (.sendvt d a b sa) s = execSendvt d a b sa s := rfl
@[simp] theorem exec_callt {o} {s : State} : exec (.callt o) s = execCallt o s := rfl
@[simp] theorem exec_waitf {o} {s : State} : exec (.waitf o) s = execWaitf o s := rfl
@[simp] theorem exec_pollf {o} {s : State} : exec (.pollf o) s = execPollf o s := rfl
@[simp] theorem exec_canf {o} {s : State} : exec (.canf o) s = execCanf o s := rfl
@[simp] theorem exec_tokc {o} {s : State} : exec (.tokc o) s = execTokc o s := rfl
@[simp] theorem exec_tokenc {o} {s : State} : exec (.tokenc o) s = execTokenc o s := rfl
@[simp] theorem exec_tokdec {o} {s : State} : exec (.tokdec o) s = execTokdec o s := rfl
@[simp] theorem exec_maskq {o} {s : State} : exec (.maskq o) s = execMaskq o s := rfl
@[simp] theorem exec_lease {o} {s : State} : exec (.lease o) s = execLease o s := rfl
@[simp] theorem exec_leaserel {o} {s : State} : exec (.leaserel o) s = execLeaserel o s := rfl
@[simp] theorem exec_leaseq {o} {s : State} : exec (.leaseq o) s = execLeaseq o s := rfl
@[simp] theorem exec_eret {s : State} : exec (.eret) s = execEret s := rfl
@[simp] theorem exec_srw {d} {n} {s : State} : exec (.srw d n) s = execSrw d n s := rfl
@[simp] theorem exec_tlbiPage {o} {scope} {s : State} : exec (.tlbiPage o scope) s = execTlbiPage o scope s := rfl
@[simp] theorem exec_tlbiJob {b} {sb} {scope} {s : State} : exec (.tlbiJob b sb scope) s = execTlbiJob b sb scope s := rfl
@[simp] theorem exec_tlbiAll {scope} {s : State} : exec (.tlbiAll scope) s = execTlbiAll scope s := rfl
@[simp] theorem exec_wsopen {o} {s : State} : exec (.wsopen o) s = execWsopen o s := rfl
@[simp] theorem exec_wsclose {o} {s : State} : exec (.wsclose o) s = execWsclose o s := rfl
@[simp] theorem exec_keykill {o} {s : State} : exec (.keykill o) s = execKeykill o s := rfl
@[simp] theorem exec_haltgStop {d} {s : State} : exec (.haltgStop d) s = execHaltgStop d s := rfl
@[simp] theorem exec_haltgStopl {o} {s : State} : exec (.haltgStopl o) s = execHaltgStopl o s := rfl
@[simp] theorem exec_haltgResume {d} {s : State} : exec (.haltgResume d) s = execHaltgResume d s := rfl
@[simp] theorem exec_keySweepDone {key} {s : State} : exec (.keySweepDone key) s = execKeySweepDone key s := rfl
@[simp] theorem exec_tlbiComplete {id} {s : State} : exec (.tlbiComplete id) s = execTlbiComplete id s := rfl
@[simp] theorem exec_mmnop {stampv} {s : State} : exec (.mmnop stampv) s = execMmnop stampv s := rfl
@[simp] theorem exec_mma {stampv} {o} {s : State} : exec (.mma stampv o) s = execMma stampv o s := rfl
@[simp] theorem exec_mmaz {stampv} {o} {s : State} : exec (.mmaz stampv o) s = execMmaz stampv o s := rfl
@[simp] theorem exec_mmst {stampv} {o} {s : State} : exec (.mmst stampv o) s = execMmst stampv o s := rfl
@[simp] theorem exec_mmld {stampv} {o} {s : State} : exec (.mmld stampv o) s = execMmld stampv o s := rfl
@[simp] theorem exec_mmz {stampv} {tile} {s : State} : exec (.mmz stampv tile) s = execMmz stampv tile s := rfl
@[simp] theorem exec_mmwait {stampv} {core} {row} {full} {s : State} : exec (.mmwait stampv core row full) s = execMmwait stampv core row full s := rfl
@[simp] theorem exec_mmwaitMatch {core} {s : State} : exec (.mmwaitMatch core) s = execMmwaitMatch core s := rfl
@[simp] theorem exec_mmsig {stampv} {val} {s : State} : exec (.mmsig stampv val) s = execMmsig stampv val s := rfl
@[simp] theorem exec_mmend {stampv} {s : State} : exec (.mmend stampv) s = execMmend stampv s := rfl
@[simp] theorem exec_cpnop {s : State} : exec (.cpnop) s = execCpnop s := rfl
@[simp] theorem exec_cpget {o} {s : State} : exec (.cpget o) s = execCpget o s := rfl
@[simp] theorem exec_cpput {o} {s : State} : exec (.cpput o) s = execCpput o s := rfl
@[simp] theorem exec_cpmc {o} {s : State} : exec (.cpmc o) s = execCpmc o s := rfl
@[simp] theorem exec_cpws {o} {s : State} : exec (.cpws o) s = execCpws o s := rfl
@[simp] theorem exec_cpww {o} {s : State} : exec (.cpww o) s = execCpww o s := rfl
@[simp] theorem exec_cpfill {core} {row} {nrow} {pat} {s : State} : exec (.cpfill core row nrow pat) s = execCpfill core row nrow pat s := rfl
@[simp] theorem exec_cptag {core} {row} {nrow} {act} {s : State} : exec (.cptag core row nrow act) s = execCptag core row nrow act s := rfl
@[simp] theorem exec_cpwait {core} {row} {full} {s : State} : exec (.cpwait core row full) s = execCpwait core row full s := rfl
@[simp] theorem exec_cpwaitMatch {cluster} {sid} {s : State} : exec (.cpwaitMatch cluster sid) s = execCpwaitMatch cluster sid s := rfl
@[simp] theorem exec_cpsig {val} {s : State} : exec (.cpsig val) s = execCpsig val s := rfl
@[simp] theorem exec_cpend {s : State} : exec (.cpend) s = execCpend s := rfl
@[simp] theorem exec_copySourceRowFull {cluster} {sid} {s : State} : exec (.copySourceRowFull cluster sid) s = execCopySourceRowFull cluster sid s := rfl
@[simp] theorem exec_copyWritebackAck {cluster} {sid} {s : State} : exec (.copyWritebackAck cluster sid) s = execCopyWritebackAck cluster sid s := rfl
@[simp] theorem exec_lineRecall {cluster} {line} {s : State} : exec (.lineRecall cluster line) s = execLineRecall cluster line s := rfl
@[simp] theorem exec_futArgTake {rs2} {rs1} {rd} {s : State} : exec (.futArgTake rs2 rs1 rd) s = execFutArgTake rs2 rs1 rd s := rfl
@[simp] theorem exec_futArgLen {rs2} {rs1} {rd} {s : State} : exec (.futArgLen rs2 rs1 rd) s = execFutArgLen rs2 rs1 rd s := rfl
@[simp] theorem exec_futArgDeadline {rs2} {rs1} {rd} {s : State} : exec (.futArgDeadline rs2 rs1 rd) s = execFutArgDeadline rs2 rs1 rd s := rfl
@[simp] theorem exec_futArgTool {rs2} {rs1} {rd} {s : State} : exec (.futArgTool rs2 rs1 rd) s = execFutArgTool rs2 rs1 rd s := rfl
@[simp] theorem exec_futArgCopy {rs2} {rs1} {rd} {s : State} : exec (.futArgCopy rs2 rs1 rd) s = execFutArgCopy rs2 rs1 rd s := rfl
@[simp] theorem exec_futResolve {rs2} {rs1} {rd} {s : State} : exec (.futResolve rs2 rs1 rd) s = execFutResolve rs2 rs1 rd s := rfl
@[simp] theorem exec_futFail {rs2} {rs1} {rd} {s : State} : exec (.futFail rs2 rs1 rd) s = execFutFail rs2 rs1 rd s := rfl
@[simp] theorem exec_capProbe {rs2} {rs1} {rd} {s : State} : exec (.capProbe rs2 rs1 rd) s = execCapProbe rs2 rs1 rd s := rfl
@[simp] theorem exec_capCsrWrite {hart} {csr} {mMode} {v} {s : State} : exec (.capCsrWrite hart csr mMode v) s = execCapCsrWrite hart csr mMode v s := rfl
@[simp] theorem exec_toolAccessFault {hart} {cause} {va} {s : State} : exec (.toolAccessFault hart cause va) s = execToolAccessFault hart cause va s := rfl
@[simp] theorem exec_toolException {hart} {cause} {served} {s : State} : exec (.toolException hart cause served) s = execToolException hart cause served s := rfl
@[simp] theorem exec_jobstart {m} {s : State} : exec (.jobstart m) s = execJobstart m s := rfl
@[simp] theorem exec_jobcancel {m} {s : State} : exec (.jobcancel m) s = execJobcancel m s := rfl
@[simp] theorem exec_futres {m} {s : State} : exec (.futres m) s = execFutres m s := rfl
@[simp] theorem exec_mgmtReadCounters {m} {s : State} : exec (.mgmtReadCounters m) s = execMgmtReadCounters m s := rfl
@[simp] theorem exec_mgmtAttest {m} {s : State} : exec (.mgmtAttest m) s = execMgmtAttest m s := rfl
@[simp] theorem exec_mgmtLoadKey {m} {s : State} : exec (.mgmtLoadKey m) s = execMgmtLoadKey m s := rfl
@[simp] theorem exec_mgmtSetPowerCap {m} {s : State} : exec (.mgmtSetPowerCap m) s = execMgmtSetPowerCap m s := rfl
@[simp] theorem exec_mgmtFirmwareImage {m} {s : State} : exec (.mgmtFirmwareImage m) s = execMgmtFirmwareImage m s := rfl
@[simp] theorem exec_h2dBadType {m} {s : State} : exec (.h2dBadType m) s = execH2dBadType m s := rfl
@[simp] theorem exec_h2dEnqueueDrop {s : State} : exec (.h2dEnqueueDrop) s = execH2dEnqueueDrop s := rfl
@[simp] theorem exec_d2hDequeue {s : State} : exec (.d2hDequeue) s = execD2hDequeue s := rfl
@[simp] theorem exec_mboxIrqTimeout {s : State} : exec (.mboxIrqTimeout) s = execMboxIrqTimeout s := rfl
@[simp] theorem exec_atsCompletion {pasid} {page} {read} {write} {s : State} : exec (.atsCompletion pasid page read write) s = execAtsCompletion pasid page read write s := rfl
@[simp] theorem exec_priResponseSuccess {pasid} {page} {s : State} : exec (.priResponseSuccess pasid page) s = execPriResponseSuccess pasid page s := rfl
@[simp] theorem exec_priResponseInvalid {pasid} {page} {s : State} : exec (.priResponseInvalid pasid page) s = execPriResponseInvalid pasid page s := rfl
@[simp] theorem exec_priResponseFailure {pasid} {page} {s : State} : exec (.priResponseFailure pasid page) s = execPriResponseFailure pasid page s := rfl
@[simp] theorem exec_priTimeout {pasid} {page} {s : State} : exec (.priTimeout pasid page) s = execPriTimeout pasid page s := rfl
@[simp] theorem exec_atsInvalidateRequest {pasid} {base} {len} {s : State} : exec (.atsInvalidateRequest pasid base len) s = execAtsInvalidateRequest pasid base len s := rfl
@[simp] theorem exec_atsInvalidateCompletion {pasid} {base} {len} {s : State} : exec (.atsInvalidateCompletion pasid base len) s = execAtsInvalidateCompletion pasid base len s := rfl
@[simp] theorem exec_poolCompletion {token} {data} {poison} {s : State} : exec (.poolCompletion token data poison) s = execPoolCompletion token data poison s := rfl
@[simp] theorem exec_poolTimeout {token} {s : State} : exec (.poolTimeout token) s = execPoolTimeout token s := rfl
@[simp] theorem exec_cxlwinWrite {n} {v} {s : State} : exec (.cxlwinWrite n v) s = execCxlwinWrite n v s := rfl
@[simp] theorem exec_uetReplyArrival {r} {s : State} : exec (.uetReplyArrival r) s = execUetReplyArrival r s := rfl
@[simp] theorem exec_uetUndeliverable {handle} {s : State} : exec (.uetUndeliverable handle) s = execUetUndeliverable handle s := rfl
@[simp] theorem exec_faultRingRetry {launch} {s : State} : exec (.faultRingRetry launch) s = execFaultRingRetry launch s := rfl
@[simp] theorem exec_replayQueueFree {s : State} : exec (.replayQueueFree) s = execReplayQueueFree s := rfl
@[simp] theorem exec_freplayReplay {token} {s : State} : exec (.freplayReplay token) s = execFreplayReplay token s := rfl
@[simp] theorem exec_freplayAbort {token} {s : State} : exec (.freplayAbort token) s = execFreplayAbort token s := rfl
@[simp] theorem exec_heatDecay {s : State} : exec (.heatDecay) s = execHeatDecay s := rfl
@[simp] theorem exec_heatcfgWrite {v} {s : State} : exec (.heatcfgWrite v) s = execHeatcfgWrite v s := rfl
@[simp] theorem exec_migrate {cmd} {s : State} : exec (.migrate cmd) s = execMigrate cmd s := rfl
@[simp] theorem exec_compress {cmd} {s : State} : exec (.compress cmd) s = execCompress cmd s := rfl
@[simp] theorem exec_decompress {cmd} {s : State} : exec (.decompress cmd) s = execDecompress cmd s := rfl
@[simp] theorem exec_churnQOverflow {cmd} {s : State} : exec (.churnQOverflow cmd) s = execChurnQOverflow cmd s := rfl
@[simp] theorem exec_freeze {cmd} {s : State} : exec (.freeze cmd) s = execFreeze cmd s := rfl
@[simp] theorem exec_copy {cmd} {s : State} : exec (.copy cmd) s = execCopy cmd s := rfl
@[simp] theorem exec_release {cmd} {s : State} : exec (.release cmd) s = execRelease cmd s := rfl
@[simp] theorem exec_done {cmd} {s : State} : exec (.done cmd) s = execDone cmd s := rfl
@[simp] theorem exec_zPageDecompress {token} {s : State} : exec (.zPageDecompress token) s = execZPageDecompress token s := rfl
@[simp] theorem exec_freeFramePoll {s : State} : exec (.freeFramePoll) s = execFreeFramePoll s := rfl
@[simp] theorem exec_dispatchStep {cluster} {s : State} : exec (.dispatchStep cluster) s = execDispatchStep cluster s := rfl
@[simp] theorem exec_waitWordRead {cluster} {task} {s : State} : exec (.waitWordRead cluster task) s = execWaitWordRead cluster task s := rfl
@[simp] theorem exec_footprintFetchDone {id} {s : State} : exec (.footprintFetchDone id) s = execFootprintFetchDone id s := rfl
@[simp] theorem exec_save {id} {s : State} : exec (.save id) s = execSave id s := rfl
@[simp] theorem exec_saveComplete {id} {s : State} : exec (.saveComplete id) s = execSaveComplete id s := rfl
@[simp] theorem exec_taskPacketArrival {cluster} {src} {colour} {pkt} {s : State} : exec (.taskPacketArrival cluster src colour pkt) s = execTaskPacketArrival cluster src colour pkt s := rfl
@[simp] theorem exec_overflowReturn {cluster} {s : State} : exec (.overflowReturn cluster) s = execOverflowReturn cluster s := rfl
@[simp] theorem exec_messageArrival {core} {level} {src} {msg} {s : State} : exec (.messageArrival core level src msg) s = execMessageArrival core level src msg s := rfl
@[simp] theorem exec_messagePlacement {core} {level} {s : State} : exec (.messagePlacement core level) s = execMessagePlacement core level s := rfl
@[simp] theorem exec_msgack {id} {launch} {task} {s : State} : exec (.msgack id launch task) s = execMsgack id launch task s := rfl
@[simp] theorem exec_spawnRequestArrival {r} {s : State} : exec (.spawnRequestArrival r) s = execSpawnRequestArrival r s := rfl
@[simp] theorem exec_spawnwResend {r} {s : State} : exec (.spawnwResend r) s = execSpawnwResend r s := rfl
@[simp] theorem exec_primarySlotFree {core} {s : State} : exec (.primarySlotFree core) s = execPrimarySlotFree core s := rfl
@[simp] theorem exec_launchComplete {idx} {s : State} : exec (.launchComplete idx) s = execLaunchComplete idx s := rfl
@[simp] theorem exec_phaseAdvance {part} {s : State} : exec (.phaseAdvance part) s = execPhaseAdvance part s := rfl
@[simp] theorem exec_lmigGo {v} {s : State} : exec (.lmigGo v) s = execLmigGo v s := rfl
@[simp] theorem exec_lmigStreamDone {s : State} : exec (.lmigStreamDone) s = execLmigStreamDone s := rfl
@[simp] theorem exec_lmigFwdClear {i} {s : State} : exec (.lmigFwdClear i) s = execLmigFwdClear i s := rfl
@[simp] theorem exec_qovfWrite {d} {v} {s : State} : exec (.qovfWrite d v) s = execQovfWrite d v s := rfl
@[simp] theorem exec_partcfgWrite {n} {v} {s : State} : exec (.partcfgWrite n v) s = execPartcfgWrite n v s := rfl
@[simp] theorem exec_corecfgWrite {core} {v} {s : State} : exec (.corecfgWrite core v) s = execCorecfgWrite core v s := rfl
@[simp] theorem exec_mxmodeWrite {core} {v} {s : State} : exec (.mxmodeWrite core v) s = execMxmodeWrite core v s := rfl
@[simp] theorem exec_fabricCfgWrite {v} {s : State} : exec (.fabricCfgWrite v) s = execFabricCfgWrite v s := rfl
@[simp] theorem exec_registerWrite {r} {v} {s : State} : exec (.registerWrite r v) s = execRegisterWrite r v s := rfl
@[simp] theorem exec_routeHop {p} {s : State} : exec (.routeHop p) s = execRouteHop p s := rfl
@[simp] theorem exec_norouteArrival {p} {s : State} : exec (.norouteArrival p) s = execNorouteArrival p s := rfl
@[simp] theorem exec_homeAccess {a} {s : State} : exec (.homeAccess a) s = execHomeAccess a s := rfl
@[simp] theorem exec_migrantArrival {m} {s : State} : exec (.migrantArrival m) s = execMigrantArrival m s := rfl
@[simp] theorem exec_migrantEntry {core} {s : State} : exec (.migrantEntry core) s = execMigrantEntry core s := rfl
@[simp] theorem exec_mack {id} {s : State} : exec (.mack id) s = execMack id s := rfl
@[simp] theorem exec_mnak {id} {s : State} : exec (.mnak id) s = execMnak id s := rfl
@[simp] theorem exec_migrantResend {id} {s : State} : exec (.migrantResend id) s = execMigrantResend id s := rfl
@[simp] theorem exec_pwack {id} {count} {s : State} : exec (.pwack id count) s = execPwack id count s := rfl
@[simp] theorem exec_pwackCombineTimeout {id} {s : State} : exec (.pwackCombineTimeout id) s = execPwackCombineTimeout id s := rfl
@[simp] theorem exec_weirMark {target} {s : State} : exec (.weirMark target) s = execWeirMark target s := rfl
@[simp] theorem exec_weirTick {s : State} : exec (.weirTick) s = execWeirTick s := rfl
@[simp] theorem exec_weirFree {s : State} : exec (.weirFree) s = execWeirFree s := rfl
@[simp] theorem exec_weirAdmit {target} {s : State} : exec (.weirAdmit target) s = execWeirAdmit target s := rfl
@[simp] theorem exec_peerOwnershipRequest {line} {modid} {agent} {s : State} : exec (.peerOwnershipRequest line modid agent) s = execPeerOwnershipRequest line modid agent s := rfl
@[simp] theorem exec_peerRecallDone {line} {s : State} : exec (.peerRecallDone line) s = execPeerRecallDone line s := rfl
@[simp] theorem exec_peerLoss {modid} {s : State} : exec (.peerLoss modid) s = execPeerLoss modid s := rfl
@[simp] theorem exec_gprep {m} {s : State} : exec (.gprep m) s = execGprep m s := rfl
@[simp] theorem exec_gpack {m} {s : State} : exec (.gpack m) s = execGpack m s := rfl
@[simp] theorem exec_gpnak {m} {s : State} : exec (.gpnak m) s = execGpnak m s := rfl
@[simp] theorem exec_gcommit {m} {s : State} : exec (.gcommit m) s = execGcommit m s := rfl
@[simp] theorem exec_gstart {m} {s : State} : exec (.gstart m) s = execGstart m s := rfl
@[simp] theorem exec_gabort {m} {s : State} : exec (.gabort m) s = execGabort m s := rfl
@[simp] theorem exec_gstop {m} {s : State} : exec (.gstop m) s = execGstop m s := rfl
@[simp] theorem exec_gangTaskFetchDone {init} {launch} {s : State} : exec (.gangTaskFetchDone init launch) s = execGangTaskFetchDone init launch s := rfl
@[simp] theorem exec_gangPrepareTimeout {launch} {s : State} : exec (.gangPrepareTimeout launch) s = execGangPrepareTimeout launch s := rfl
@[simp] theorem exec_gangStartTimeout {launch} {s : State} : exec (.gangStartTimeout launch) s = execGangStartTimeout launch s := rfl
@[simp] theorem exec_orphanTimeout {init} {launch} {s : State} : exec (.orphanTimeout init launch) s = execOrphanTimeout init launch s := rfl
@[simp] theorem exec_lgreq {m} {s : State} : exec (.lgreq m) s = execLgreq m s := rfl
@[simp] theorem exec_lgack {m} {s : State} : exec (.lgack m) s = execLgack m s := rfl
@[simp] theorem exec_lgnak {m} {s : State} : exec (.lgnak m) s = execLgnak m s := rfl
@[simp] theorem exec_lshrink {m} {s : State} : exec (.lshrink m) s = execLshrink m s := rfl
@[simp] theorem exec_lrecall {m} {s : State} : exec (.lrecall m) s = execLrecall m s := rfl
@[simp] theorem exec_lswap {m} {next} {s : State} : exec (.lswap m next) s = execLswap m next s := rfl
@[simp] theorem exec_llit {m} {s : State} : exec (.llit m) s = execLlit m s := rfl
@[simp] theorem exec_lalive {m} {s : State} : exec (.lalive m) s = execLalive m s := rfl
@[simp] theorem exec_laliveSend {s : State} : exec (.laliveSend) s = execLaliveSend s := rfl
@[simp] theorem exec_sluiceBadType {m} {s : State} : exec (.sluiceBadType m) s = execSluiceBadType m s := rfl
@[simp] theorem exec_lgreqTimeout {d} {s : State} : exec (.lgreqTimeout d) s = execLgreqTimeout d s := rfl
@[simp] theorem exec_reversionResend {d} {s : State} : exec (.reversionResend d) s = execReversionResend d s := rfl
@[simp] theorem exec_leaseExpiry {d} {s : State} : exec (.leaseExpiry d) s = execLeaseExpiry d s := rfl
@[simp] theorem exec_retuneTimeout {d} {lane} {s : State} : exec (.retuneTimeout d lane) s = execRetuneTimeout d lane s := rfl
@[simp] theorem exec_drainDone {d} {lane} {s : State} : exec (.drainDone d lane) s = execDrainDone d lane s := rfl
@[simp] theorem exec_drainTimeout {d} {lane} {s : State} : exec (.drainTimeout d lane) s = execDrainTimeout d lane s := rfl
@[simp] theorem exec_laneFailure {d} {lane} {s : State} : exec (.laneFailure d lane) s = execLaneFailure d lane s := rfl
@[simp] theorem exec_slotClear {d} {lane} {s : State} : exec (.slotClear d lane) s = execSlotClear d lane s := rfl
@[simp] theorem exec_directionTrained {d} {modid} {s : State} : exec (.directionTrained d modid) s = execDirectionTrained d modid s := rfl
@[simp] theorem exec_directionDown {d} {s : State} : exec (.directionDown d) s = execDirectionDown d s := rfl
@[simp] theorem exec_leveeSweepStart {part} {s : State} : exec (.leveeSweepStart part) s = execLeveeSweepStart part s := rfl
@[simp] theorem exec_sweep {m} {s : State} : exec (.sweep m) s = execSweep m s := rfl
@[simp] theorem exec_report {m} {s : State} : exec (.report m) s = execReport m s := rfl
@[simp] theorem exec_levpub {m} {s : State} : exec (.levpub m) s = execLevpub m s := rfl
@[simp] theorem exec_csweepStart {idx} {s : State} : exec (.csweepStart idx) s = execCsweepStart idx s := rfl
@[simp] theorem exec_csweep {m} {s : State} : exec (.csweep m) s = execCsweep m s := rfl
@[simp] theorem exec_creport {m} {s : State} : exec (.creport m) s = execCreport m s := rfl
@[simp] theorem exec_rollBack {core} {victims} {s : State} : exec (.rollBack core victims) s = execRollBack core victims s := rfl
@[simp] theorem exec_antiMessageArrival {cluster} {colour} {hdr} {s : State} : exec (.antiMessageArrival cluster colour hdr) s = execAntiMessageArrival cluster colour hdr s := rfl
@[simp] theorem exec_futureQueueEntry {ctx} {s : State} : exec (.futureQueueEntry ctx) s = execFutureQueueEntry ctx s := rfl
@[simp] theorem exec_futureTimeout {idx} {s : State} : exec (.futureTimeout idx) s = execFutureTimeout idx s := rfl
@[simp] theorem exec_injection {idx} {s : State} : exec (.injection idx) s = execInjection idx s := rfl
@[simp] theorem exec_waitingToCalling {s : State} : exec (.waitingToCalling) s = execWaitingToCalling s := rfl
@[simp] theorem exec_syncRetry {a} {s : State} : exec (.syncRetry a) s = execSyncRetry a s := rfl
@[simp] theorem exec_codeLineFill {cluster} {line} {s : State} : exec (.codeLineFill cluster line) s = execCodeLineFill cluster line s := rfl
@[simp] theorem exec_wsRefresh {group} {s : State} : exec (.wsRefresh group) s = execWsRefresh group s := rfl
@[simp] theorem exec_powerCapCheck {average} {s : State} : exec (.powerCapCheck average) s = execPowerCapCheck average s := rfl
@[simp] theorem exec_thermalWarning {die} {temp} {s : State} : exec (.thermalWarning die temp) s = execThermalWarning die temp s := rfl
@[simp] theorem exec_fatalThermal {die} {temp} {s : State} : exec (.fatalThermal die temp) s = execFatalThermal die temp s := rfl
@[simp] theorem exec_counterFlush {s : State} : exec (.counterFlush) s = execCounterFlush s := rfl
@[simp] theorem exec_mctpCounterRead {s : State} : exec (.mctpCounterRead) s = execMctpCounterRead s := rfl
@[simp] theorem exec_powerOn {verified} {digests} {s : State} : exec (.powerOn verified digests) s = execPowerOn verified digests s := rfl
@[simp] theorem exec_moduleReset {s : State} : exec (.moduleReset) s = execModuleReset s := rfl
@[simp] theorem exec_powerLoss {s : State} : exec (.powerLoss) s = execPowerLoss s := rfl
@[simp] theorem exec_multiRotationResult {id} {s : State} : exec (.multiRotationResult id) s = execMultiRotationResult id s := rfl
@[simp] theorem exec_hostReadCompletion {token} {data} {s : State} : exec (.hostReadCompletion token data) s = execHostReadCompletion token data s := rfl
@[simp] theorem exec_lineFill {cluster} {dev} {line} {data} {s : State} : exec (.lineFill cluster dev line data) s = execLineFill cluster dev line data s := rfl
@[simp] theorem exec_creditReturn {modid} {set} {flits} {s : State} : exec (.creditReturn modid set flits) s = execCreditReturn modid set flits s := rfl
@[simp] theorem exec_priEnable {pasid} {s : State} : exec (.priEnable pasid) s = execPriEnable pasid s := rfl
@[simp] theorem exec_orderlyShutdown {s : State} : exec (.orderlyShutdown) s = execOrderlyShutdown s := rfl
@[simp] theorem exec_toolCoreAccess {hart} {va} {size} {k} {s : State} : exec (.toolCoreAccess hart va size k) s = execToolCoreAccess hart va size k s := rfl
@[simp] theorem exec_secondsSpent {temps} {bers} {s : State} : exec (.secondsSpent temps bers) s = execSecondsSpent temps bers s := rfl
@[simp] theorem exec_illegalInstruction {w} {s : State} : exec (.illegalInstruction w) s = execIllegalInstruction w s := rfl
@[simp] theorem exec_streamDecodeCondition {copy} {core} {sid} {dsub} {s : State} : exec (.streamDecodeCondition copy core sid dsub) s = execStreamDecodeCondition copy core sid dsub s := rfl

end Sys2Proof.Machine
end

