-- ==== Sys2Proof/Laws/Issue.lean ====
section
/-! SUPPORT. What issuing an instruction comes to when it is ready, and what writing a result and going on leave. -/

namespace Sys2Proof.Machine

open Sys2Proof Sys2Proof.Safety

/-! ## Issue -/

theorem readTrap_of_val {s : State} {sl : Slot} {r : Nat} {v : Word} (h : s.view sl r = .val v) :
    s.readTrap sl r = none := by
  simp [State.readTrap, h]

/-- A source of a ready instruction has a value. -/
theorem ready_view {s : State} {m : Demand} (h : Ready s m) {r : Nat} (hr : r ∈ m.reads) :
    ∃ v, s.view s.me r = .val v := by
  have := h.reads r hr
  cases e : s.view s.me r <;> simp [e, RegView.val?] at this
  exact ⟨_, rfl⟩

/-- A ready instruction whose own checks pass goes on with its values. -/
theorem issue_ready {s : State} {m : Demand} {checks : Seen → Option Trap} {k : Vals → Slot → Res}
    (h : Ready s m) (hc : checks (s.seen s.me m) = none) : issue s m checks k = k (s.vals m) (s.taken m) := by
  have hn : (m.names.any fun r => decide (s.me.task.nregs ≤ r)) = false := by
    simp only [List.any_eq_false, decide_eq_true_eq, Nat.not_le]
    exact h.named
  have hr : (m.reads.findSome? fun r => s.readTrap s.me r) = none := by
    rw [List.findSome?_eq_none_iff]
    intro r hr
    obtain ⟨v, hv⟩ := ready_view h hr
    exact readTrap_of_val hv
  have hw : (m.reads.any fun r => s.view s.me r == .wait) = false := by
    simp only [List.any_eq_false]
    intro r hr
    obtain ⟨v, hv⟩ := ready_view h hr
    simp [hv]
  have hd : (m.dests.any fun r => (s.me.cell r).pend) = false := by
    simp only [List.any_eq_false]
    intro r hr
    simp [h.dests r hr]
  simp [issue, State.demandTrap, State.demandWaits, hn, hr, hw, hd, hc]

/-- The same, where the traps of points 4 to 6 of R304 do not apply. -/
theorem issueAfter_ready {s : State} {pre : List (Option Trap)} {m : Demand} {checks : Seen → Option Trap}
    {k : Vals → Slot → Res} (hp : firstTrap pre = none) (h : Ready s m) (hc : checks (s.seen s.me m) = none) :
    issueAfter s pre m checks k = k (s.vals m) (s.taken m) := by
  simp [issueAfter, hp, issue_ready h hc]

/-- A ready instruction whose own checks pass takes the next state that its continuation gives. -/
theorem issue_next {s t : State} {m : Demand} {checks : Seen → Option Trap} {k : Vals → Slot → Res}
    (h : Ready s m) (hc : checks (s.seen s.me m) = none) (hk : k (s.vals m) (s.taken m) = .next t) :
    issue s m checks k = .next t := by
  rw [issue_ready h hc, hk]

/-- The same, where the traps of points 4 to 6 of R304 do not apply. -/
theorem issueAfter_next {s t : State} {pre : List (Option Trap)} {m : Demand} {checks : Seen → Option Trap}
    {k : Vals → Slot → Res} (hp : firstTrap pre = none) (h : Ready s m) (hc : checks (s.seen s.me m) = none)
    (hk : k (s.vals m) (s.taken m) = .next t) : issueAfter s pre m checks k = .next t := by
  rw [issueAfter_ready hp h hc, hk]

/-- A trap of points 4 to 6 comes first. -/
theorem issueAfter_trap {s : State} {pre : List (Option Trap)} {m : Demand} {checks : Seen → Option Trap}
    {k : Vals → Slot → Res} {t : Trap} (hp : firstTrap pre = some t) :
    issueAfter s pre m checks k = .next (s.raise s.sched.cur t) := by
  simp [issueAfter, hp]

/-- What a check sees of the first source of a ready instruction. -/
theorem seen_a {s : State} {m : Demand} (h : Ready s m) {r : Nat} {y : Bool} (hm : m.a = some (r, y)) :
    (s.seen s.me m).a = some (s.vals m).a := by
  obtain ⟨v, hv⟩   := ready_view h (r := r) (by simp [Demand.reads, hm])
  simp [State.seen, State.peek, State.vals, State.value, hm, hv, RegView.val?]

/-- What a check sees of the second source. -/
theorem seen_b {s : State} {m : Demand} (h : Ready s m) {r : Nat} {y : Bool} (hm : m.b = some (r, y)) :
    (s.seen s.me m).b = some (s.vals m).b := by
  obtain ⟨v, hv⟩   := ready_view h (r := r) (by simp [Demand.reads, hm])
  simp [State.seen, State.peek, State.vals, State.value, hm, hv, RegView.val?]

/-- What a check sees of a plain read of d. -/
theorem seen_d {s : State} {m : Demand} (h : Ready s m) {r : Nat} (hm : m.d = some r) :
    (s.seen s.me m).d = some (s.vals m).d := by
  obtain ⟨v, hv⟩   := ready_view h (r := r) (by simp [Demand.reads, hm])
  simp [State.seen, State.peek, State.vals, State.value, hm, hv, RegView.val?]

/-! ## Registers -/

@[simp] theorem setG_zero (sl : Slot) (v : Word) : sl.setG 0 v = sl := rfl

theorem setG_cell_self (sl : Slot) (r : Nat) (v : Word) (h : r ≠ 0) : (sl.setG r v).cell r = ⟨v, true, false⟩ := by
  simp [Slot.setG, Slot.cell, h, mget_mput_self]

theorem setG_cell_ne (sl : Slot) (r r' : Nat) (v : Word) (h : r' ≠ r) : (sl.setG r v).cell r' = sl.cell r' := by
  by_cases hr : r = 0
  · simp [Slot.setG, hr]
  · simp only [Slot.setG, if_neg hr, Slot.cell]
    split
    · rfl
    · rw [mget_mput_ne _ _ _ _ _ h]

theorem setG_keeps (sl : Slot) (r : Nat) (v : Word) :
    sl.setG r v = { sl with regs := (sl.setG r v).regs, latches := (sl.setG r v).latches,
                            expired := (sl.setG r v).expired } := by
  unfold Slot.setG
  split <;> rfl

theorem setLatch_cell (sl : Slot) (r r' : Nat) (v : Word) (n : Nat) : (sl.setLatch r v n).cell r' = sl.cell r' := by
  unfold Slot.setLatch
  by_cases hr : r = 0
  · simp [hr]
  · simp only [hr, if_false]
    split
    · split <;> rfl
    · rfl

theorem take_cell_ne (sl : Slot) (x : Option (Nat × Bool)) (r : Nat) (h : ∀ y, x ≠ some (r, y)) :
    (sl.take x).cell r = sl.cell r := by
  unfold Slot.take
  split
  · rename_i q
    split
    · rfl
    · simp only [Slot.cell]
      split
      · rfl
      · rw [mget_mput_ne]
        intro e
        exact h true (by rw [e])
  · rfl

/-! ## Control -/

/-- Moving control changes only where control stands. -/
theorem goTo_keeps (sl : Slot) (ir : Fetched) (t : Word) (f b : Bool) :
    sl.goTo ir t f b = { sl with st := (sl.goTo ir t f b).st, pc := t, fell := f, entry := false,
                                 quietBad := (sl.goTo ir t f b).quietBad, lines := (sl.goTo ir t f b).lines } := by
  unfold Slot.goTo
  dsimp only
  (repeat' split) <;> rfl

@[simp] theorem goTo_pc (sl : Slot) (ir : Fetched) (t : Word) (f b : Bool) : (sl.goTo ir t f b).pc = t := by
  rw [goTo_keeps]

@[simp] theorem goTo_regs (sl : Slot) (ir : Fetched) (t : Word) (f b : Bool) : (sl.goTo ir t f b).regs = sl.regs := by
  rw [goTo_keeps]

@[simp] theorem goTo_cell (sl : Slot) (ir : Fetched) (t : Word) (f b : Bool) (r : Nat) :
    (sl.goTo ir t f b).cell r = sl.cell r := by
  simp [Slot.cell]

@[simp] theorem goTo_task (sl : Slot) (ir : Fetched) (t : Word) (f b : Bool) : (sl.goTo ir t f b).task = sl.task := by
  rw [goTo_keeps]

@[simp] theorem goTo_latches (sl : Slot) (ir : Fetched) (t : Word) (f b : Bool) :
    (sl.goTo ir t f b).latches = sl.latches := by rw [goTo_keeps]

@[simp] theorem goTo_expired (sl : Slot) (ir : Fetched) (t : Word) (f b : Bool) :
    (sl.goTo ir t f b).expired = sl.expired := by rw [goTo_keeps]

@[simp] theorem goTo_late (sl : Slot) (ir : Fetched) (t : Word) (f b : Bool) :
    (sl.goTo ir t f b).late = sl.late := by rw [goTo_keeps]

@[simp] theorem advance_pc (sl : Slot) (ir : Fetched) : (sl.advance ir).pc = ir.npc := goTo_pc _ _ _ _ _

@[simp] theorem advance_cell (sl : Slot) (ir : Fetched) (r : Nat) : (sl.advance ir).cell r = sl.cell r :=
  goTo_cell _ _ _ _ _ _

/-- The issuing slot after it has gone on. -/
@[simp] theorem retire_me (s : State) (sl : Slot) : (s.retire sl).me = sl.advance s.sched.ir := setMe_me _ _

/-- Replacing the issuing slot changes nothing else. -/
theorem setMe_only (s : State) (sl : Slot) : OnlySlot s (s.setMe sl) where
  part := rfl
  sched := rfl
  mem := rfl
  arrays := rfl
  work := rfl
  agents := rfl
  fabric := rfl
  host := rfl
  churn := rfl
  mgmt := rfl
  cores := fun k hk => setSlot_coreAt_ne s s.sched.cur sl k hk
  own := by
    have := setSlot_coreAt_self s s.sched.cur sl
    simp only [State.setMe, State.here] at *
    rw [this]
  slots := fun n hn => by
    have := setSlot_coreAt_self s s.sched.cur sl
    simp only [State.setMe, State.here] at *
    rw [this]
    exact mget_mput_ne _ _ _ _ _ hn

/-- Going on changes only the issuing slot. -/
theorem retire_only (s : State) (sl : Slot) : OnlySlot s (s.retire sl) := setMe_only _ _

end Sys2Proof.Machine
end

