-- ==== Sys2Proof/Laws/Registers.lean ====
section
/-! SUPPORT. What an instruction that writes one register does when it is ready: one lemma for each operand form. -/

namespace Sys2Proof.Machine

open Sys2Proof Sys2Proof.Safety

/-- Moving control keeps the rest of a slot that differs only in its registers. -/
theorem goTo_keepsSlot (a b : Slot) (ir : Fetched) (target : Word) (f br : Bool)
    (h : b = { a with regs := b.regs, latches := b.latches, expired := b.expired, late := b.late }) :
    KeepsSlot a (b.goTo ir target f br) := by
  unfold KeepsSlot
  rw [goTo_keeps]
  dsimp only
  rw [h]

theorem take_keeps (sl : Slot) (x) : sl.take x = { sl with regs := (sl.take x).regs } := by
  unfold Slot.take
  (repeat' split) <;> rfl

theorem writeT_keeps (s : State) (sl : Slot) (r t v) : s.writeT sl r t v = { sl with regs := (s.writeT sl r t v).regs, latches := (s.writeT sl r t v).latches, expired := (s.writeT sl r t v).expired, late := (s.writeT sl r t v).late } := by
  unfold State.writeT
  split
  · unfold Slot.setLatch
    dsimp only
    (repeat' split) <;> rfl
  · unfold State.writeG
    dsimp only
    rw [setG_keeps]
    split <;> rfl

theorem taken_keeps (s : State) (m) : s.taken m = { s.me with regs := (s.taken m).regs } := by
  unfold State.taken
  rw [take_keeps, take_keeps]

theorem find_filtered_latch (l : List Latch) (d : Nat) : (l.filter (fun l => l.reg != d)).find? (fun l => l.reg == d) = none := by
  simp [List.find?_eq_none]

/-- Writing a result and moving control. -/
theorem wrote_goTo (s : State) (m : Demand) (d : Nat) (hd : d < 32) (tr : Bool) (v target : Word) (f br : Bool) :
    WroteAt s (s.setMe ((s.writeT (s.taken m) d tr v).goTo s.sched.ir target f br)) m d tr v target where
  only := setMe_only _ _
  keeps := by
    rw [setMe_me]
    apply goTo_keepsSlot
    have h1 := writeT_keeps s (s.taken m) d tr v
    have h2 := taken_keeps s m
    generalize s.writeT (s.taken m) d tr v = w at *
    rw [h1]; rw [h2]
  pc := by simp
  plain := by
    intro h0 ht
    subst ht
    simp only [setMe_me, goTo_cell]
    refine ⟨?_, ?_, ?_⟩
    · simp [State.writeT, State.writeG, setG_cell_self _ _ _ h0]
    · simp [State.writeT, State.writeG, Slot.latch?, Slot.setG, h0]
    · simp [State.writeT, State.writeG, Slot.setG, h0, hd]
  latch := by
    intro h0 ht
    subst ht
    simp only [setMe_me]
    have hn : ∀ l' : Latch, l'.reg ≠ d → (l'.reg == d) = false := by intro l' h; simpa using h
    refine ⟨?_, ?_⟩
    · simp only [State.writeT, Slot.latch?, goTo_latches, Slot.setLatch, h0, if_true, if_false]
      have := find_filtered_latch (s.taken m).latches d
      generalize List.filter (fun l => l.reg != d) (s.taken m).latches = L at *
      cases L with
      | nil => simp
      | cons l rest =>
        simp only [List.find?_cons] at this
        split at this
        · simp at this
        · rename_i hl
          dsimp only
          split
          · simp [List.find?_append, hl, this]
          · simp [List.find?_append, this]
    · simp only [State.writeT, goTo_expired, Slot.setLatch, h0, if_true, if_false]
      have hf := find_filtered_latch (s.taken m).latches d
      generalize List.filter (fun l => l.reg != d) (s.taken m).latches = L at *
      cases L with
      | nil => simp [hd]
      | cons l rest =>
        simp only [List.find?_cons] at hf
        split at hf
        · simp at hf
        · rename_i hl
          have hl' : l.reg ≠ d := by simpa using hl
          dsimp only
          split
          · simp [hd]
          · simp only [BitVec.getLsbD_or, BitVec.getLsbD_and, BitVec.getLsbD_not, BitVec.getLsbD_shiftLeft]
            simp [hd]
            intro h
            omega
  kept := by
    intro r hr
    simp only [setMe_me, goTo_cell, cellAfter]
    cases tr with
    | true => simp [State.writeT, setLatch_cell]
    | false =>
      simp only [State.writeT, State.writeG]
      by_cases h0 : d = 0
      · simp [h0]
        split <;> simp [Slot.cell]
      · have : r ≠ d := by simpa [h0] using hr
        simp
        rw [setG_cell_ne _ _ _ _ this]
        split <;> simp [Slot.cell]

/-- Writing a result and going on. -/
theorem wrote_retire (s : State) (m : Demand) (d : Nat) (hd : d < 32) (tr : Bool) (v : Word) :
    Wrote s (s.retire (s.writeT (s.taken m) d tr v)) m d tr v :=
  wrote_goTo s m d hd tr v _ _ _

/-- Going on without a result. -/
theorem went_goTo (s : State) (m : Demand) (target : Word) (f br : Bool) :
    WentTo s (s.setMe ((s.taken m).goTo s.sched.ir target f br)) m target := by
  have h := wrote_goTo s m 0 (by omega) true 0 target f br
  exact { h with plain := fun h0 => absurd rfl h0, latch := fun h0 => absurd rfl h0,
                 kept := fun r _ => h.kept r (.inr (.inl rfl)) }

theorem alu3_ready (s : State) (o : Ops3) (third f) (h : Ready s (demand3 o third)) (hd : o.d.toNat < s.me.task.nregs) :
   ∃ t, alu3 o third f s = .next t ∧ Wrote s t (demand3 o third) o.d.toNat o.t (f (s.vals (demand3 o third)).a (s.vals (demand3 o third)).b (s.vals (demand3 o third)).d) := by
  unfold alu3
  rw [issue_ready h (by simp [checkDest]; omega)]
  exact ⟨_, rfl, wrote_retire _ _ _ o.d.isLt _ _⟩
theorem alu2_ready (s : State) (o : Ops2) (f) (h : Ready s (demand2 o)) (hd : o.d.toNat < s.me.task.nregs) :
   ∃ t, alu2 o f s = .next t ∧ Wrote s t (demand2 o) o.d.toNat o.t (f (s.vals (demand2 o)).a) := by
  unfold alu2
  rw [issue_ready h (by simp [checkDest]; omega)]
  exact ⟨_, rfl, wrote_retire _ _ _ o.d.isLt _ _⟩
theorem aluI_ready (s : State) (d a : Reg) (sa f) (h : Ready s (giDemand d a sa)) :
   ∃ t, aluI d a sa f s = .next t ∧ Wrote s t (giDemand d a sa) d.toNat false (f (s.vals (giDemand d a sa)).a) := by
  unfold aluI
  rw [issue_ready h rfl]
  have := wrote_retire s (giDemand d a sa) d.toNat d.isLt false (f (s.vals (giDemand d a sa)).a)
  simp [State.writeT] at this
  exact ⟨_, rfl, this⟩


theorem form3_result {i : Instr} {s : State} {o : Ops3} {third : Bool} {f : Word → Word → Word → Word}
    (he : exec i s = alu3 o third f s) (hr : Ready s (form3 o third f).demand) (hd : (form3 o third f).d.toNat < s.me.task.nregs) :
    ∃ t, exec i s = .next t ∧ Wrote s t (form3 o third f).demand (form3 o third f).d.toNat (form3 o third f).tr
      ((form3 o third f).value (s.vals (form3 o third f).demand)) := by
  rw [he]; exact alu3_ready s o third f hr hd
theorem form2_result {i : Instr} {s : State} {o : Ops2} {f : Word → Word}
    (he : exec i s = alu2 o f s) (hr : Ready s (form2 o f).demand) (hd : (form2 o f).d.toNat < s.me.task.nregs) :
    ∃ t, exec i s = .next t ∧ Wrote s t (form2 o f).demand (form2 o f).d.toNat (form2 o f).tr
      ((form2 o f).value (s.vals (form2 o f).demand)) := by
  rw [he]; exact alu2_ready s o f hr hd
theorem formI_result {i : Instr} {s : State} {d a : Reg} {sa : Bool} {f : Word → Word}
    (he : exec i s = aluI d a sa f s) (hr : Ready s (formI d a sa f).demand) :
    ∃ t, exec i s = .next t ∧ Wrote s t (formI d a sa f).demand (formI d a sa f).d.toNat (formI d a sa f).tr
      ((formI d a sa f).value (s.vals (formI d a sa f).demand)) := by
  rw [he]; exact aluI_ready s d a sa f hr

end Sys2Proof.Machine
end

