-- ==== Sys2Proof/Laws/Access.lean ====
section
/-! SUPPORT. What a global access comes to where the slot stands, and what translation and sampling leave alone. -/

namespace Sys2Proof.Machine

open Sys2Proof Sys2Proof.Safety

/-- A translation changes only memory. -/
theorem translate_mem {s s1 : State} {loc job : Nat} {user : Bool} {va : Word} {need : Need} {r : XRes}
    (h : translate s loc job user va need = (r, s1)) : s1 = s.setMem s1.mem := by
  unfold translate at h
  split at h
  · cases h; rfl
  · split at h
    · cases h; rfl
    · split at h
      · cases h; rfl
      · cases h; rfl

/-- Sampling changes only memory. -/
theorem heat_mem (s : State) (pa : Nat) : s.heat pa = s.setMem (s.heat pa).mem := rfl

/-- What replaces memory leaves the issuing slot. -/
@[simp] theorem setMem_me (s : State) (m : Mem) : (s.setMem m).me = s.me := rfl
@[simp] theorem setMem_here (s : State) (m : Mem) : (s.setMem m).here = s.here := rfl
@[simp] theorem setMem_taken (s : State) (m : Mem) (d : Demand) : (s.setMem m).taken d = s.taken d := rfl

theorem taken_task (s : State) (m : Demand) : (s.taken m).task = s.me.task := by rw [taken_keeps]
theorem taken_sup (s : State) (m : Demand) : (s.taken m).sup = s.me.sup := by rw [taken_keeps]
theorem taken_posted (s : State) (m : Demand) : (s.taken m).posted = s.me.posted := by rw [taken_keeps]
theorem taken_intrap (s : State) (m : Demand) : (s.taken m).intrap = s.me.intrap := by rw [taken_keeps]

/-- The slot after an access's results are written and it goes on. -/
def resultSlot (s : State) (sl : Slot) (how : Perform) (d : Nat) (v0 v1 : Word) : Slot :=
  match how with
  | .cas2 _ _ _ _ => s.writeG (s.writeG sl d v0) (d + 1) v1
  | .store _ _ | .fill _ | .tagWrite _ | .red _ _ _ | .syncWrite _ => sl
  | _ => s.writeG sl d v0

/-- Performing an access that finds nothing against it. -/
theorem perform_home {s1 s2 : State} {a : Access} (hb : ∀ r sc, a.how ≠ .barrier r sc)
    (hc : homeCheck s1 a = none) (hf : lineBusy s1 a.pa (opWrites a.how) = none) (hs2 : s1.heat a.pa = s2)
    (hp : opReads a.how = true → s2.isPoison a.pa = false ∧
      (opSize a.how = 16 → s2.isPoison (a.pa + 8) = false))
    (ht : (a.how = .syncRead → s2.isFull a.pa = true) ∧
      (∀ v, a.how = .syncWrite v → s2.isFull a.pa = false)) (hw : a.how = .await → s2.isFull a.pa = true) :
    perform s1 a = .done (homeEffect s2 a).1 (homeEffect s2 a).2.1 (homeEffect s2 a).2.2 := by
  have hpo : (opReads a.how && (s2.isPoison a.pa || (opSize a.how == 16 && s2.isPoison (a.pa + 8))) &&
      (a.how != .syncRead || s2.isFull a.pa)) = false := by
    cases hr : opReads a.how
    · rfl
    · obtain ⟨h1, h2⟩ := hp hr
      cases hs : (opSize a.how == 16)
      · rw [h1]; rfl
      · rw [h1, h2 (by simpa using hs)]; rfl
  unfold perform atHome serve
  rw [hc]
  dsimp only
  rw [hf]
  dsimp only
  rw [hs2, hpo]
  rw [if_neg (by decide)]
  cases hh : a.how with
  | syncRead =>
    rw [ht.1 hh]
    simp only [homeEffect, hh]; rfl
  | syncWrite v =>
    rw [ht.2 v hh]; simp only [homeEffect, hh]; rfl
  | barrier r sc => exact absurd hh (hb r sc)
  | load f => simp only [homeEffect, hh]; rfl
  | store n v => simp only [homeEffect, hh]
  | fill v => simp only [homeEffect, hh]
  | tagWrite v => simp only [homeEffect, hh]
  | tagRead => simp only [homeEffect, hh]; rfl
  | red op ty v => simp only [homeEffect, hh]; rfl
  | amo op w v => simp only [homeEffect, hh]; rfl
  | cas e n => simp only [homeEffect, hh]
  | cas2 a b c d => simp only [homeEffect, hh]
  | await => rw [hw hh]; simp only [homeEffect, hh]; rfl
  | line l => cases l <;> simp only [homeEffect, hh]

/-- Performing a local access that finds nothing against it. -/
theorem performLocal_home {s1 : State} {a : Access} (hb : ∀ r sc, a.how ≠ .barrier r sc)
    (hc : homeCheck s1 a = none) (hf : lineBusy s1 a.pa (opWrites a.how) = none)
    (hp : opReads a.how = true → (s1.heat a.pa).isPoison a.pa = false ∧
      (opSize a.how = 16 → (s1.heat a.pa).isPoison (a.pa + 8) = false))
    (ht : (a.how = .syncRead → (s1.heat a.pa).isFull a.pa = true) ∧
      (∀ v, a.how = .syncWrite v → (s1.heat a.pa).isFull a.pa = false))
    (hw : a.how = .await → (s1.heat a.pa).isFull a.pa = true) :
    performLocal s1 a = .done (issueEffect s1 a).1 (issueEffect s1 a).2.1 (issueEffect s1 a).2.2 := by
  unfold performLocal issueEffect
  split
  · unfold atHome
    rw [hc]
    dsimp only
    rw [hf]
    unfold State.lateWrite
    cases a.how <;> rfl
  · exact perform_home hb hc hf rfl hp ht hw

theorem localAccess_done {s1 s2 : State} {sl : Slot} {a : Access} {v0 v1 : Word} (hp : performLocal s1 a = .done s2 v0 v1)
    (hb : ∀ r sc, a.how ≠ .barrier r sc) :
    localAccess s1 sl a = .next (s2.retire (resultSlot s2 sl a.how a.dst v0 v1)) := by
  unfold localAccess
  rw [hp]
  obtain ⟨srcs, org, va, pa, pc, job, launch, part, user, ord, handler, release, dst, how⟩ := a
  cases how with
  | barrier r sc => exact absurd rfl (hb r sc)
  | _ => rfl

/-- The place of an access whose home the slot's core serves (R338). -/
theorem place_home {s : State} {sl : Slot} {va : Word} {x : Xlat} {d : Nat} {how : Perform} (hty : x.ty = 0)
    (hpa : paOk s x.pa = true) (hm : x.dev = s.fabric.self) (hs : servesHome s.here x.pa = true) (hr : region x.pa < 4)
    (hw : s.mustWait = false) : place s sl va x d how = localAccess s sl (threadAccess s sl va x d how 0) := by
  have hc : throughCache s x how = false := by unfold throughCache; rw [hty]; rfl
  have h1 : ¬x.ty = 1 := by omega
  have h2 : ¬x.ty = 2 := by omega
  have hh : (x.dev = s.fabric.self && servesHome s.here x.pa && region x.pa < 4) = true := by
    rw [hs]; simp only [hm, decide_true, Bool.and_true, Bool.true_and, decide_eq_true_eq]; exact hr
  unfold place
  dsimp only
  rw [if_neg h2, hc, if_neg (show ¬false = true by decide), if_neg h1]
  simp only [h1, decide_false, Bool.false_and, Bool.false_eq_true, if_false, hpa, Bool.not_true, Bool.and_false]
  rw [hh, hw]
  by_cases hp : opPosted how = true
  · rw [if_pos hp, if_pos rfl]
  · have hph : phasedBarrier s x how = false := by
      unfold phasedBarrier; rw [hty, show ((0 : Nat) == 1) = false from rfl, Bool.and_false, Bool.false_and]
    rw [if_neg hp, if_neg (by decide), hph, Bool.and_false, if_neg (by decide), if_pos rfl]

/-- A global access that runs at once where the slot stands (R259, R338). -/
theorem globalAccess_home {s s1 : State} {va : Word} {d : Nat} {how : Perform} {x : Xlat}
    (h : AtHome s va d how x s1) (hb : ∀ r sc, how ≠ .barrier r sc) (haw : how ≠ .await) (sl : Slot) (hsl : sl.task = s.me.task)
    (hsup : sl.sup = s.me.sup) :
    globalAccess s sl va d how = .next
      ((issueEffect s1 (accessOf s va x d how)).1.retire
        (resultSlot (issueEffect s1 (accessOf s va x d how)).1 sl how d
          (issueEffect s1 (accessOf s va x d how)).2.1
          (issueEffect s1 (accessOf s va x d how)).2.2)) := by
  have hs1 : s1 = s.setMem s1.mem := translate_mem h.translated
  have hcur : s1.sched = s.sched := by rw [hs1]; rfl
  have hfab : s1.fabric = s.fabric := by rw [hs1]; rfl
  have hhere : s1.here = s.here := by unfold State.here; rw [hcur]
  have hme : s1.me = s.me := by rw [hs1]; rfl
  have hpart : s1.partOfTask s.me.task = s.partOfTask s.me.task := by rw [hs1]; rfl
  have ha : threadAccess s1 sl va x d how 0 = accessOf s va x d how := by
    unfold threadAccess accessOf
    rw [hhere, hcur, hsl, hsup, hpart]
    unfold gcid
    rw [hfab]
  have hpa : paOk s1 x.pa = true := by
    have hc := h.checked
    unfold homeCheck at hc
    cases hp : paOk s1 x.pa
    · have : paOk s1 (accessOf s va x d how).pa = false := hp
      rw [this] at hc
      simp at hc
    · rfl
  have hwait : s1.mustWait = false := by
    unfold State.mustWait
    rw [hme, h.outst, h.acq]
    rfl
  have hperf := performLocal_home (a := accessOf s va x d how) hb h.checked h.free h.clean h.tagged
    (fun e => absurd e haw)
  have hplace := place_home (s := s1) (sl := sl) (va := va) (d := d) (how := how) h.coherent hpa
    (by rw [hfab]; exact h.mine) (by rw [hhere]; exact h.served) h.region hwait
  have hord3 : (region x.pa = 3 && sl.task.ord) = false := by
    rw [hsl]
    by_cases h3 : region x.pa = 3
    · rw [h.plain h3, Bool.and_false]
    · simp only [h3, decide_false, Bool.false_and]
  unfold globalAccess
  rw [hsl, hsup, h.translated]
  dsimp only
  rw [hsl] at hord3
  rw [hord3, Bool.false_and, Bool.false_and, if_neg (by decide), if_neg (by decide), hplace, ha,
    localAccess_done hperf hb]
  rfl

end Sys2Proof.Machine
end

