-- ==== Sys2Proof/Laws/Step.lean ====
section
/-! SUPPORT. What one step comes to: the next event, the next turn, or the clock. -/

namespace Sys2Proof.Machine

open Sys2Proof

/-- A step with an event due runs it. -/
theorem step_event (s : State) (e : Ev) (rest : List Ev) (h : nextDue s.sched.inbox = some (e, rest)) :
    step s = runEv e (s.setSched { s.sched with free := s.sched.free + 1, inbox := rest }) := by
  unfold step
  dsimp only [setSched_sched]
  rw [h]
  rfl

/-- A step with nothing due and a turn left runs the turn. -/
theorem step_turn (s : State) (a : Agent) (rest : List Agent) (hin : s.sched.inbox = []) (hdt : dueTimer s = none)
    (ht : s.sched.turns = a :: rest) :
    step s = runTurn a (s.setSched { s.sched with free := s.sched.free + 1, turns := rest }) := by
  have hdt' : dueTimer (s.setSched { s.sched with free := s.sched.free + 1, inbox := [] }) = none := hdt
  unfold step
  dsimp only [setSched_sched]
  rw [hin]
  dsimp only [nextDue]
  rw [hdt']
  dsimp only
  rw [ht]
  rfl

end Sys2Proof.Machine
end

