-- ==== Sys2Proof/Machine/Loader.lean ====
section
/-! DEFINITION. Code images: what firmware's loader accepts before it sets X on an image's pages (spec 06 R150), how
statements fill lines (12 R310), and table images (12 R311). No step of the machine uses them: they say which memory
contents the spec lets software prepare (notes/assumptions/101). -/

namespace Sys2Proof.Machine

open Sys2Proof

/-- A line of an image: its address and its sixteen words. -/
abbrev ImageLine := Word × List (BitVec 32)

/-- The lines of an image from its base on. -/
def imageLines (base : Word) (img : List (List (BitVec 32))) : List ImageLine :=
  (img.zipIdx).map (fun x => (base + w64 (64 * x.2), x.1))

/-- The link word of a line. -/
def linkIn (l : ImageLine) : Link := linkOf (l.2.getD 0 0)

/-- Whether a line is a thread line. -/
def threadLine (l : ImageLine) : Bool := (linkIn l).eng == 0

/-- The instructions of a thread line from word n on, with the words' numbers (R284, R285); a word that names none is passed
over. -/
def threadCode (ws : List (BitVec 32)) (cnt : Nat) : Nat → Nat → List (Nat × Instr)
  | 0, _ => []
  | fuel + 1, n =>
    if cnt < n then []
    else
      let w := (ws.getD n 0).toNat
      let rest := threadCode ws cnt fuel (n + if isLong w then 2 else 1)
      match decodeThread w (ws.getD (n + 1) 0).toNat with
      | .ok i => (n, i) :: rest
      | .error _ => rest

/-- The instructions of a line. -/
def codeIn (l : ImageLine) : List (Nat × Instr) := threadCode l.2 (linkIn l).cnt 15 1

/-- The displacement of a branch or call, in words (R295, R330). -/
def wordDisp : Instr → Option Word
  | .br d => some (d.signExtend 64)
  | .call _ d => some (d.signExtend 64)
  | .brz _ d | .brnz _ d | .brltz _ d | .brgez _ d | .brbit _ _ d => some (d.signExtend 64)
  | _ => none

/-- The lines to which control may go from a line by its link, a branch or a call: the edges of R150. -/
def edgesOf (l : ImageLine) : List Word :=
  (nextLine l.1 (linkIn l)).toList ++
    (codeIn l).filterMap (fun x => (wordDisp x.2).map (fun d => lineOf (l.1 + w64 (4 * x.1) + 4 * d)))

/-- The lines to which a call or a jump of a line lets control return: where the fall-through of it lies (R284). -/
def returnsOf (l : ImageLine) : List Word :=
  (codeIn l).filterMap (fun x => match x.2 with
    | .call _ _ | .jmp _ => if x.1 < (linkIn l).cnt then some l.1 else nextLine l.1 (linkIn l)
    | _ => none)

/-- Whether a line holds an indirect jump. -/
def jumps (l : ImageLine) : Bool :=
  (codeIn l).any (fun x => match x.2 with
    | .jmp _ => true
    | _ => false)

/-- The line of an image at an address. -/
def lineAt (ls : List ImageLine) (a : Word) : Option ImageLine := ls.find? (fun l => l.1 == a)

/-- The longest path from each thread line to a line with Q, both ends counted, none where no such line is reached. The
lines come from the highest address down: an edge to a line not above its own leads to one with Q in an image that is
accepted (R150), which counts 1. -/
def quietPaths (ls : List ImageLine) : List (Word × Nat) :=
  ls.foldr (fun l known =>
    if !threadLine l then known
    else if (linkIn l).q then (l.1, 1) :: known
    else
      let after := (edgesOf l).filterMap (fun t =>
        if t.toNat ≤ l.1.toNat then (lineAt ls t).bind (fun x => if (linkIn x).q then some 1 else none)
        else (known.find? (fun x => x.1 == t)).map (·.2))
      match after with
      | [] => known
      | _ => (l.1, 1 + after.foldl max 0) :: known) []

/-- The starts of the paths of R150: the lines with the entry bit, and the lines reached from a quiet point. -/
def pathStarts (ls : List ImageLine) : List Word :=
  let code := ls.filter threadLine
  (code.filter (fun l => (linkIn l).ent)).map (·.1) ++
    (code.filter (fun l => (linkIn l).q)).flatMap edgesOf ++ code.flatMap returnsOf

/-- Whether the loader accepts a thread code image (R150). -/
def loaderAccepts (base : Word) (img : List (List (BitVec 32))) : Bool :=
  let ls := imageLines base img
  let paths := quietPaths ls
  ls.all (fun l => threadLine l || !(linkIn l).q) &&
  (ls.filter threadLine).all (fun l => ((linkIn l).q || !jumps l) &&
    (edgesOf l).all (fun t => decide (l.1.toNat < t.toNat) || (lineAt ls t).all (fun x => (linkIn x).q))) &&
  (pathStarts ls).all (fun t => (paths.find? (fun x => x.1 == t)).all (fun x => decide (x.2 ≤ 64)))

/-- The words of statements put into lines of one engine, in order (R310): a statement that does not fit in the words left
begins the next line. -/
def packLines (cap : Nat) : List (List (BitVec 32)) → List (BitVec 32) → List (List (BitVec 32))
  | [], cur => if cur.isEmpty then [] else [cur]
  | x :: rest, cur =>
    if cur.length + x.length ≤ cap then packLines cap rest (cur ++ x)
    else cur :: packLines cap rest x

/-- The words that lines of an engine hold (R285): 15, but 12 in a copy line and 14 in a matrix line. -/
def lineCap (eng : Nat) : Nat := if eng = 1 then 12 else if eng = 2 then 14 else 15

/-- A link word from its fields (R283). -/
def linkWord (eng : Nat) (q : Bool) (cnt : Nat) (ent : Bool) (next : Int) : BitVec 32 :=
  BitVec.ofNat 32 (eng * 2 ^ 30 + b2n q * 2 ^ 29 + cnt * 2 ^ 25 + b2n ent * 2 ^ 24) ||| (BitVec.ofInt 24 next).zeroExtend 32

/-- The lines of one engine's statements with their link words: NEXT leads to the next, and is 0 in the last (R310). The
first is an entry line where `ent` says so. -/
def codeLines (eng : Nat) (ent : Bool) (stmts : List (List (BitVec 32))) : List (List (BitVec 32)) :=
  let ls := packLines (lineCap eng) stmts []
  (ls.zipIdx).map (fun x =>
    (linkWord eng false x.1.length (ent && x.2 == 0) (if x.2 + 1 < ls.length then 1 else 0) ::
      (x.1 ++ List.replicate (15 - x.1.length) 0)))

/-- Puts a code behind those of lesser and of equal value. -/
def insCode (vals : List Nat) (c : Nat) : List Nat → List Nat
  | [] => [c]
  | d :: l => if (fmtW19.val (vals.getD c 0)).cmp (fmtW19.val (vals.getD d 0)) == .lt then c :: d :: l
              else d :: insCode vals c l

/-- The table image of 2^WID values in W19 (R311, R255): the entries, the sort order, the header. A table of NaNs alone, and
a WID or a number of values that is none, is rejected. -/
def tableImage (wid : Nat) (vals : List Nat) : Option (List Byte) :=
  let nan (v : Nat) : Bool := (fmtW19.val v).isNan
  let codes := (List.range vals.length).filter (fun c => !nan (vals.getD c 0))
  let sorted := codes.foldl (fun l c => insCode vals c l) []
  let nans := (List.range vals.length).filter (fun c => nan (vals.getD c 0))
  match sorted.head?, sorted.getLast? with
  | some first, some last =>
    if (wid = 4 ∨ wid = 6 ∨ wid = 8) ∧ vals.length = 2 ^ wid then
      let hdr := first * 2 ^ 40 + last * 2 ^ 32 + b2n (!nans.isEmpty) * 2 ^ 24 + (nans.head?).getD 0 * 2 ^ 16 +
        wid * 2 ^ 12 + sorted.length
      some ((List.range 256).flatMap (fun c =>
          let v := vals.getD c 0
          natBytes 4 (if nan v then 0x3FE00 else v % 2 ^ 19)) ++
        (sorted ++ List.replicate (256 - sorted.length) 0).flatMap (natBytes 1) ++ natBytes 8 hdr ++ List.replicate 56 0)
    else none
  | _, _ => none

end Sys2Proof.Machine
end

