-- ==== Sys2Proof/Tests/Slice0.lean ====
section
/-! SUPPORT. Small tests on hand: ill-formed terms that WellFormed refuses, words written out from the spec's encodings,
single steps whose expected results are the spec's own, and for each statement with hypotheses states that meet them. -/

namespace Sys2Proof.Tests

set_option Elab.async false

open Sys2Proof Sys2Proof.Machine Sys2Proof.Safety

/-! ## States to test on -/

/-- Registers from g1 on, full. -/
def fullRegs : Nat → List Word → Map RegCell
  | _, [] => []
  | n, v :: l => (n, ⟨v, true, false⟩) :: fullRegs (n + 1) l

/-- Slot 0 of a core runs a plain task of that core with 32 registers, at user level, and issues the word at 0x4004. -/
def at_ (k : Nat) (l : List Word) : State :=
  let sl : Slot := { Slot.reset with st := .running, pc := 0x4004, regs := fullRegs 1 l,
                                     task := { Task.reset with regs := 3, dcore := k } }
  ({ State.reset with sched := { Sched.reset with cur := ⟨k, 0⟩, ir := ⟨0, 0x4004, 0x4008, false, false⟩ } } : State).setSlot
    ⟨k, 0⟩ sl

/-- A change to the issuing slot. -/
def mine (s : State) (f : Slot → Slot) : State := s.setMe (f s.me)

/-- The same at supervisor level. -/
def super (s : State) : State := mine s (fun sl => { sl with sup := true })

/-- Job 0 with the page table of the probe, which maps the first GiB of region 0 (notes/assumptions/6). -/
def mapped (s : State) : State :=
  (s.setMem (probeMem s.mem 0 0)).setWork { s.work with jobs := mput s.work.jobs 0 probeJob }

/-- A launch that runs, with a task counted. -/
def launch0 : Launch :=
  { st := 2, npred := 0, graph := 0, count := 2, handler := 0, hcore := 0, part := 0, init := 0, fail := false,
    multi := false, ord := false, save := 0, farea := 0, fahead := 0, phase := 0, start := 0, end_ := 0, job := 0,
    cancelled := false, stalled := [], sent := (0, 0), recv := (0, 0), colour := false, modules := [] }

/-- The state with launch 0 running. -/
def launched (s : State) : State := s.setWork { s.work with launches := mput s.work.launches 0 launch0 }

theorem ready_of {s : State} {m : Demand}
    (h : (∀ r ∈ m.names, r < s.me.task.nregs) ∧ (∀ r ∈ m.reads, (s.view s.me r).val?.isSome) ∧
      (∀ r ∈ m.dests, (s.me.cell r).pend = false)) : Ready s m := ⟨h.1, h.2.1, h.2.2⟩

theorem of_none {α : Type} {o : Option α} {p : α → Prop} (h : o = none) : ∀ a, o = some a → p a := by
  intro a e
  rw [h] at e
  cases e

theorem of_some {α : Type} {o : Option α} {p : α → Prop} {x : α} (h : o = some x) (hx : p x) : ∀ a, o = some a → p a := by
  intro a e
  rw [h] at e
  cases e
  exact hx

/-- What an instruction leaves, where it answers a next state. -/
def after {α : Type} (i : Instr) (s : State) (f : State → α) : Option α :=
  match exec i s with
  | .next t => some (f t)
  | _ => none

/-! ## WellFormed refuses -/

/-- A term for each check of `Instr.wf` that the check refuses. -/
theorem test_ill_formed_scalar :
    (Instr.add ⟨1, 2, 3, false, false, false⟩ 3).wf = false ∧ (Instr.zext ⟨1, 2, false, false⟩ 3).wf = false ∧
    (Instr.fadd ⟨1, 2, 3, false, false, false⟩ 5 0).wf = false ∧ (Instr.fcvt ⟨1, 2, false, false⟩ 0 7 1).wf = false ∧
    (Instr.iter 1 0).wf = false := by decide

theorem test_ill_formed_memory :
    (Instr.ld 1 2 false 7 0).wf = false ∧ (Instr.ldacq ⟨1, 2, false, false⟩ 6).wf = false ∧
    (Instr.strel ⟨1, 2, false, false⟩ 7).wf = false ∧ (Instr.amo ⟨1, 2, 3, false, false, false⟩ 0 0).wf = false ∧
    (Instr.amo ⟨1, 2, 3, false, false, false⟩ 4 2).wf = false ∧ (Instr.amo ⟨1, 2, 3, false, false, false⟩ 9 3).wf = false ∧
    (Instr.red ⟨1, 2, false, false⟩ 4 1).wf = false ∧ (Instr.red ⟨1, 2, false, false⟩ 8 0).wf = false ∧
    (Instr.fence 3 0).wf = false ∧ (Instr.fence 0 6).wf = false ∧ (Instr.ackw 6).wf = false ∧
    (Instr.bararr ⟨1, 2, false⟩ 7).wf = false ∧ (Instr.bararn ⟨1, 2, false⟩ 6).wf = false ∧
    (Instr.ldsN ⟨1, 2, false, 3, 0⟩).wf = false := by decide

theorem test_ill_formed_vector :
    (Instr.vadd ⟨0, 1, 2, false, false, false⟩ 3).wf = false ∧ (Instr.vbcst 0 false 11 1).wf = false ∧
    (Instr.vaddSat ⟨0, 1, 2, false, false, false⟩ 8).wf = false ∧ (Instr.vshlS ⟨0, 1, false, false⟩ 10 1).wf = false ∧
    (Instr.vcmpUn ⟨0, 1, 2, false, false, false⟩ 2).wf = false ∧ (Instr.vscl ⟨0, 1, false, false⟩ 0 1).wf = false ∧
    (Instr.vcvt ⟨0, 1, false, false⟩ 10 false 0).wf = false ∧ (Instr.vcvt ⟨0, 1, false, false⟩ 8 false 2).wf = false ∧
    (Instr.vcvt ⟨0, 1, false, false⟩ 2 true 1).wf = false ∧ (Instr.vdec ⟨0, 1, false, false⟩ 11 0).wf = false ∧
    (Instr.venc ⟨0, 1, false, false⟩ 13 4).wf = false ∧ (Instr.vpack ⟨0, 1, 2, false, false, false⟩ 2).wf = false := by decide

theorem test_ill_formed_system :
    (Instr.movqPush 1 0 false 1).wf = false ∧ (Instr.movqPop 1 0 1).wf = false ∧ (Instr.movqPop 1 3 5).wf = false ∧
    (Instr.movqPop 1 4 2).wf = false ∧ (Instr.tlbiPage ⟨1, 2, false, false⟩ 0).wf = false ∧
    (Instr.tlbiJob 1 false 6).wf = false ∧ (Instr.tlbiAll 0).wf = false := by decide

theorem test_ill_formed_commands :
    (Instr.mma 0 ⟨0, 0, 0, 0, 0, 0, false, 1⟩).wf = false ∧ (Instr.mmst 0 ⟨0, 1, 15, 0, 0⟩).wf = false ∧
    (Instr.mmld 0 ⟨0, 0, 0, 0, 767⟩).wf = false ∧ (Instr.mmwait 0 0 768 true).wf = false ∧
    (Instr.cpget ⟨0, 767, 1, 0, 0, 0⟩).wf = false ∧ (Instr.cpput ⟨0, 0, 0, 32, 0, 0⟩).wf = false ∧
    (Instr.cpww ⟨0, 0, 0, 0, 0, 1⟩).wf = false ∧ (Instr.cpmc ⟨0, 0, 0, 0, 0, 0⟩).wf = false ∧
    (Instr.cpws ⟨1, 0, 0, 0, 0, 1⟩).wf = false ∧ (Instr.cpfill 0 768 0 0).wf = false ∧
    (Instr.cptag 0 0 0 3).wf = false ∧ (Instr.cpwait 0 768 true).wf = false := by decide

/-! ## Words written out from the spec's encodings -/

/-- R329's loop, and the integer, compare and immediate formats bit by bit (R292, R293, R298, R313, R318). -/
theorem test_decode_scalar :
    decodeThread 0x3C6140A0 0 = .ok (.icvtf ⟨3, 1, false, false⟩ 1 0 0) ∧
    decodeThread 0x38431803 0 = .ok (.ffma ⟨2, 3, 3, false, false, false⟩ 0 0) ∧
    decodeThread 0x10217FFF 0 = .ok (.addi ⟨1, 1, false, 0x7FFF⟩) ∧
    decodeThread 0x3C824890 0 = .ok (.fcvti ⟨4, 2, false, false⟩ 1 1 0) ∧
    decodeThread 0x30200000 0x10000 = .ok (.ldi 1 0x10000) ∧
    decodeThread 0b00001000011000010001010010000001 0 = .ok (.sub ⟨3, 1, 2, true, false, false⟩ 2) ∧
    decodeThread 0b00001100011000010001001101000010 0 = .ok (.cmplt ⟨3, 1, 2, false, true, true⟩ 1) ∧
    decodeThread 0b00100000011000010010000000000101 0 = .ok (.shri ⟨3, 1, false, 5⟩) := by decide +kernel

/-- Branches (R295, R311's BRNZ), JMP and NEST (R300), and codes that name no instruction (R303). -/
theorem test_decode_control :
    decodeThread 0x48440FFF 0 = .ok (.brnz 2 0xFFF) ∧
    decodeThread 0b01001000010100000011000000000111 0 = .ok (.brbit 2 3 7) ∧
    decodeThread 0x4C220000 0 = .ok (.jmp ⟨1, 2, false⟩) ∧ decodeThread 0x50228000 0 = .error .reserved ∧
    decodeThread 0x50220400 0 = .ok (.nest ⟨1, 2, true⟩) ∧
    decodeThread 0x48540000 0 = .error .unusedFunc := by decide +kernel

/-- The words of R348, R350, R352 and R360. -/
theorem test_decode_memory :
    decodeThread 0x60622008 0 = .ok (.ld 3 2 false 2 8) ∧ decodeThread 0x64A27200 0 = .ok (.stx 5 2 false 4) ∧
    decodeThread 0x68C20000 0 = .ok (.ldf ⟨6, 2, false, false⟩) ∧
    decodeThread 0x6C022839 0 = .ok (.strel ⟨2, 5, false, false⟩ 1) ∧
    decodeThread 0x6C83001B 0 = .ok (.ldacq ⟨4, 3, false, false⟩ 3) ∧
    decodeThread 0x70020001 0 = .ok (.visit 2 false) ∧
    decodeThread 0x74C2380C 0 = .ok (.amo ⟨6, 2, 7, false, false, false⟩ 0 3) ∧
    decodeThread 0x7C000013 0 = .ok (.fence 2 3) ∧ decodeThread 0x7CC200C2 0 = .ok (.bararr ⟨6, 2, false⟩ 2) ∧
    decodeThread 0x80891406 0 = .ok (.ldsN ⟨4, 9, false, 1, 6⟩) := by decide +kernel

/-- The words of R423, and R364's VFMA. -/
theorem test_decode_system :
    decodeThread 0x906E2860 0 = .ok (.vfma ⟨0, 1, 2, 3, true, false, false, false⟩ 10) ∧
    decodeThread 0xA0A20000 0 = .ok (.movqPop 5 0 0) ∧ decodeThread 0xA0C40000 0 = .ok (.movqPush 6 1 false 0) ∧
    decodeThread 0xA0320100 0 = .ok (.movqPop 1 4 1) ∧ decodeThread 0xB0885001 0 = .ok (.spawn 4 8 10 false) ∧
    decodeThread 0xB0642803 0 = .ok (.post ⟨3, 4, 5, false, false⟩) ∧
    decodeThread 0xB0620004 0 = .ok (.launch ⟨3, 2, false⟩) ∧ decodeThread 0xB4043000 0 = .ok (.send 4 6 false) ∧
    decodeThread 0xB5000001 0 = .ok (.recv 8) ∧ decodeThread 0xB8400000 0 = .ok (.vtkey 2) ∧
    decodeThread 0xBCE30000 0 = .ok (.callt ⟨7, 3, false⟩) ∧
    decodeThread 0xBCE32007 0 = .ok (.maskq ⟨7, 3, 4, false, false⟩) ∧
    decodeThread 0xC1280000 0 = .ok (.lease ⟨9, 8, false⟩) ∧ decodeThread 0xC1280002 0 = .ok (.leaseq ⟨9, 8, false⟩) ∧
    decodeThread 0x04200003 0 = .ok (.stamp 1) ∧ decodeThread 0x04400004 0 = .ok (.feat 2 0) ∧
    decodeThread 0xE0810008 0 = .ok (.srw 4 0x20) ∧ decodeThread 0xE0021814 0 = .ok (.tlbiPage ⟨2, 3, false, false⟩ 4) ∧
    decodeThread 0xE0430038 0 = .ok (.keykill ⟨2, 3, false⟩) ∧ decodeThread 0xE0200040 0 = .ok (.haltgStop 1) := by decide +kernel

/-- The streams of R382's example, and fut.fail bit by bit (R211). -/
theorem test_decode_commands :
    decodeMatrix 0x18000000 0 = .ok (.mmz 0 0) ∧
    decodeMatrix 0x08000001 0x0A025000 = .ok (.mma 1 ⟨0, 1, 4, 2, 5, 0, false, 0⟩) ∧
    decodeMatrix 0x10000041 0x03D04000 = .ok (.mmst 65 ⟨0, 0, 15, 4, 64⟩) ∧
    decodeMatrix 0x24000061 0 = .ok (.mmend 97) ∧
    decodeCopy 0x0D04007C 0x00401000 0 0x00400000 = .ok (.cpput ⟨4, 64, 31, 0x401000, 64, 0⟩) ∧
    decodeCopy 0x28000005 0 0 0 = .ok (.cpsig 5) ∧ decodeCopy 0x2C000000 0 0 0 = .ok .cpend ∧
    decodeTool 0b00000000010100110010001110001011 = some (.futFail 5 6 7) := by decide +kernel

/-! ## Single steps: the spec's own examples -/

/-- The registers of the table at the end of chapter 13. -/
def edges : State := at_ 0 [0, 0, 0, 0, 0x8000000000000000, 0xFFFFFFFFFFFFFFFF, 0, 70, 0x7FFFFFFF, 1]

/-- A G3 instruction of that table that writes g1. -/
def g1of (a b : Reg) : Ops3 := ⟨1, a, b, false, false, false⟩

theorem test_shl_by_70 : after (.shl (g1of 5 8) 0) edges (·.me.g 1) = some 0 := by decide +kernel
theorem test_sar_by_70 : after (.sar (g1of 5 8) 0) edges (·.me.g 1) = some 0xFFFFFFFFFFFFFFFF := by decide +kernel
theorem test_rol_by_70 : after (.rol (g1of 5 8) 0) edges (·.me.g 1) = some 0x20 := by decide +kernel
theorem test_add_i32_wraps : after (.add (g1of 9 10) 1) edges (·.me.g 1) = some 0xFFFFFFFF80000000 := by decide +kernel
theorem test_add_n32_wraps : after (.add (g1of 9 10) 2) edges (·.me.g 1) = some 0x80000000 := by decide +kernel
theorem test_clz_zero : after (.clz ⟨1, 7, false, false⟩ 0) edges (·.me.g 1) = some 64 := by decide +kernel
theorem test_abs_most_negative : after (.abs ⟨1, 5, false, false⟩ 0) edges (·.me.g 1) = some 0x8000000000000000 := by decide +kernel
theorem test_shr_n32 : after (.shr (g1of 5 7) 2) edges (·.me.g 1) = some 0 := by decide +kernel
theorem test_div_overflow_is_late :
    after (.div (g1of 5 6) 0) edges (fun t => (t.me.cell 1, t.me.late)) =
      some (⟨0, true, false⟩, [⟨1, 0x8000000000000000, 64⟩]) := by decide +kernel
theorem test_remn_by_zero :
    after (.remn (g1of 5 7) 0) edges (·.me.late) = some [⟨1, 0x8000000000000000, 64⟩] := by decide +kernel

/-- The float corners of chapter 13: FMIN of a NaN and 2.0 and of the zeros, FCVT of 70,000, FCVTI of 3.0e9, FNEG of a
NaN, FRND of −0.4. -/
def floats : State := at_ 0 [0, 0x7FA00001, 0x40000000, 0x80000000, 0x4788B800, 0x4F32D05E, 0xBECCCCCD]

theorem test_fmin_nan : after (.fmin (g1of 2 3) 0) floats (·.me.g 1) = some 0x40000000 := by decide +kernel
theorem test_fmin_zeros : after (.fmin (g1of 4 0) 0) floats (·.me.g 1) = some 0x80000000 := by decide +kernel
theorem test_fcvt_f16_overflows : after (.fcvt ⟨1, 5, false, false⟩ 1 0 0) floats (·.me.g 1) = some 0x7C00 := by decide +kernel
theorem test_fcvt_f16_rtz : after (.fcvt ⟨1, 5, false, false⟩ 1 1 0) floats (·.me.g 1) = some 0x7BFF := by decide +kernel
theorem test_fcvti_saturates : after (.fcvti ⟨1, 6, false, false⟩ 0 1 0) floats (·.me.g 1) = some 0x7FFFFFFF := by decide +kernel
theorem test_fneg_nan : after (.fneg ⟨1, 2, false, false⟩ 0) floats (·.me.g 1) = some 0xFFA00001 := by decide +kernel
theorem test_frnd_minus_zero : after (.frnd ⟨1, 7, false, false⟩ 0 0) floats (·.me.g 1) = some 0x80000000 := by decide +kernel

/-- TRAP 3, g5 at 0x400108 with g5 = 41, as R416's example takes it. -/
theorem test_trap_entry :
    let s := at_ 0 [0, 0, 0, 0, 41]
    let s := (s.setSched { s.sched with ir := ⟨0, 0x400108, 0x40010C, false, false⟩ }).setCore 0
      { s.coreAt 0 with tvec := 0xFFE0000000010004 }
    after (.trap 3 5) s (fun t => (t.me.tepc, t.me.tcause, t.me.tval, t.me.sup)) = some (0x40010C, 0x1003, 41, true) := by decide +kernel

/-- A pointer at row 12 with stride 64 steps to row 13 (R364's example). -/
theorem test_pointer_step : ptrRow (ptrStep (w64 (64 * 2 ^ 24 + 12 * 512))) = 13 := by decide +kernel

/-- The elements of R364's VFMA: 1.5·2 + 0.25, the largest f32 doubled, and 0·∞ + 1. -/
theorem test_vfma_elements :
    (fmtF32.enc 0 (((fmtF32.val 0x3FC00000).mul (fmtF32.val 0x40000000)).add 0 (fmtF32.val 0x3E800000)) = 0x40500000) ∧
    (fmtF32.enc 0 (((fmtF32.val 0x7F7FFFFF).mul (fmtF32.val 0x40000000)).add 0 (fmtF32.val 0)) = 0x7F800000) ∧
    (fmtF32.enc 0 (((fmtF32.val 0).mul (fmtF32.val 0x7F800000)).add 0 (fmtF32.val 0x3F800000)) = 0x7FC00000) := by decide +kernel

/-- VRCP of 3.0 and VEXP of 0.5 are rounded to twelve significant bits (R369). -/
theorem test_twelve_bits : vrcpE 0x40400000 = 0x3EAAB000 ∧ vexpE 0x3F000000 = 0x3FB50000 := by decide +kernel

/-- A store at its home is read back there, byte by byte the least significant first (R260, R340). -/
theorem test_store_then_byte :
    after (.st 2 1 false 3 0) (mapped (at_ 2048 [0x100, 0x1122334455667788])) (fun t => bytesAt t.mem.cells 0x100 8) =
      some [0x88, 0x77, 0x66, 0x55, 0x44, 0x33, 0x22, 0x11] := by decide +kernel

/-- A load of i16 sign-extends (R340). -/
theorem test_load_i16 :
    let s := mapped (at_ 2048 [0x100])
    after (.ld 2 1 false 1 0) (s.setMem { s.mem with cells := setBytes s.mem.cells 0x100 [0x01, 0x80] }) (·.me.g 2) =
      some 0xFFFFFFFFFFFF8001 := by decide +kernel

/-- R195: the image of the future table stands at offset 0x0200_0000 of the MMIO window, at 64 bytes an entry; byte 5 of
word 0 of a FREE entry is the low byte of its generation, [47:40]. -/
theorem test_future_image : State.reset.mmioRead (0x2000000 + 64 * 3 + 5) 1 = 1 := by decide +kernel

/-- R113: FREPLAY at offset 0x0010_0000; bit 63 set aborts. -/
theorem test_freplay_image : (State.reset.mmioWrite 0x100000 8 (2 ^ 63 + 7)).sched.inbox =
    [.freplayAbort 7] := by decide +kernel

/-- A word stored where the next step fetches runs (R284): ADDI g2, g0, 10. -/
theorem test_step_runs_the_word :
    (match step (State.reset.withFetchWord 32 0x1040000A) with
      | .next t => some ((t.slotAt ⟨0, 0⟩).g 2, (t.slotAt ⟨0, 0⟩).pc)
      | _ => none) = some (10, 0x4008) := by decide +kernel

/-! ## Witnesses: states and operands that meet the hypotheses of the statements -/

/-- A plain task on core 0 with g1 to g8. -/
def plain : State := at_ 0 [8, 7, 0x1000, 5, 0x40, 3, 1, 2]

/-- ThreadRoundTrip, CommandRoundTrip: instructions with operands at the ends of their ranges. -/
theorem witness_round_trips :
    (Instr.vdec ⟨3, 3, true, true⟩ 12 7).wf = true ∧ threadInstr (.vdec ⟨3, 3, true, true⟩ 12 7) = true ∧
    (Instr.ldih 31 0xFFFFFFFF).wf = true ∧ threadInstr (.ldih 31 0xFFFFFFFF) = true ∧
    (Instr.mmst 0x3FFFFFF ⟨3, 15, 0, 15, 766⟩).wf = true ∧ matrixInstr (.mmst 0x3FFFFFF ⟨3, 15, 0, 15, 766⟩) = true ∧
    (Instr.cpmc ⟨0, 767, 0, 0x3FFFFFFFFFFFC0, 0xFFC0, 0xFFFF⟩).wf = true ∧
    copyInstr (.cpmc ⟨0, 767, 0, 0x3FFFFFFFFFFFC0, 0xFFC0, 0xFFFF⟩) = true ∧ toolInstr (.capProbe 31 31 31) = true := by decide +kernel

/-- StepRunsTheInstruction, a thread's turn: ADDI g2, g0, 10 at word 1 of its line. -/
theorem witness_step_thread :
    let s := State.reset.withFetchWord 32 0x1040000A
    let ws := probeWords 0x1040000A
    let s1 := settleAcquire (atTurn s ⟨0, 0⟩ [])
    let sl := s1.slotAt ⟨0, 0⟩
    let k := linkOf (ws.headD 0)
    s.sched.inbox = [] ∧ dueTimer s = none ∧ s.sched.turns = [.slot 0 0] ∧ mayIssue (atTurn s ⟨0, 0⟩ []) = true ∧
    (fetchLine s1 0 sl.task.job (!sl.sup) sl.pc).1 = .line ws ∧
    sl.fell = false ∧ bits sl.pc.toNat 5 2 = 1 ∧ threadLineFault sl k 1 = none ∧
    isLong (fetchedAt sl.pc k ws 1).word.toNat = false ∧
    decodeThread (fetchedAt sl.pc k ws 1).word.toNat (ws.getD 2 0).toNat = .ok (.addi ⟨2, 0, false, 10⟩) := by decide +kernel

/-- A matrix stream of core 0's slot 0 with two commands, MMNOP at stamp 0 and MMEND. -/
def mx0 : MxStream :=
  { slot := 0, job := 0, launch := 0, ord := false, cmds := [(0x04000000, 0), (0x24000001, 0)], ends := 5, idx := 0,
    base := 0, free := 0, off := none, got := [], eta := 0, etb := 0, tfi := 0, tscl := 0, tag := 0, psn := false,
    ovf := false, pause := none, stop := false }

/-- Core 0's slot 0 with that stream, the engine's turn next. -/
def withMx (m : MxStream) : State :=
  let s := (mine plain (fun sl => { sl with streams0 := 1 }))
  (s.setCore 0 { s.coreAt 0 with mx := [m] }).setSched { s.sched with turns := [.matrix 0] }

theorem witness_step_matrix :
    let s := withMx mx0
    let s1 := atTurn s ⟨0, mx0.slot⟩ []
    s.sched.inbox = [] ∧ dueTimer s = none ∧ s.sched.turns = [.matrix 0] ∧ (s1.coreAt 0).mx.head? = some mx0 ∧
    mx0.cmds[mx0.idx]? = some (0x04000000, 0) ∧ mx0.stop = false ∧ mx0.pause = none ∧
    (s1.slotAt ⟨0, 0⟩).halted = false ∧ s1.mgmt.powerLow = false ∧ decodeMatrix 0x04000000 0 = .ok (.mmnop 0) := by decide +kernel

/-- A copy stream of core 0's slot 0 whose command at hand is the first of the line at 0x4000. -/
def cp0 : CpStream :=
  { core := 0, slot := 0, job := 0, launch := 0, ord := false, spec := 0, handler := false, line := 0x4000, cmd := 0,
    first := true, idx := 0, begun := false, seg := 0, owned := 0, row := 0, tag := 0, psn := false, fault := none,
    outstanding := 0, waitFor := none, user := true, ww := false, stop := false, fin := none }

/-- The state with that stream, and a copy line of one command at 0x4000: a link word with CNT 4 and ENT, and the
command's first word. -/
def withCp (c : CpStream) (w : BitVec 32) : State :=
  let s := mapped (mine plain (fun sl => { sl with streams1 := 1 }))
  let ws : List (BitVec 32) := [0x49000000, w] ++ List.replicate 14 0
  let s := s.setMem { s.mem with
    cells := setBytes s.mem.cells 0x4000 (ws.flatMap (fun w => natBytes 4 w.toNat)), code := [⟨codeLoc 0, 0x100, 0, 4, ws⟩] }
  (s.setCluster 0 { s.cluster 0 with copies := [(1, c)] }).setSched { s.sched with turns := [.copy 0 1], cur := ⟨0, 1⟩ }

theorem witness_step_copy :
    let s := withCp cp0 0x04000000
    let s1 := atTurn s ⟨0, 1⟩ []
    let ws : List (BitVec 32) := [0x49000000, 0x04000000] ++ List.replicate 14 0
    s.sched.inbox = [] ∧ dueTimer s = none ∧ s.sched.turns = [.copy 0 1] ∧ s1.cp? 0 1 = some cp0 ∧ cp0.fin = none ∧
    cp0.fault = none ∧ cp0.stop = false ∧ cp0.waitFor = none ∧ (s1.slotAt ⟨cp0.core, cp0.slot⟩).halted = false ∧
    s1.mgmt.powerLow = false ∧
    (fetchLine s1 0 0 true 0x4000).1 = .line ws ∧
    streamLineFault 1 true (linkOf (ws.headD 0)) = none ∧ 0 < (linkOf (ws.headD 0)).cnt ∧
    decodeCopy (ws.getD 1 0).toNat (ws.getD 2 0).toNat (ws.getD 3 0).toNat (ws.getD 4 0).toNat = .ok .cpnop := by decide +kernel

/-- A tool hart's turn with fut.fail x5, x6, x7, and an event that is due. -/
theorem witness_step_hart :
    let s := State.reset.withFetchWord 32 0x0053238B
    let s1 := s.setSched { s.sched with free := s.sched.free + 1, turns := [] }
    let h := s1.hartAt 0
    s.sched.inbox = [] ∧ dueTimer s = none ∧ s.sched.turns = [.hart 0] ∧ h.stall = none ∧
    (hartRuns s1 0 h && h.interrupt.isNone) = true ∧ hartFetch s1 h = .word 0x0053238B ∧
    decodeTool (0x0053238B : BitVec 32).toNat = some (.futFail 5 6 7) := by decide +kernel

theorem witness_step_event :
    evRow .heatDecay .heatDecay ∧ nextDue (State.reset.post .heatDecay).sched.inbox = some (.heatDecay, []) ∧
    (State.reset.post .heatDecay).mgmt.bootFailed = false := ⟨rfl, rfl, rfl⟩

/-- The two LGREQs of a cycle go in ascending order of direction, LGREQ on 3 after LRECALL on 1 (R42). -/
theorem witness_step_order :
    nextDue [.lgreq ⟨0, 3, 0, 0, 0, 0, 0, 0⟩, .heatDecay, .lrecall ⟨0, 1, 0, 0, 0, 0, 0, 0⟩] =
      some (.lrecall ⟨0, 1, 0, 0, 0, 0, 0, 0⟩, [.lgreq ⟨0, 3, 0, 0, 0, 0, 0, 0⟩, .heatDecay]) := by decide +kernel

/-- IntegerResults and FloatResults: a plain, a synchronising and a transient form, d at g0 and at g31. -/
theorem witness_results :
    integerForm (.madd ⟨31, 1, 2, false, true, true⟩ 2) ≠ none ∧
    Ready plain (demand3 ⟨31, 1, 2, false, true, true⟩ false) ∧ (31 : Reg).toNat < plain.me.task.nregs ∧
    compareForm (.sel ⟨3, 1, 2, false, false, false⟩) ≠ none ∧ Ready plain (demand3 ⟨3, 1, 2, false, false, false⟩ true) ∧
    floatForm (.fsub ⟨0, 1, 2, true, false, false⟩ 4 3) ≠ none ∧ Ready plain (demand3 ⟨0, 1, 2, true, false, false⟩ false) :=
  ⟨by decide, ready_of (by decide +kernel), by decide +kernel, by decide, ready_of (by decide +kernel), by decide,
    ready_of (by decide +kernel)⟩

/-- A division's result of g2 in flight and due. -/
def lateState : State := (mine plain (fun sl => { sl with late := [⟨2, 9, 64⟩] })).setSched { plain.sched with stamp := 64 }

/-- LateResults and DivisionCorners, the divisor zero and not. -/
theorem witness_late :
    (lateForm (.div ⟨3, 1, 2, false, false, false⟩ 0)).isSome = true ∧
    Ready plain (demand3 ⟨3, 1, 2, false, false, false⟩ false) ∧
    (lateForm (.fsqrt ⟨3, 1, false, true⟩ 0 0)).isSome = true ∧ Ready plain (demand2 ⟨3, 1, false, false⟩) ∧
    (lateState.slotAt ⟨0, 0⟩).late = [⟨2, 9, 64⟩] ∧ 64 ≤ lateState.now ∧
    (plain.vals (demand3 ⟨3, 1, 2, false, false, false⟩ false)).b ≠ 0 ∧
    Ready edges (demand3 ⟨3, 1, 2, false, false, false⟩ false) ∧
    (edges.vals (demand3 ⟨3, 1, 2, false, false, false⟩ false)).b = 0 := by
  and_intros <;> first | decide +kernel | exact ready_of (by decide +kernel)

/-- ShiftResults: counts below, at and above the width, and a bit at each end. -/
theorem witness_shifts :
    Ready edges (demand3 (g1of 5 8) false) ∧ (edges.vals (demand3 (g1of 5 8) false)).b.toNat = 70 ∧
    (edges.vals (demand3 (g1of 5 10) false)).b.toNat < widthOf 0 ∧ (1 : Reg).toNat < edges.me.task.nregs ∧
    (1 : BitVec 2) ≠ 3 ∧ 31 < widthOf 1 ∧ 63 < widthOf 0 := by
  and_intros <;> first | decide +kernel | exact ready_of (by decide +kernel)

/-- Slot 0 with 8 registers, g9 beyond them; g2 empty, g3 expired, g4 with a write pending. -/
def few : State := mine plain (fun sl =>
  { sl with task := { sl.task with regs := 0 }, expired := 8,
            regs := [(1, ⟨5, true, false⟩), (2, ⟨0, false, false⟩), (3, ⟨0, true, false⟩), (4, ⟨0, false, true⟩)] })

theorem witness_register_traps :
    (∃ r ∈ (demand3 ⟨1, 9, 1, false, false, false⟩ false).names, few.me.task.nregs ≤ r) ∧
    few.view few.me 2 = .empty ∧ few.view few.me 3 = .expired ∧ few.view few.me 4 = .wait ∧
    (demand3 ⟨5, 1, 2, false, false, false⟩ false).reads = [1] ++ 2 :: [] ∧
    (∀ q ∈ [1], few.view few.me q ≠ .empty ∧ few.view few.me q ≠ .expired) ∧
    (∀ q ∈ (demand3 ⟨5, 1, 4, false, false, false⟩ false).reads, few.view few.me q ≠ .empty ∧ few.view few.me q ≠ .expired) ∧
    (∃ q ∈ (demand3 ⟨5, 1, 4, false, false, false⟩ false).reads, few.view few.me q = .wait) ∧
    (∃ q ∈ (demand3 ⟨4, 1, 1, false, false, false⟩ false).dests, (few.me.cell q).pend = true) ∧
    (∀ r ∈ (demand3 ⟨5, 1, 4, false, false, false⟩ false).names, r < few.me.task.nregs) := by decide +kernel

/-- BranchTargets: a branch taken, one not taken, CALL to g31, JMP. -/
theorem witness_branches :
    Ready plain (writesRun 31 1) ∧ branchForm (.brbit 2 2 7) ≠ none ∧ Ready plain (readsA 2 false) ∧
    (plain.vals (readsA 2 false)).a.getLsbD 2 = true ∧ (plain.vals (readsA 2 false)).a ≠ 0 ∧ Ready plain (giDemand 1 3 true) :=
  ⟨ready_of (by decide +kernel), by decide, ready_of (by decide +kernel), by decide +kernel, by decide +kernel,
    ready_of (by decide +kernel)⟩

/-- SystemRegisters: every read form; SRW of a numbered register, of TVEC and of a read-only one. -/
theorem witness_system_registers :
    readForm plain (.stamp 31) ≠ none ∧ readForm plain (.srr 1 0x13) ≠ none ∧ readForm (super plain) (.srr 1 0x22) ≠ none ∧
    readForm plain (.vtkey 30) ≠ none ∧ Ready plain (writesRun 30 2) ∧ (super plain).me.sup = true ∧
    sysKnown 7 = true ∧ sysKnown 0x20 = true ∧ sysKnown 0x31 = true ∧ Ready (super plain) (readsD 1) := by
  and_intros <;> first | decide +kernel | exact ready_of (by decide +kernel)

/-- Core 0 with a trap handler at 0x10004. -/
def withTvec (s : State) : State := s.setCore 0 { s.coreAt 0 with tvec := 0x10004 }

/-- TrapEntryAndReturn: with a handler, without one, in a trap, ERET in and out of a trap. -/
theorem witness_trap_entry :
    ((withTvec plain).slotAt ⟨0, 0⟩).intrap = false ∧ ((withTvec plain).coreAt 0).tvec &&& ~~~3#64 ≠ 0 ∧
    (plain.coreAt 0).tvec &&& ~~~3#64 = 0 ∧
    (mine (super plain) (fun sl => { sl with intrap := true })).me.sup = true ∧
    (mine (super plain) (fun sl => { sl with intrap := true })).me.intrap = true ∧
    (super plain).me.sup = true ∧ (super plain).me.intrap = false := by decide +kernel

/-- A speculative ordered task: it is not the safe task of its partition. -/
def ordered (s : State) : State := mine s (fun sl => { sl with task := { sl.task with ord := true, pkt := ⟨0, 5, 0, 0, 0, 0, 0, 0⟩ } })

/-- SoftwareTrapsAndPrivilege: a plain task, a speculative one, and privileged instructions at user level. -/
theorem witness_software_traps :
    Ready plain (readsA 1 false) ∧ (plain.slotAt ⟨0, 0⟩).task.ord = false ∧
    ((ordered plain).slotAt ⟨0, 0⟩).task.ord = true ∧ ((ordered plain).slotAt ⟨0, 0⟩).task.handler = false ∧
    (ordered plain).isSafe ((ordered plain).slotAt ⟨0, 0⟩).task = false ∧ plain.me.sup = false ∧
    privileged plain (.tlbiAll 5) = true ∧ privileged plain (.lease ⟨1, 2, false⟩) = true ∧
    privileged plain (.srw 1 0x20) = true := by
  and_intros <;> first | decide +kernel | exact ready_of (by decide +kernel)

/-- A guest on dock core 2048, the home of the line at address 0: g1 to g6 hold 8, a value, 0x10, 9, 0 and 3. -/
def dock : State := mine (mapped (at_ 2048 [8, 0x55, 0x10, 9, 0, 3])) (fun sl => { sl with task := { sl.task with dcore := 0 } })

/-- The word at address 8 is empty. -/
def dockEmpty : State := dock.setMem { dock.mem with empties := [1] }

/-- Core 0 with the same registers and page table: the homes lie elsewhere. -/
def away : State := mapped (at_ 0 [8, 0x55, 0x10, 9, 0, 3])

theorem atHome_of {s : State} {va : Word} {d : Nat} {how : Perform} {x : Xlat}
    (ht : (translate s s.here s.me.task.job (!s.me.sup) va (opNeed how)).1 = .ok x)
    (hp : x.ty = 0 ∧ x.dev = s.fabric.self ∧ servesHome s.here x.pa = true ∧ Machine.region x.pa < 4 ∧
      s.me.task.ord = false ∧ s.me.outst = 0 ∧ s.me.acq = none)
    (hc : homeCheck (translate s s.here s.me.task.job (!s.me.sup) va (opNeed how)).2 (accessOf s va x d how) = none ∧
      lineBusy (translate s s.here s.me.task.job (!s.me.sup) va (opNeed how)).2 x.pa (opWrites how) = none ∧
      (((translate s s.here s.me.task.job (!s.me.sup) va (opNeed how)).2.heat x.pa).isPoison x.pa = false ∧
        ((translate s s.here s.me.task.job (!s.me.sup) va (opNeed how)).2.heat x.pa).isPoison (x.pa + 8) = false))
    (hr : how = .syncRead →
      ((translate s s.here s.me.task.job (!s.me.sup) va (opNeed how)).2.heat x.pa).isFull x.pa = true)
    (hw : ∀ v, how = .syncWrite v →
      ((translate s s.here s.me.task.job (!s.me.sup) va (opNeed how)).2.heat x.pa).isFull x.pa = false) :
    AtHome s va d how x (translate s s.here s.me.task.job (!s.me.sup) va (opNeed how)).2 :=
  ⟨Prod.ext ht rfl, hp.1, hp.2.1, hp.2.2.1, hp.2.2.2.1, fun _ => hp.2.2.2.2.1, hp.2.2.2.2.2.1, hp.2.2.2.2.2.2, hc.1, hc.2.1,
    fun _ => ⟨hc.2.2.1, fun _ => hc.2.2.2⟩, ⟨hr, hw⟩⟩

/-- AccessAtHome: a load, a synchronising read of a full word and a synchronising write of an empty one, CAS2. -/
theorem witness_at_home_load :
    (memForm (.ld 7 1 false 6 0)).isSome = true ∧ Ready dock ⟨some (1, false), none, none, [], [7]⟩ ∧ (8 : Word).toNat % 4 = 0 ∧
    AtHome dock 8 7 (.load 6) ⟨0, 8, 0⟩ (translate dock 2048 0 true 8 .read).2 :=
  ⟨by decide, ready_of (by decide +kernel), by decide, atHome_of (by decide +kernel) (by decide +kernel)
    (by decide +kernel) (by decide) (by intro v h; cases h)⟩

theorem witness_at_home_sync :
    (memForm (.ldf ⟨7, 1, true, false⟩)).isSome = true ∧
    AtHome dock 8 7 .syncRead ⟨0, 8, 0⟩ (translate dock 2048 0 true 8 .read).2 ∧
    (memForm (.stf ⟨1, 2, false, false⟩)).isSome = true ∧ (plainTask dockEmpty && dockEmpty.coreRelease) = true ∧
    AtHome dockEmpty 8 0 (.syncWrite 0x55) ⟨0, 8, 0⟩ (translate dockEmpty 2048 0 true 8 .write).2 ∧
    (memForm (.cas2 ⟨4, 3, 2, false, false, false⟩)).isSome = true ∧ (0x10 : Word).toNat % 16 = 0 ∧
    AtHome dock 0x10 4 (.cas2 9 0 0x55 0x10) ⟨0, 0x10, 0⟩ (translate dock 2048 0 true 0x10 .both).2 :=
  ⟨by decide, atHome_of (by decide +kernel) (by decide +kernel) (by decide +kernel) (by decide +kernel) (by intro v h; cases h),
    by decide, by decide +kernel,
    atHome_of (by decide +kernel) (by decide +kernel) (by decide +kernel) (by intro h; cases h) (by intro v h; decide +kernel),
    by decide, by decide,
    atHome_of (by decide +kernel) (by decide +kernel) (by decide +kernel) (by intro h; cases h) (by intro v h; cases h)⟩

/-- Core 0 with its own scratchpad mapped at address 0. -/
def ownScratch : State :=
  let s := at_ 0 [8, 0x55, 0x10, 9, 0, 3]
  let s := mapped s
  s.setMem { s.mem with cells := setBytes s.mem.cells 0x3000 (natBytes 8 (3 * 2 ^ 46 + 903)) }

/-- AccessAtHome and AcquireLoadReleaseStore: a store and a tag write to the core's own scratchpad, which are then on their
way (R232). -/
theorem witness_at_home_scratchpad :
    AtHome ownScratch 8 0 (.store 8 0x55) ⟨0, 3 * 2 ^ 48 + 8, 0⟩ (translate ownScratch 0 0 true 8 .write).2 ∧
    AtHome ownScratch 8 0 (.tagWrite false) ⟨0, 3 * 2 ^ 48 + 8, 0⟩ (translate ownScratch 0 0 true 8 .write).2 ∧
    Machine.region (3 * 2 ^ 48 + 8) = 3 :=
  ⟨atHome_of (by decide +kernel) (by decide +kernel) (by decide +kernel) (by decide) (by intro v h; cases h),
    atHome_of (by decide +kernel) (by decide +kernel) (by decide +kernel) (by decide) (by intro v h; cases h), by decide⟩

/-- The example image of 12_isa_encoding.md, with or without Q on the line of the loop (R150). -/
def exampleImage (link : BitVec 32) : List (List (BitVec 32)) :=
  [0x07000002 :: 0x30200000 :: 0x00010000 :: 0x1040000A :: List.replicate 12 0,
   0xC4000000 :: 0x89ABCDEF :: 0x01234567 :: List.replicate 13 0,
   link :: 0x10427FFF :: 0x48440FFF :: 0xB0000000 :: List.replicate 12 0]

theorem test_loader : loaderAccepts 0x400000 (exampleImage 0x26000000) = true ∧
    loaderAccepts 0x400000 (exampleImage 0x06000000) = false := by decide +kernel

theorem test_packing : (codeLines 0 true ((List.replicate 14 [0]) ++ [[0x30200000, 1]])).map (fun l => (l.getD 0 0, l.getD 1 0)) =
    [(0x1D000001, 0), (0x04000000, 0x30200000)] := by decide +kernel

theorem test_table_image :
    (tableImage 4 ((List.range 15).map (fun c => (15 - c) * 1024) ++ [0x3FE00])).map
      (fun t => (tblValid t, tblHdr t, tblSort t)) =
      some (true, 14 * 2 ^ 40 + 2 ^ 24 + 15 * 2 ^ 16 + 4 * 2 ^ 12 + 15, (List.range 15).reverse) := by decide +kernel

/-- A store to the own scratchpad is seen from the cycle after issue + 3 (R232). -/
theorem test_scratchpad_store_late :
    let t := (match exec (.st 2 1 false 3 0) ownScratch with
      | .next t => t
      | _ => ownScratch)
    byteAt t.mem.cells (scrPa 0 8) = 0 ∧ (t.coreAt 0).writes.map ScrWrite.due = [ownScratch.now + 4] ∧
    byteAt ((t.setSched { t.sched with stamp := t.now + 4 }).flushWrites 0).mem.cells (scrPa 0 8) = 0x55 := by decide +kernel

/-- AccessTraps: an address that is not aligned, and a store in an ordered task. -/
theorem witness_access_traps :
    (memForm (.ldx 7 4 false 5)).isSome = true ∧ Ready dock ⟨some (4, false), some (5, false), none, [], [7]⟩ ∧
    (9 + 0 : Word).toNat % 8 ≠ 0 ∧ (memForm (.st 2 1 false 3 0)).isSome = true ∧
    Ready (ordered dock) ⟨some (1, false), none, some 2, [], []⟩ ∧ opWrites (.store 8 0x55) = true ∧
    (ordered dock).me.task.ord = true := by
  and_intros <;> first | decide +kernel | exact ready_of (by decide +kernel)

/-- AccessElsewhere: a posted store with 1,022 others posted, and a load that sends the thread away. -/
theorem witness_access_elsewhere :
    let s := mine away (fun sl => { sl with posted := 1022 })
    (memForm (.st 2 1 false 3 0)).isSome = true ∧ Ready s ⟨some (1, false), none, some 2, [], []⟩ ∧ plainTask s = true ∧
    (translate s 0 0 true 8 .write).1 = .ok ⟨0, 8, 0⟩ ∧ paOk (translate s 0 0 true 8 .write).2 8 = true ∧
    servesHome 0 8 = false ∧ s.me.acq = none ∧ region 8 ≠ 3 ∧ opPosted (.store 8 0x55) = true ∧ s.me.posted < 1023 ∧
    (translate away 0 0 true 8 .read).1 = .ok ⟨0, 8, 0⟩ ∧ paOk (translate away 0 0 true 8 .read).2 8 = true ∧
    opPosted (.load 3) = false ∧ away.me.outst = 0 ∧ away.me.intrap = false ∧ away.me.mayLeave = true := by
  and_intros <;> first | decide +kernel | exact ready_of (by decide +kernel)

/-- HomeBytes: eight bytes at the end of a line. -/
theorem witness_home_bytes : (56 : Nat) % 64 + (natBytes 8 0x55).length ≤ 64 ∧ Memory.wf dock.mem.cells = true := by decide +kernel

/-- TranslationFrameAndFaults: an address between the halves, one of supervisor space, and a job without tables. -/
theorem witness_translations :
    (0x20000000000000 : Word).toNat / 2 ^ 53 ≠ 0 ∧ (0x20000000000000 : Word).toNat / 2 ^ 53 ≠ 2047 ∧
    (0xFFE0000000000000 : Word).toNat / 2 ^ 53 = 2047 ∧ canonical (0x1FFFFFFFFFFFFF : Word).toNat = true ∧
    (0x1FFFFFFFFFFFFF : Word).toNat / 2 ^ 53 = 0 ∧ mget? plain.work.jobs 0 = none := by decide +kernel

/-- A dirty line of cluster 0's cache, of module `dev`. -/
def line0 (dev : Nat) (dirty : BitVec 64) : CLine := ⟨0, dev, 0x100, 0, 0, 0, List.replicate 64 0, dirty, 0⟩

/-- The state with that line. -/
def withLine (s : State) (l : CLine) : State := s.setMem { s.mem with clines := [l] }

/-- ReleasesAndAcquires: a release with nothing to wait for, one that writes back a line of this module, one that waits for
a line of another, FENCE.core, and an open acquire. -/
theorem witness_releases :
    releaseForm plain (.fence 2 5) ≠ none ∧ plain.me.acq = none ∧ plain.me.posted = 0 ∧ plain.scrPending = false ∧
    awaited plain 5 = false ∧ releaseForm plain (.ackw 0) ≠ none ∧
    awaited (withLine plain (line0 0 1)) 4 = false ∧ coveredDirty (withLine plain (line0 0 1)) 4 ≠ [] ∧
    awaited (withLine plain (line0 1 1)) 5 = true ∧ (withLine plain (line0 1 1)).me.relBegun = false ∧
    (mine plain (fun sl => { sl with acq := some 2 })).me.acq = some 2 ∧
    (mine plain (fun sl => { sl with acq := some 2 })).me.outst = 0 ∧
    (mine plain (fun sl => { sl with acq := some 2, outst := 1 })).me.outst ≠ 0 := by decide +kernel

/-- AcquireLoadReleaseStore. -/
theorem witness_acquire_load :
    Ready dock ⟨some (1, false), none, none, [], [7]⟩ ∧ (dock.vals ⟨some (1, false), none, none, [], [7]⟩).a.toNat % 8 = 0 ∧
    AtHome dock 8 7 (.load 3) ⟨0, 8, 0⟩ (translate dock 2048 0 true 8 .read).2 ∧
    Ready dock ⟨some (1, false), some (2, false), none, [], []⟩ ∧ dock.me.task.ord = false ∧ releaseDone dock 5 ∧
    AtHome dock 8 0 (.store 8 0x55) ⟨0, 8, 0⟩ (translate dock 2048 0 true 8 .write).2 :=
  ⟨ready_of (by decide +kernel), by decide +kernel,
    atHome_of (by decide +kernel) (by decide +kernel) (by decide +kernel) (by decide) (by intro v h; cases h),
    ready_of (by decide +kernel), by decide +kernel, .inr ⟨by decide +kernel, by decide +kernel, by decide +kernel, .inr (by decide +kernel)⟩,
    atHome_of (by decide +kernel) (by decide +kernel) (by decide +kernel) (by decide) (by intro v h; cases h)⟩

/-- HomeVisitAndMigration: HOME on the dispatching core and away from it, VISIT where the line's home is served and where
it is not. -/
theorem witness_moves :
    plain.me.acq = none ∧ plain.onDcore = true ∧ dock.onDcore = false ∧ dock.me.intrap = false ∧ dock.me.mayLeave = true ∧
    (mine dock (fun sl => { sl with posted := 1 })).me.mayLeave = false ∧
    Ready dock (readsA 1 false) ∧ dock.me.outst = 0 ∧ (translate dock 2048 0 true 8 .read).1 = .ok ⟨0, 8, 0⟩ ∧
    paOk (translate dock 2048 0 true 8 .read).2 8 = true ∧ servesHome 2048 8 = true ∧
    (translate away 0 0 true 8 .read).1 = .ok ⟨0, 8, 0⟩ ∧ servesHome 0 8 = false ∧ away.me.mayLeave = true ∧
    (plain.slotAt ⟨0, 0⟩).task.ord = false := by
  and_intros <;> first | decide +kernel | exact ready_of (by decide +kernel)

/-- Partition 0 with clusters 0 and 1, and a running graph 3 of job 0, one of another job and one that has ended. -/
def parted (s : State) : State :=
  s.setWork { s.work with partcfg := [(0, w64 (2 * 2 ^ 11 + 1))],
                          graphs := [(3, ⟨[], [], [], 2, 0⟩), (5, ⟨[], [], [], 2, 1⟩), (7, ⟨[], [], [], 3, 0⟩)] }

/-- Whether write-backs of a cluster are still to be acknowledged for PROMOTE. -/
def promoteOut (s : State) (cl : Nat) : Bool :=
  s.mem.wbOut.any (fun x => x.1 == cl) || (!s.me.relBegun && s.mem.clines.any (fun l =>
    l.loc == cl && l.dirty != 0 && (l.dev != s.fabric.self || isPool (l.line * 64))))

/-- PromoteAndPhase: a cluster of this module inside and outside the partition; a graph that runs, one of another job, one
that has ended. -/
theorem witness_promote :
    let s := parted plain
    Ready s (readsA 7 false) ∧ s.me.acq = none ∧ bits (s.vals (readsA 7 false)).a.toNat 23 10 = s.fabric.self ∧
    inPartition s (s.partOfTask s.me.task) 1 = true ∧ (s.vals (readsA 7 false)).a = 1 ∧
    inPartition s (s.partOfTask s.me.task) (bits (s.vals (readsA 8 false)).a.toNat 9 0) = false ∧
    Ready s ⟨some (6, false), none, none, [], [9]⟩ ∧ s.me.task.ord = false ∧ s.me.outst = 0 ∧
    (mget? s.work.graphs 3).map Graph.job = some s.me.task.job ∧ (mget? s.work.graphs 3).map Graph.st = some 2 ∧
    (mget? s.work.graphs 5).map Graph.job ≠ some s.me.task.job ∧ (mget? s.work.graphs 7).map Graph.st = some 3 ∧
    (s.me.relBegun = false ∧ promoteOut s 1 = false ∧ promoteOut (withLine s { line0 1 1 with loc := 1 }) 1 = true ∧
      promoteOut (mine (s.setMem { s.mem with wbOut := [(1, 1, 0x100)] }) (fun sl => { sl with relBegun := true })) 1 = true ∧
      bits (0x400 : Word).toNat 23 10 ≠ s.fabric.self) := by
  and_intros <;> first | decide +kernel | exact ready_of (by decide +kernel)

/-- A task of core 0 on its join list holds the barrier at 0x40. -/
def joined : State := mine (mapped (at_ 0 [0x40, 0, 4, 0x41])) (fun sl => { sl with task := { sl.task with joins := [0x40] } })

/-- BarrierRequests: a join that announces, a leave and arrivals of a joined barrier; a barrier that is not joined, and an
address that is not aligned. -/
theorem witness_barrier_requests :
    barForm (.barjoin ⟨9, 1, 3, false, false⟩) ≠ none ∧ Ready joined ⟨some (1, false), some (3, false), none, [], [9]⟩ ∧
    barForm (.bararr ⟨9, 1, false⟩ 5) ≠ none ∧ Ready joined ⟨some (1, false), none, none, [], [9]⟩ ∧
    joined.me.task.ord = false ∧ joined.me.acq = none ∧ joined.me.outst = 0 ∧ joined.me.posted = 0 ∧ releaseDone joined 5 ∧
    (0x40 : Word).toNat % 32 = 0 ∧ joined.me.task.joins.contains 0x40 = true ∧
    (translate joined 0 0 true 0x40 .both).1 = .ok ⟨0, 0x40, 0⟩ ∧ paOk (translate joined 0 0 true 0x40 .both).2 0x40 = true ∧
    servesHome 0 0x40 = false ∧ region 0x40 ≠ 3 ∧ (0x41 : Word).toNat % 32 ≠ 0 ∧ joined.me.task.joins.contains 0 = false := by
  and_intros <;> first
    | decide +kernel
    | exact ready_of (by decide +kernel)
    | exact .inr ⟨by decide +kernel, by decide +kernel, by decide +kernel, .inr (by decide +kernel)⟩

/-- BarrierService: the counts at their ends, a faulted barrier, one that completes, one that is short, one that waits. -/
theorem witness_barrier_service :
    let b : BarBlk := ⟨3, 2, 0, 0, 2 ^ 32 - 1, false⟩
    barCount { b with arrived := 1 } (.arrive true) = .inr { b with arrived := 2 } ∧
    barCount { b with expect := 0 } (.arrive false) = .inr { b with expect := 0, arrived := 1 } ∧
    { b with members := 2 ^ 32 - 1 }.members = 2 ^ 32 - 1 ∧ { b with members := 0 }.members = 0 ∧
    { b with flt := true }.flt = true ∧ b.members < 2 ^ 32 ∧ b.gen < 2 ^ 32 := by decide

/-- ScratchpadInstructions: the last halfword, a misaligned and an outside offset, a pointer at its last bit, rows 767
and 768. -/
def scr : State := at_ 0 [0xBFFE, 0xBFFF, 0xC000, 0x5FFFF, 767, 768, 0x60000]

theorem witness_scratchpad :
    Ready scr ⟨some (1, false), none, none, [], [9]⟩ ∧ ScrReady scr [767] ∧ 0xBFFE % 2 = 0 ∧ 0xBFFE / 64 = 767 ∧
    Ready scr ⟨some (1, false), none, some 2, [], []⟩ ∧ 0xBFFF % 2 ≠ 0 ∧ Ready scr (writesRun 9 1) ∧
    fieldRows (ptrAddr (scr.me.ptr 0)) 64 = [0] ∧ ScrReady scr [0] ∧ scr.me.lost 0 = false ∧ Ready scr (readsD 4) ∧
    bits (0x5FFFF : Word).toNat 63 40 = 0 ∧ (0x5FFFF : Word).toNat % 2 ^ 19 < 393216 ∧
    ¬((0x60000 : Word).toNat % 2 ^ 19 < 393216) ∧ (scr.vals (readsA 5 false)).a.toNat < 768 ∧ scr.here < 65536 ∧
    Ready scr (readsA 6 true) ∧ scr.onDcore = true ∧ 768 ≤ (scr.vals (readsA 6 true)).a.toNat := by
  and_intros <;> first | decide +kernel | exact ready_of (by decide +kernel) | constructor <;> decide +kernel

/-- ScratchpadWritesLand: no write is on its way; a pointer at the end of the scratchpad. -/
theorem witness_scratchpad_writes :
    (scr.coreAt 0).writes = [] ∧ Memory.wf scr.mem.cells = true ∧ ptrAddr 393215 < 393216 := by decide +kernel

/-- Core 0 with p1 at row 4 and p2 at row 767, and p3 off its row's start. -/
def vec : State := mine (at_ 0 [0x3F800000]) (fun sl => { sl with p := [(1, 2048), (2, 392704), (3, 8)] })

/-- VectorResults and VectorTraps: a row result, a register result, an empty and a poisoned row, a pointer off its row. -/
theorem witness_vector :
    (vectorForm [] (.vadd ⟨0, 1, 2, true, false, true⟩ 10)).isSome = true ∧ Ready vec noDemand ∧ ScrReady vec [4, 767] ∧
    (∀ p ∈ [(0, true), ((1 : Ptr), false), (2, true)], vec.me.lost p.1.toNat = false ∧ (vec.me.ptr p.1.toNat).toNat % 512 = 0) ∧
    (vectorForm [] (.vsum ⟨1, false, 9⟩ 10)).isSome = true ∧ Ready vec ⟨none, none, none, [], [9]⟩ ∧
    vec.onDcore = true ∧ (vec.me.ptr 3).toNat % 512 ≠ 0 ∧ vec.me.acq = none ∧ vec.vuBusy 0 = false ∧
    (vec.occupy 0 4).vuBusy 0 = true ∧
    (let s := vec.setCore 0 ((vec.coreAt 0).setRow 4 ⟨false, false, false⟩)
     s.vuBusy 0 = false ∧ ((s.coreAt 0).row 4).full = false) ∧
    (let s := vec.setCore 0 ((vec.coreAt 0).setRow 767 ⟨true, false, true⟩)
     ((s.coreAt 0).row 4).poison = false ∧ ((s.coreAt 0).row 767).poison = true ∧ ((s.coreAt 0).row 767).full = true) := by
  and_intros <;> first | decide +kernel | exact ready_of (by decide +kernel) | constructor <;> decide +kernel

/-- A table image of 8-bit codes is in use by the task: entry 0 of the table cache of core 0. -/
def withTable : State :=
  let tab : List Byte := List.replicate 2048 0
  (mine vec (fun sl => { sl with task := { sl.task with tfmt := 0x1000 } })).setCore 0
    { vec.coreAt 0 with slots := [(0, { (vec.slotAt ⟨0, 0⟩) with task := { (vec.slotAt ⟨0, 0⟩).task with tfmt := 0x1000 } })],
                        tables := [(0, ⟨0, 0x1000, 1, tab⟩)] }

theorem own_of {s : State} (h : modOf s.me.task.dcore = s.fabric.self) : ownModule s := h

/-! ### Work, messages, agents -/

/-- The nest record at 0x40 of cluster 0: 24 indices in two dimensions, none claimed. -/
def nest0 : Nest := ⟨0x40, 0, 1, 4, 6, 2, 8, 0, 24, [(0, (0, 0))]⟩

/-- The issuing task has joined it as participant 0, with indices left in its chunk. -/
def nested (rest : Nat) (remaining : Nat) : State :=
  let s := mine plain (fun sl => { sl with task := { sl.task with nest := some (0, 5, 0) } })
  s.setCluster 0 { s.cluster 0 with nests := [(5, { nest0 with remaining := remaining, parts := [(0, (7, rest))] })] }

/-- A nest record in memory at 0x40: N2 = 6, N1 = 4, NDIM = 2, MINCHUNK = 8. -/
def nestMem : State :=
  let s := mapped plain
  s.setMem { s.mem with cells := setBytes s.mem.cells 0x48 (natBytes 8 4 ++ natBytes 8 6 ++ natBytes 8 (2 * 65536 + 8)) }

/-- NestsAndIteration: joining, creating, and the three outcomes of ITER 2. -/
theorem witness_nests :
    let s := plain.setCluster 0 { plain.cluster 0 with nests := [(5, nest0)] }
    let m : Demand := ⟨some (5, false), none, none, [], [9]⟩
    Ready s m ∧ s.me.task.nest = none ∧ s.me.task.ord = false ∧ s.me.posted = 0 ∧ s.me.acq = none ∧ ownModule s ∧
    (s.vals m).a.toNat % 32 = 0 ∧
    (s.cluster 0).nests.find? (fun x => x.2.launch == s.me.task.launch && x.2.addr == (s.vals m).a) = some (5, nest0) ∧
    freePart (s.cluster 0).nests 0 256 = some 1 := by
  and_intros <;> first | decide +kernel | exact ready_of (by decide +kernel) | exact own_of (by decide +kernel)

theorem witness_nest_created :
    let s := nestMem
    let m : Demand := ⟨some (5, false), none, none, [], [9]⟩
    let sx := (translate s 0 0 true 0x40 .read).2
    let a := accessOf s 0x40 ⟨0, 0x40, 0⟩ 0 (.load 3)
    Ready s m ∧ s.me.task.nest = none ∧ ownModule s ∧ (s.vals m).a = 0x40 ∧ (s.cluster 0).nests = [] ∧
    freeKey (s.cluster 0).nests 0 16 = some 0 ∧ freePart (s.cluster 0).nests 0 256 = some 0 ∧
    (translate s 0 0 true 0x40 .read).1 = .ok ⟨0, 0x40, 0⟩ ∧ homeCheck sx a = none ∧
    nestOf (sx.getHome a 8) (sx.getHome { a with pa := a.pa + 8 } 8) (sx.getHome { a with pa := a.pa + 16 } 8)
      (sx.getHome { a with pa := a.pa + 24 } 8) = some (1, 4, 6, 2, 8) := by
  and_intros <;> first | decide +kernel | exact ready_of (by decide +kernel) | exact own_of (by decide +kernel)

theorem witness_iter :
    Ready (nested 0 24) (writesRun 9 2) ∧ (nested 0 24).me.task.nest = some (0, 5, 0) ∧ ownModule (nested 0 24) ∧
    (mget? ((nested 0 24).cluster 0).nests 5).map (fun n => (n.ndim, (mget n.parts 0 (0, 0)).2, n.remaining)) = some (2, 0, 24) ∧
    (mget? ((nested 1 24).cluster 0).nests 5).map (fun n => (mget n.parts 0 (0, 0)).2) = some 1 ∧
    (mget? ((nested 0 0).cluster 0).nests 5).map (fun n => (mget n.parts 0 (0, 0), n.remaining)) = some ((7, 0), 0) ∧
    0 < nest0.minchunk ∧ 0 < nest0.n1 ∧ 0 < nest0.n2 := by
  and_intros <;> first | decide +kernel | exact ready_of (by decide +kernel) | exact own_of (by decide +kernel)

/-- QuitEndsTask: a stream runs; a plain task with a pinned row and the last count of its launch; an ordered task. -/
def pinned : State :=
  let s := mine plain (fun sl => { sl with task := { sl.task with pins := [3] } })
  s.setWork { s.work with launches := [(0, { launch0 with count := 1 })] }

def spec0 : SpecEnt := ⟨zeroPacket, 0, 0, 0, .running, 0, 0, false⟩

theorem witness_quit :
    (mine plain (fun sl => { sl with streams0 := 1 })).me.streams0 ≠ 0 ∧ pinned.me.streams0 = 0 ∧ pinned.me.streams1 = 0 ∧
    pinned.me.q4 = 0 ∧ pinned.me.q5 = 0 ∧ pinned.me.task.joins = [] ∧ pinned.me.task.ord = false ∧ pinned.me.task.pins = [3] ∧
    (pinned.launchAt pinned.me.task.launch).map (fun l => (l.count, l.multi, l.ord)) = some (1, false, false) ∧
    (ordered plain).me.task.ord = true ∧
    mget? (((ordered plain).setCore 0 { (ordered plain).coreAt 0 with spec := [(0, spec0)] }).coreAt 0).spec 0 = some spec0 := by decide +kernel

/-- A spawn request of slot 0 of core 0 for core 5, with three others unanswered. -/
def spawner : State := launched (parted (mine plain (fun sl => { sl with spawns := 3 })))

def spawn0 (wait : Bool) : SpawnReq :=
  { src := 0, slot := 0, dst := 9, target := 5, entry := 0x4000, regs := 3, g1 := 1, g2 := 2, g3 := 3, g4 := 4, launch := 0,
    job := 0, wait := wait }

/-- Core 5 has no free slot that a primary may take. -/
def noSlot (s : State) : State := s.setWork { s.work with cap := 0 }

/-- A guest of module 1, whose launch this module does not hold. -/
def foreign (s : State) : State := mine s (fun sl => { sl with task := { sl.task with dcore := 65536, part := 0 } })

theorem witness_spawn_places :
    (⟨spawner.forwarded (coreOf (spawn0 true).src), 0⟩ : SlotId) ≠ ⟨5, 0⟩ ∧ lmigHolds spawner 5 = false ∧
    spawner.forwarded (spawner.forwarded (coreOf (spawn0 true).src)) = spawner.forwarded (coreOf (spawn0 true).src) ∧
    spawner.work.lmigStatus ≠ 1 ∧ modOf (spawn0 true).target = spawner.fabric.self ∧
    modOf { spawn0 true with target := 65541 }.target ≠ spawner.fabric.self ∧
    ((spawner.slotAt ⟨0, 0⟩).task.launch = (spawn0 true).launch ∧ (spawn0 true).dst ≠ 0) ∧
    (let s := mine spawner (fun sl => sl.pendG 9)
     ((s.slotAt ⟨0, 0⟩).cell (spawn0 true).dst.toNat).pend = true) ∧
    modOf (foreign spawner).me.task.dcore ≠ spawner.fabric.self ∧ (foreign spawner).launchOf (foreign spawner).me.task = none ∧
    targetOk (foreign spawner) ((foreign spawner).partOfTask (foreign spawner).me.task) 5 = true := by decide +kernel

theorem witness_spawn :
    Ready spawner (spawnDemand 4 5 5 false) ∧ spawner.me.task.ord = false ∧
    (spawner.vals (spawnDemand 4 5 5 false)).a.toNat % 64 = 0 ∧
    targetOk spawner 0 ((spawner.vals (spawnDemand 4 5 5 false)).d.toNat % 2 ^ 30) = true ∧ spawner.me.spawns < 4 ∧
    (spawner.launchOf spawner.me.task).map Launch.count = some 2 ∧ targetOk spawner 0 0x20 = false ∧
    (spawner.coreAt (spawner.forwarded 5)).spawnws = [] ∧ placeSlot spawner (spawner.forwarded 5) = some 0 ∧
    modOf (spawn0 true).src = spawner.fabric.self ∧ placeSlot (noSlot spawner) ((noSlot spawner).forwarded 5) = none ∧
    ((spawner.setCore 5 { spawner.coreAt 5 with spawnws := [spawn0 true, spawn0 true, spawn0 true, spawn0 true] }).coreAt
      5).spawnws.length = 4 ∧
    placeSlot (spawner.setCore 5 { spawner.coreAt 5 with spawnws := [spawn0 true] }) 5 = some 0 := by
  and_intros <;> first | decide +kernel | exact ready_of (by decide +kernel)

/-- TasksArePosted: POST of row 5 to core 5, the row full, then poisoned; SENDVT; both in an ordered task at a time that is
not above its own. -/
theorem witness_post :
    let s := launched (parted plain)
    let m : Demand := ⟨some (4, false), some (4, false), none, [], []⟩
    Ready s m ∧ s.onDcore = true ∧ s.me.task.ord = false ∧ s.me.acq = none ∧ (s.vals m).a.toNat < 768 ∧
    ((s.coreAt 0).row 5).full = true ∧ ((s.coreAt 0).row 5).poison = false ∧
    targetOk s (s.partOfTask s.me.task) ((s.vals m).b.toNat % 2 ^ 30) = true ∧
    (s.launchAt s.me.task.launch).map Launch.count = some 2 ∧ queueFull s (clusterOf (coreOf s.me.task.dcore)) = false ∧
    (((s.setCore 0 ((s.coreAt 0).setRow 5 ⟨true, false, true⟩)).coreAt 0).row 5).poison = true ∧
    Ready s ⟨some (4, false), none, none, regRun 6 2, []⟩ ∧
    Ready (ordered s) ⟨some (4, false), none, some 4, regRun 6 2, []⟩ ∧ (ordered s).me.task.ord = true ∧
    ((ordered s).vals ⟨some (4, false), none, some 4, regRun 6 2, []⟩).d ≤ (ordered s).me.task.pkt.w1 := by
  and_intros <;> first | decide +kernel | exact ready_of (by decide +kernel)

/-- Maps that are full from i on. -/
def fullFrom {α : Type} (x : α) : Nat → Nat → Map α
  | _, 0 => []
  | i, n + 1 => (i, x) :: fullFrom x (i + 1) n

theorem mget?_fullFrom {α : Type} (x : α) (n : Nat) : ∀ i k, i ≤ k → k < i + n → mget? (fullFrom x i n) k = some x := by
  induction n with
  | zero => intro i k h1 h2; omega
  | succ n ih =>
    intro i k h1 h2
    by_cases e : k = i
    · simp [fullFrom, mget?, e]
    · simp only [fullFrom, mget?, e, if_false, if_neg (show ¬k < i by omega)]
      exact ih (i + 1) k (by omega) (by omega)

theorem freeKey_none {α : Type} (m : Map α) (n : Nat) : ∀ i, (∀ k, i ≤ k → k < i + n → (mget? m k).isSome = true) →
    freeKey m i n = none := by
  induction n with
  | zero => intro i _; rfl
  | succ n ih =>
    intro i h
    rw [freeKey, if_pos (h i (Nat.le_refl i) (by omega))]
    exact ih (i + 1) (fun k h1 h2 => h k (by omega) (by omega))

/-- A launch table without a free entry. -/
theorem witness_no_launch : freeKey (fullFrom launch0 0 65536) 0 65536 = none :=
  freeKey_none _ _ _ (fun k h1 h2 => by rw [mget?_fullFrom launch0 65536 0 k h1 h2]; rfl)

/-- An ordered launch of partition 0. -/
def ordered0 : Ordered :=
  { part := 0, launch := 0, optwin := 0, lfirst := 600, nlog := 64, period := 1, time0 := 0, levee := 0, num := 0,
    colour := false, accepted := true, sweeping := false, idles := 0, got := [], began := 0, dockSent := (0, 0),
    dockRecv := (0, 0), dockColour := false, dockMin := 2 ^ 128 - 1, dockLevee := none }

def withOrdered (s : State) : State := s.setWork { s.work with ordered := [(0, ordered0)] }

/-- Descriptors in memory: at 0x8000 a plain launch of zeros, at 0x9000 an ordered one, at 0xA000 a graph of the first. -/
def descs : State :=
  let s := launched (parted (mapped (at_ 0 [0x8000, 0x9000, 0xA000, 0x8001])))
  let c := setBytes s.mem.cells 0x9068 (natBytes 8 1)
  let c := setBytes c 0x9088 (natBytes 8 (64 * 2 ^ 44 + 2 ^ 28))
  let c := setBytes c 0xA000 (natBytes 8 1 ++ natBytes 8 0x8000)
  s.setMem { s.mem with cells := c }

def readOk (r : ReadRes) (p : List Byte → State → Bool) : Bool :=
  match r with
  | .ok l s => p l s
  | _ => false

/-- LaunchesAndGraphs: a descriptor that is good, one that is not aligned, an ordered launch while one runs, a graph of one
launch. -/
theorem witness_launch :
    let s := descs
    let s0 := s.retire ((s.taken (daDemand ⟨9, 1, false⟩)).pendG 9)
    Ready s (daDemand ⟨9, 1, false⟩) ∧ s.me.task.ord = false ∧ s.coreRelease = true ∧ s.me.acq = none ∧ ownModule s ∧
    s.forwarded s.here = s.here ∧ readOk (readLaunch s s.me.task true 0 0x8000) (fun l _ => l == List.replicate 192 0) = true ∧
    readOk (readLaunch s0 s.me.task true 0 0x8000) (fun l s2 => decide (s2 = s0.setMem s2.mem) &&
      !descBad s2 0 (l.take 192) && !modListBad (l.drop 192) 0 && !(descOf (l.take 192)).ord && !(descOf (l.take 192)).multi) =
      true ∧
    freeKey s.work.launches 0 65536 = some 1 ∧ (0x8001 : Word).toNat % 64 ≠ 0 ∧
    readOk (readLaunch s0 s.me.task true 0 0x8001) (fun _ s2 => decide (s2 = s0.setMem s2.mem)) = true := by
  and_intros <;> first | decide +kernel | exact ready_of (by decide +kernel) | exact own_of (by decide +kernel)

theorem witness_launch_ordered :
    let s := withOrdered descs
    let s0 := s.retire ((s.taken (daDemand ⟨9, 2, false⟩)).pendG 9)
    Ready s (daDemand ⟨9, 2, false⟩) ∧ (s.orderedOf (s.partOf s.me.task.launch)).isSome = true ∧
    readOk (readLaunch s0 s.me.task true 0 0x9000) (fun l s2 => decide (s2 = s0.setMem s2.mem) &&
      !descBad s2 0 (l.take 192) && (descOf (l.take 192)).ord) = true :=
  ⟨ready_of (by decide +kernel), by decide +kernel, by decide +kernel⟩

theorem witness_graph :
    let s := descs
    let s0 := s.retire ((s.taken (daDemand ⟨9, 3, false⟩)).pendG 9)
    Ready s (daDemand ⟨9, 3, false⟩) ∧
    readOk (readGraph s0 s.me.task true 0 0xA000) (fun l s2 => decide (s2 = s0.setMem s2.mem) &&
      graphCount (wordAt l 0) == 1 && wordAt l 1 == 0x8000 && wordAt l 2 == 0 &&
      !descBad s2 0 ((l.drop 24).take 192) && !(descOf ((l.drop 24).take 192)).multi) = true ∧
    freeKey s.work.graphs 1 4095 = some 1 ∧ (freeIndices s.work.launches 0 1 65536).length = 1 ∧
    (ordered plain).me.task.ord = true :=
  ⟨ready_of (by decide +kernel), by decide +kernel, by decide +kernel, by decide +kernel, by decide +kernel⟩

/-- CancelAndJoin: launches 0, the task's own, 3 that runs, 5 that has ended; graphs 7 that has ended; phase 4. -/
def joinable : State :=
  let s := parted (at_ 0 [3, 5, 9, 0, 7, 1, 2, 0x103])
  s.setWork { s.work with launches := [(0, launch0), (3, launch0), (5, { launch0 with st := 3 })], phases := [(0, 4)] }

theorem witness_cancel :
    Ready joinable (dabDemand ⟨9, 1, 4, false, false⟩) ∧ joinable.me.task.ord = false ∧ ownModule joinable ∧
    bits (joinable.vals (dabDemand ⟨9, 1, 4, false, false⟩)).b.toNat 1 0 = 0 ∧ joinable.launchAt 9 = none ∧
    (joinable.launchAt 5).map (fun l => (l.job, l.st)) = some (joinable.me.task.job, 3) ∧
    (joinable.launchAt 3).map (fun l => (l.job, l.st, l.cancelled, l.count)) = some (joinable.me.task.job, 2, false, 2) ∧
    3 ≠ joinable.me.task.launch ∧ (0 : Nat) = joinable.me.task.launch ∧
    mget? joinable.work.graphs 9 = none ∧ (mget? joinable.work.graphs 7).map (fun g => (g.job, g.st)) = some (0, 3) ∧
    bits (joinable.vals (dabDemand ⟨9, 1, 6, false, false⟩)).b.toNat 1 0 = 1 ∧
    bits (joinable.vals (dabDemand ⟨9, 1, 7, false, false⟩)).b.toNat 1 0 = 2 ∧
    bits (joinable.vals (dabDemand ⟨9, 1, 8, false, false⟩)).b.toNat 1 0 = 3 ∧
    joinNow joinable joinable.me.task 0 3 = none ∧ joinNow joinable joinable.me.task 2 4 = none ∧
    joinNow joinable joinable.me.task 0 5 = some 3 ∧ joinable.forwarded joinable.here = joinable.here ∧
    bits (3 : Word).toNat 31 0 < joinable.phaseOf (joinable.partOf 0) := by
  and_intros <;> first | decide +kernel | exact ready_of (by decide +kernel) | exact own_of (by decide +kernel)

/-- Core 0 with a message at level 2 of its mailbox. -/
def mailed : State := plain.setCore 0 { plain.coreAt 0 with mail := [(2, [⟨1, 2, 3, 4, 5, 6, 7, 8⟩])] }

/-- Mailboxes: SEND with fifteen messages unacknowledged; RECV with a message and without one; a message that finds room,
and one that finds its level full; a held message. -/
theorem witness_mailboxes :
    let s := parted (mine plain (fun sl => { sl with unackMsg := 15 }))
    Ready s ⟨some (4, false), none, none, regRun 1 6, []⟩ ∧ s.me.task.ord = false ∧ s.me.acq = none ∧ s.me.unackMsg < 16 ∧
    targetOk s (s.partOfTask s.me.task) ((s.vals ⟨some (4, false), none, none, regRun 1 6, []⟩).a.toNat % 2 ^ 30) = true ∧
    modOf (w64 65541).toNat ≠ s.fabric.self ∧ mailed.forwarded mailed.here = mailed.here ∧
    Ready mailed ⟨none, none, none, [], regRun 9 8⟩ ∧ ownModule mailed ∧ topLevel (mailed.coreAt 0) = some 2 ∧
    mget (mailed.coreAt 0).mail 2 [] = [⟨1, 2, 3, 4, 5, 6, 7, 8⟩] ∧ topLevel (plain.coreAt 0) = none ∧
    Ready mailed ⟨some (8, false), none, none, [], regRun 24 8⟩ ∧ bits (mailed.me.g 8).toNat 1 0 = 2 := by
  and_intros <;> first | decide +kernel | exact ready_of (by decide +kernel) | exact own_of (by decide +kernel)

theorem witness_message_arrival :
    let full := plain.setCore 0 { plain.coreAt 0 with mail := [(2, List.replicate 32 zeroPacket)] }
    let held := mailed.setCluster 0 { mailed.cluster 0 with holding := [(0, 1, ⟨5, 0⟩, zeroPacket), (0, 2, ⟨5, 0⟩, zeroPacket)] }
    plain.forwarded 0 = 0 ∧ lmigHolds plain 0 = false ∧ (plain.cluster 0).heldMsgs = [] ∧ (plain.coreAt 0).recvs = [] ∧
    (mget (mailed.coreAt 0).mail 2 []).length < 32 ∧ (mailed.cluster 0).holding = [] ∧
    ¬((mget (full.coreAt 0).mail 2 []).length < 32) ∧ (full.cluster 0).holding.length < 64 ∧
    (held.cluster 0).holding = [(0, 1, ⟨5, 0⟩, zeroPacket)] ++ (0, 2, ⟨5, 0⟩, zeroPacket) :: [] ∧
    (held.cluster 0).heldMsgs = [] ∧ (⟨0, 0⟩ : SlotId) ≠ rootPoster := by decide +kernel

/-- IrrevocableAndDeferred: a plain task's IRREV of kinds 1, 2 and 3; an ordered task's, and its STD. -/
def irrev (kind : Nat) : State := mine (at_ 0 [w64 (kind * 2 ^ 56), 8, 0x55, 0])
  (fun sl => { sl with task := { sl.task with launch := 0 } })

def irrevDock : State :=
  mine (mapped (at_ 2048 [w64 (3 * 2 ^ 56), 8, 0x55, 0])) (fun sl => { sl with task := { sl.task with dcore := 0 } })

theorem witness_irrev :
    Ready (irrev 1) ⟨none, none, none, regRun 1 4, []⟩ ∧ (irrev 1).me.acq = none ∧
    bits ((irrev 1).vals ⟨none, none, none, regRun 1 4, []⟩).run.head!.toNat 63 56 = 1 ∧
    bits ((irrev 2).vals ⟨none, none, none, regRun 1 4, []⟩).run.head!.toNat 63 56 = 2 ∧
    (irrev 1).me.task.ord = false ∧ (irrev 1).me.posted = 0 ∧ (irrev 1).host.d2h.length < 1024 ∧
    canonical (8 : Word).toNat = true ∧ (8 : Word).toNat % 8 = 0 ∧
    AtHome irrevDock 8 0 (.fill 0x55) ⟨0, 8, 0⟩ (translate irrevDock 2048 0 true 8 .write).2 ∧
    freeIdx (plain.coreAt 0).log 0 ordered0.nlog = some 0 := by
  and_intros <;> first
    | decide +kernel
    | exact ready_of (by decide +kernel)
    | exact atHome_of (by decide +kernel) (by decide +kernel) (by decide +kernel) (by decide) (by intro v h; cases h)

def logOk : LogRes → Bool
  | .ok _ => true
  | _ => false

theorem witness_deferred :
    let s := withOrdered (ordered (irrev 1))
    let t := withOrdered (ordered away)
    s.me.task.ord = true ∧ s.orderedOf (s.partOf s.me.task.launch) = some ordered0 ∧
    logOk (appendIrrev s 0 0 ordered0 (w64 (2 ^ 56), 8, 0x55, 0)) = true ∧
    Ready t ⟨some (1, false), some (2, false), none, [], []⟩ ∧ (8 : Word).toNat % 2 ^ 3 = 0 ∧
    (translate t 0 0 true 8 .write).1 = .ok ⟨0, 8, 0⟩ ∧ region 8 ≠ 3 ∧
    (translate t 0 0 true 8 .write).2.orderedOf 0 = some ordered0 ∧
    logOk (appendDstore (translate t 0 0 true 8 .write).2 0 0 ordered0 (w64 (3 * 2 ^ 61 + 8), 0x55)) = true := by
  and_intros <;> first | decide +kernel | exact ready_of (by decide +kernel)

/-! ### Agents -/

/-- Whether an operation of a unit answers, with a value and a state for which p holds. -/
def unitOk {α : Type} (r : UOut α) (p : α → State → Bool) : Bool :=
  match r with
  | .ok a s => p a s
  | _ => false

/-- Call descriptors: at 0x8000 of the host's tool, at 0x8020 of local tool 0, at 0x8040 one that is too long. Local tool 0
is of job 0 and context 3. -/
def caller : State :=
  let s := mapped (at_ 0 [0x8000, 0x8020, 0x8040, 65540, 65541, 65542, 65543])
  let rest := natBytes 8 0x100 ++ natBytes 8 (16 * 2 ^ 32 + 32) ++ natBytes 8 0x200
  let c := setBytes s.mem.cells 0x8000 (natBytes 8 (0xFFFF * 2 ^ 48 + 5) ++ rest)
  let c := setBytes c 0x8020 (natBytes 8 5 ++ rest)
  let c := setBytes c 0x8040 (natBytes 8 5 ++ natBytes 8 0x100 ++ natBytes 8 (65537 * 2 ^ 32) ++ natBytes 8 0x200)
  (s.setMem { s.mem with cells := c }).setAgents { s.agents with localTool := [(0, 3), (1, w64 (2 ^ 48 + 1))] }

/-- Futures 4 (resolved), 5 (called) and 6 (failed by its deadline) of job 0 at generation 1. -/
def fut (st reason : Nat) : Future :=
  { Future.empty 1 with st := st, reason := reason, argva := 0x100, arglen := 16, repva := 0x200, repcap := 32, dlus := 5 }

def waiter : State := caller.setAgents { caller.agents with futures := [(4, fut 3 0), (5, fut 2 0), (6, fut 4 3)] }

/-- The state with a context's queue. -/
def withCtx (s : State) (q : CtxQ) : State := s.setAgents { s.agents with ctxs := [(3, q)] }

theorem freeFuture_none (s : State) (h : ∀ i, i < 65536 → (s.futureAt i).st ≠ 0) : ∀ n i, freeFutureFrom s i n = none := by
  intro n
  induction n with
  | zero => intro i; rfl
  | succ n ih => intro i; rw [freeFutureFrom, if_neg (h _ (Nat.mod_lt _ (by decide)))]; exact ih _

theorem freeFuture_some (s : State) (h : ∀ i, (s.futureAt i).st = 0) :
    ∃ i, s.freeFutureIndex = some i := by
  refine ⟨s.pick Config.useFuture % 65536 % 65536, ?_⟩
  rw [State.freeFutureIndex, show (65536 : Nat) = 65535 + 1 from rfl, freeFutureFrom, if_pos (h _)]

/-- Every entry of the future table is taken. -/
def crowded : State := caller.setAgents { caller.agents with futures := fullFrom (fut 2 0) 0 65536 }

theorem crowded_full : crowded.freeFutureIndex = none :=
  freeFuture_none _ (fun i h => by
    show (mget crowded.agents.futures i (Future.empty 1)).st ≠ 0
    rw [mget, show mget? crowded.agents.futures i = some (fut 2 0) from mget?_fullFrom _ 65536 0 i (Nat.zero_le i) (by omega)]
    decide) _ _

theorem agentReady_of {s : State} {q : Nat} (h : s.coreRelease = true ∧ s.me.acq = none ∧ s.me.portCount q < 8 ∧
    modOf s.me.task.dcore = s.fabric.self ∧ s.forwarded s.here = s.here) : AgentReady s q :=
  ⟨h.1, h.2.1, h.2.2.1, own_of h.2.2.2.1, h.2.2.2.2⟩

/-- Futures: CALLT of the host's tool, of a local tool with and without room, of one that is too long, with and without a
free entry. -/
theorem witness_callt :
    let d (r : Reg) : Demand := daDemand ⟨9, r, false⟩
    let f (r : Reg) (l : List Byte) : Future := callFuture (callRequest caller.sched.cur 9 (caller.vals (d r)).a caller.irWord
      caller.me caller.me) (fourWords l)
    let read (r : Reg) (p : List Byte → Bool) : Bool :=
      unitOk (uread ⟨unitFuture, 0, true⟩ (caller.vals (d r)).a 32 (callBegun caller (d r) 9)) (fun l s1 =>
        decide (s1 = (callBegun caller (d r) 9).setMem s1.mem) && p l)
    Ready caller (d 1) ∧ Ready caller (d 2) ∧ Ready caller (d 3) ∧ AgentReady caller 5 ∧ caller.part ≠ .ny7710 ∧
    caller.me.task.ord = false ∧ caller.agents.calls = [] ∧
    read 1 (fun l => (f 1 l).tool == 0xFFFF && (f 1 l).arglen == 16 && (f 1 l).repcap == 32) = true ∧
    read 2 (fun l => (f 2 l).tool == 0 && (f 2 l).arglen == 16) = true ∧ read 3 (fun l => (f 3 l).arglen == 65537) = true ∧
    callDenied caller 0 0 = false ∧ bits (localWord caller 0 0) 11 0 = 3 ∧ (caller.ctx 3).queue.length < 64 ∧
    (caller.ctx 3).waiting = [] ∧ ((withCtx caller ⟨[], [7], [], 0, []⟩).ctx 3).waiting ≠ [] := by
  and_intros <;> first | decide +kernel | exact ready_of (by decide +kernel) | exact agentReady_of (by decide +kernel)

theorem witness_free_entry : (∃ i, caller.freeFutureIndex = some i ∧ (caller.futureAt i).gen < 65536) ∧
    crowded.freeFutureIndex = none :=
  ⟨(freeFuture_some caller (fun i => by
      show (mget caller.agents.futures i (Future.empty 1)).st = 0
      rw [show caller.agents.futures = [] by decide +kernel]; rfl)).imp (fun i h => ⟨h, by
      show (mget caller.agents.futures i (Future.empty 1)).gen < 65536
      rw [show caller.agents.futures = [] by decide +kernel, show mget [] i (Future.empty 1) = Future.empty 1 from rfl]
      decide⟩), crowded_full⟩

theorem witness_waitf :
    Ready waiter (daDemand ⟨9, 4, false⟩) ∧ AgentReady waiter 5 ∧ (waiter.vals (daDemand ⟨9, 4, false⟩)).a = 65540 ∧
    waiter.threadFuture 65540 0 = some (fut 3 0) ∧ waiter.threadFuture 65541 0 = some (fut 2 0) ∧
    waiter.threadFuture 65542 0 = some (fut 4 3) ∧ waiter.threadFuture 65543 0 = none ∧ (ordered waiter).me.task.ord = true ∧
    Unscanned waiter 65540 ∧ waiter.byHandle 65541 = some (fut 2 0) ∧ (fut 2 0).job = waiter.me.task.job ∧
    waiter.byHandle 65543 = none := by
  and_intros <;> first
    | decide +kernel
    | exact ready_of (by decide +kernel)
    | exact agentReady_of (by decide +kernel)

/-- Remote tool 0, and a reply of n bytes from it to future 5. -/
def remote (s : State) : State :=
  (s.setAgents { s.agents with remoteTool := [(0, 7), (1, 9), (2, w64 (5 * 2 ^ 40 + 3 * 2 ^ 28)), (3, w64 (2 ^ 48 + 1))] }).setFuture 5
    { fut 2 0 with tool := 0x8000 }

def reply (status n : Nat) : UetReply :=
  ⟨BitVec.ofNat 128 (9 * 2 ^ 64 + 7), 5, 3, w64 (65541 * 2 ^ 32 + 2 ^ 24 + 2 * 2 ^ 16 + status), w64 (n * 2 ^ 32), List.replicate n 0x5A⟩

theorem witness_future_ends :
    (waiter.futureAt 5).st = 2 ∧ (waiter.futureAt 5).deadline ≤ waiter.now ∧ (waiter.futureAt 5).watch = [] ∧
    replying waiter 65541 = false ∧
    (let s := mine (waiter.setFuture 5 { fut 2 0 with watch := [(⟨0, 0⟩, 9)] }) (fun sl => sl.pendG 9)
     (s.futureAt 5).watch = [(⟨0, 0⟩, 9)] ∧ ((s.slotAt ⟨0, 0⟩).cell 9).pend = true) ∧
    (waiter.futureAt 4).st ≠ 2 ∧ bits (reply 2 32).w0.toNat 63 32 = 65541 ∧ bits (reply 2 32).w0.toNat 31 24 = 1 ∧
    bits (reply 2 32).w0.toNat 23 16 = 2 ∧ bits (reply 2 32).w1.toNat 63 32 = (reply 2 32).data.length ∧
    bits (reply 3 32).w0.toNat 15 0 = 3 ∧
    (let s := remote waiter
     let f := s.futureAt 5
     (reply 2 32).addr = BitVec.ofNat 128 (remoteWord s (f.tool - 0x8000) 1 * 2 ^ 64 + remoteWord s (f.tool - 0x8000) 0) ∧
     (reply 2 32).ujob = bits (remoteWord s (f.tool - 0x8000) 2) 63 40 ∧
     (reply 2 32).pid = bits (remoteWord s (f.tool - 0x8000) 2) 39 28 ∧
     (reply 2 33).data.length ≤ bits (remoteWord s (f.tool - 0x8000) 3) 63 48 * 1024 ∧ f.repcap < (reply 2 33).data.length ∧
     (reply 2 32).data.length ≤ f.repcap ∧
     (let s0 := s.addFutOp ⟨65541, .reply 2 (reply 2 32).data, 0, false⟩
      unitOk (uwrite ⟨unitFuture, f.job, f.user⟩ [wbytes f.repva (reply 2 32).data] s0) (fun _ s1 => decide (s1.agents = s0.agents)) =
        true)) ∧
    ((withCtx waiter ⟨[], [65541], [], 0, []⟩).ctx 3).waiting = 65541 :: [] := by decide +kernel

/-- The sequence table at 0x20000. Record 0 is in DECODE and has its tokeniser image at 0x30000, with 300 tokens; the end
token is 5 and the token that begins a call is 6. Record 1 is in no state. -/
def seqs : State :=
  let s := mapped (at_ 0 [0, 5, 6, 7, 300, 16384, 1])
  let c := setBytes s.mem.cells 0x20000 (natBytes 8 (2 * 2 ^ 60))
  let c := setBytes c 0x20028 (natBytes 8 0x30000)
  let c := setBytes c 0x20050 (natBytes 8 (6 * 2 ^ 46 + 5 * 2 ^ 10))
  let c := setBytes c 0x30000 (natBytes 8 300)
  let c := setBytes c 0x30028 (natBytes 8 4)
  (s.setMem { s.mem with cells := c }).setAgents { s.agents with seqBase := 0x20000, seqEn := true }

/-- TokenRequests: the checks of the index, the table, the job and the state; TOKC of each kind of token. -/
theorem witness_token_checks :
    let m : Demand := dabDemand ⟨9, 1, 2, false, false⟩
    let s0 := tokBegun seqs .commit m 9
    let x := tokAsked seqs .commit m 9
    tokKind (.tokc ⟨9, 1, 2, false, false⟩) = some (.commit, ⟨9, 1, 2, false, false⟩) ∧ Ready seqs m ∧ AgentReady seqs 4 ∧
    seqs.part ≠ .ny7710 ∧ seqs.me.task.ord = false ∧ seqs.agents.tokOps = [] ∧
    16384 ≤ (seqs.vals (dabDemand ⟨9, 6, 2, false, false⟩)).a.toNat ∧ (seqs.vals m).a.toNat < 16384 ∧
    (caller.agents.seqEn = false) ∧ seqs.agents.seqEn = true ∧
    unitOk (readRec x.client 0 s0) (fun r s1 => decide (s1 = s0) && r.f 0 55 40 == 0 && r.f 0 63 60 == 2 && r.f 8 53 0 == 0) =
      true ∧
    unitOk (readRec x.client 1 s0) (fun r s1 => decide (s1 = s0) && r.f 0 63 60 == 0) = true ∧
    (let t := mine seqs (fun sl => { sl with task := { sl.task with job := 1 } })
     unitOk (readRec (tokAsked t .commit m 9).client 0 (tokBegun t .commit m 9)) (fun r _ => r.f 0 55 40 != t.me.task.job) =
       true) ∧
    unitOk (tokRun seqs.agents.nextOp x s0) (fun y s1 => unitOk (uwrite x.client y.writes s1) (fun _ _ => true)) = true := by
  and_intros <;> first | decide +kernel | exact ready_of (by decide +kernel) | exact agentReady_of (by decide +kernel)

theorem witness_commits :
    let x (t : Word) : TokOp := ownRequest .commit 0 t 0 0 true
    unitOk (readRec (x 5).client 0 seqs) (fun r s => decide (s = seqs) && r.f 0 55 40 == (x 5).job && r.f 0 63 60 == 2 &&
      r.f 6 53 0 == 0 && r.f 8 53 0 == 0 && r.f 10 27 10 == 5 && r.f 0 59 59 == 0 && r.f 10 63 46 == 6 &&
      unitOk (readImage (x 5).client (vaField (r.f 5 53 0)) seqs) (fun im _ => im.nvocab == 300)) = true ∧
    (x 7).b.toNat < 300 ∧ 300 ≤ (x 300).b.toNat := by decide +kernel

/-- A future of sequence 0 that has ended; a sequence that waits for an entry. -/
theorem witness_injection :
    let s := seqs.setFuture 5 { fut 3 0 with sb := true }
    let x := ownRequest .inject 0 65541 0 0 true
    let s0 := s.setAgents { s.agents with tokOps := mput s.agents.tokOps s.agents.nextOp x, nextOp := s.agents.nextOp + 1 }
    let t := seqs.setAgents { seqs.agents with waitingSeqs := [(0, 0)] }
    let z := ownRequest .call 0 0 0 65536 true
    let t0 := t.setAgents { t.agents with waitingSeqs := [], tokOps := mput t.agents.tokOps t.agents.nextOp z, nextOp := t.agents.nextOp + 1 }
    (s.futureAt 5).sb = true ∧ 3 ≤ (s.futureAt 5).st ∧ s.agents.tokOps = [] ∧
    unitOk (tokRun s.agents.nextOp x s0) (fun y s1 => unitOk (uwrite x.client y.writes s1) (fun _ _ => true)) = true ∧
    (s.futureAt 4).sb = false ∧ t.agents.waitingSeqs = [(0, 0)] ∧
    unitOk (tokRun t.agents.nextOp z t0) (fun y s1 => unitOk (uwrite z.client y.writes s1) (fun _ _ => true)) = true := by decide +kernel

/-- Hart 0 at user level in context 3, which has taken future 5. Capability 0 covers the first 65,535 bytes, and capability 1
is locked. A reply descriptor stands at 0x600. -/
def hart0 : Hart :=
  { Hart.empty with ctx := 3, x := [(1, 65541), (2, 0x600), (3, 0x800), (4, w64 (8 * 2 ^ 16 + 3)), (5, 1), (6, 65540), (7, 0x10000),
                                    (8, 9)],
                    capBase := [(0, 0)], capCtl := [(0, w64 (65535 * 2 ^ 16 + 15)), (1, 16)] }

def tool : State :=
  let s := waiter.setAgents { waiter.agents with harts := [(0, hart0)], ctxs := [(3, ⟨[65540], [], [65541], 0x40, [(1, 5)]⟩)] }
  s.setMem { s.mem with cells := setBytes s.mem.cells 0x600 (natBytes 8 0x700 ++ natBytes 8 8) }

theorem witness_tools :
    (withCtx tool ⟨[], [], [], 0, []⟩).sched.hart = 0 ∧ ((withCtx tool ⟨[], [], [], 0, []⟩).ctx 3).queue = [] ∧
    (tool.ctx (tool.hartAt 0).ctx).queue = 65540 :: [] ∧ (futArg tool (.futArgDeadline 0 1 9)).isSome = true ∧
    tool.held 0 (hart0.r 1) = some (fut 2 0) ∧ tool.held 0 (hart0.r 6) = none ∧
    unitOk (uread (fut 2 0).client (fut 2 0).argva (fut 2 0).arglen tool) (fun l s1 => decide (s1 = tool.setMem s1.mem) &&
      decide (hartStoreFault s1.dropUnitLines hart0 (hart0.r 3).toNat l.length = none)) = true ∧
    Unscanned tool 65541 ∧
    hartRead tool hart0 (hart0.r 2).toNat 16 = .inl (natBytes 8 0x700 ++ natBytes 8 8) ∧
    bits (wordAt (natBytes 8 0x700 ++ natBytes 8 8) 1).toNat 31 0 = 8 ∧ bits (localWord tool 0 1) 63 48 * 1024 = 1024 ∧
    hartRead tool hart0 0x700 8 = .inl (List.replicate 8 0) ∧
    (let s0 := tool.addFutOp ⟨65541, .reply 0 (List.replicate 8 0), 0, false⟩
     unitOk (uwrite (fut 2 0).client [wbytes (fut 2 0).repva (List.replicate 8 0)] s0) (fun _ s1 => decide (s1.agents = s0.agents) &&
       decide (s1.cores = tool.cores)) = true) ∧
    bits (hart0.r 5).toNat 7 0 = 1 ∧ bits (hart0.r 2).toNat 7 0 = 0 := by
  and_intros <;> decide +kernel

theorem witness_capabilities :
    let s := tool.setHart 0 { hart0 with userMode := false }
    8 ≤ 4096 - (hart0.r 3).toNat % 4096 ∧ hartPa tool hart0 (hart0.r 3).toNat .load = some 0x800 ∧
    hart0.covers 0 0x800 8 = true ∧ hart0.covers 0 0x10000 1 = false ∧
    hartPa tool { hart0 with satp := w64 (9 * 2 ^ 60) } 0x800 .load = none ∧ (tool.hartAt 0).userMode = true ∧
    (s.hartAt 0).userMode = false ∧ bit (mget (s.hartAt 0).capCtl 0 0).toNat 4 = false ∧
    bit (mget (s.hartAt 0).capCtl 1 0).toNat 4 = true ∧ (tool.ctx 3).taken = [65541] ∧
    hartAccess tool hart0 0x800 8 .load = .inl 0x800 ∧ hartAccess tool hart0 0x800 8 .fetch = .inl 0x800 ∧
    hartAccess tool hart0 0x800 8 .store = .inl 0x800 ∧ hartAccess tool hart0 0x800 8 .amo = .inl 0x800 ∧
    lineBusy tool 0x800 true = none ∧ hartAccess tool hart0 0x10000 8 .load = .inr 5 := by decide +kernel

/-! ### The host port -/

/-- The host port is ready; job 4 runs with PASID 3 in partition 0, key 5 is loaded, and future 5 is job 4's. -/
def hosted : State :=
  let s := parted State.reset
  let s := s.setWork { s.work with
    jobs := [(4, { root := 0x1000, pasid := 3, key := 0, part := 0, running := true, cancelled := false, rootLaunch := 0,
                   launches := [0], graphs := [], tag := 0, anyFailed := false, started := 0 })],
    launches := [(0, { launch0 with job := 4 })] }
  let s := s.setHost { s.host with ready := true, priOn := true, pasids := [3] }
  let s := s.setMgmt { s.mgmt with keys := [(5, .live)] }
  s.setFuture 5 { fut 2 0 with job := 4 }

/-- A message with a first word. -/
def msg (w0 : Nat) (w2 w3 w4 : Nat) : Words8 := ⟨w64 w0, 0, w64 w2, w64 w3, w64 w4, 0, 0, 0⟩

/-- JOBSTART of job 6 under key 5, at page table 0x1000 and entry 0x4000; one under no job; JOBCANCEL and FUTRES of job 4;
management messages. -/
def startMsg : Words8 := msg (2 ^ 56 + 6 * 2 ^ 32 + 9) 0x1000 0x4000 (5 * 2 ^ 38)
def jobMsg (t : Nat) (reason len : Nat) : Words8 := msg (t * 2 ^ 56 + 4 * 2 ^ 32 + 9) 65541 reason len

theorem msgReady_of {s : State} {m : Words8} {b : Bool} (h : s.host.h2d = [] ∧ s.host.d2h.length < 1024 ∧ s.host.held = [] ∧
    (s.host.ready = true ∨ b = true) ∧ s.mgmt.bootFailed = false) : MsgReady s m b :=
  ⟨.inl h.1, h.2.1, h.2.2.1, h.2.2.2.1, h.2.2.2.2⟩

theorem witness_host_messages :
    MsgReady hosted startMsg false ∧ jobstartCheck hosted startMsg = 0 ∧ freeKey hosted.work.launches 0 65536 = some 1 ∧
    placeSlot hosted 0 = some 0 ∧ jobstartCheck hosted (msg (2 ^ 56) 0x1000 0x4000 (5 * 2 ^ 38)) = 2 ∧
    mget? hosted.work.jobs 6 = none ∧ (mget? hosted.work.jobs 4).map Job.running = some true ∧
    (mget? hosted.work.jobs 4).map Job.graphs = some [] ∧ (∀ x ∈ hosted.work.launches, x.2.st ≠ 1) ∧
    hosted.launchAt 0 = some { launch0 with job := 4 } ∧ msgJob (jobMsg 3 1 0) = 4 ∧ Unscanned hosted 65541 ∧
    1 < bits (jobMsg 3 2 0).w3.toNat 7 0 ∧ hosted.byHandle 65541 = some { fut 2 0 with job := 4 } ∧
    hosted.byHandle 65542 = none ∧ (jobMsg 3 0 16).w4 ≠ 0 ∧ ¬(65536 < (jobMsg 3 0 65536).w4.toNat) ∧
    65536 < (jobMsg 3 0 65537).w4.toNat := by
  and_intros <;> first
    | decide +kernel
    | exact msgReady_of (by decide +kernel)

/-- Management messages before boot has ended: a key for identifier 6, one for identifier 5 that is loaded, caps at their
bounds and beyond. -/
theorem witness_management :
    let s := State.reset.setMgmt { State.reset.mgmt with keys := [(5, .live)] }
    MsgReady s (jobMsg 0x10 0 0) true ∧ s.host.d2h.length < 1023 ∧ loadKeyStatus s (msg 0 0 0 6) = 0 ∧
    loadKeyStatus s (msg 0 0 0 5) ≠ 0 ∧ 1200 ≤ (msg 0 0 1200 0).w3.toNat ∧ (msg 0 0 2400 0).w3.toNat ≤ 2400 ∧
    2400 < (msg 0 0 2401 0).w3.toNat ∧ (msg 0 0 1199 0).w3.toNat < 1200 := by
  and_intros <;> first | decide +kernel | exact msgReady_of (by decide +kernel)

/-- An access of job 4 to host page 2. -/
def hostAcc (how : Perform) : Access :=
  { srcs := [⟨0, 0, 0⟩], org := 0, va := 0x2008, pa := 0x8000000002008, pc := 0x4004, job := 4, launch := 0, part := 0,
    user := true, ord := false, handler := false, release := false, dst := 9, how := how }

/-- An access of job 4 to a word of pool memory. -/
def poolAcc (how : Perform) : Access := { hostAcc how with pa := 0x4000000000008 }

def pending (r : HostRead) : State := hosted.setHost { hosted.host with pendingReads := [(7, r)] }

theorem witness_host_reads :
    let k : Words8 := msg 0 0 0 6
    hosted.host.pendingReads = [] ∧ (pending (.key k)).host.pendingReads.find? (fun r => r.1 == 7) = some (7, .key k) ∧
    (pending (.key k)).host.d2h.length < 1024 ∧ loadKeyStatus (pending (.key k)) k = 0 ∧
    (pending (.image k)).host.pendingReads.find? (fun r => r.1 == 7) = some (7, .image k) ∧
    (pending (.futres (jobMsg 3 0 33))).byHandle 65541 = some { fut 2 0 with job := 4 } ∧
    (fut 2 0).repcap < (List.replicate 33 (0 : Byte)).length ∧ Unscanned (pending (.futres (jobMsg 3 0 33))) 65541 ∧
    region (hostAcc (.load 3)).pa = 8 ∧
    (pending (.access (hostAcc (.load 3)))).host.pendingReads.find? (fun r => r.1 == 7) = some (7, .access (hostAcc (.load 3))) := by
  and_intros <;> decide +kernel

theorem witness_host_queues :
    let m := jobMsg 1 0 0
    let full (n : Nat) : State := hosted.setHost { hosted.host with d2h := List.replicate n m, held := [m] }
    (full 1024).host.d2h = m :: List.replicate 1023 m ∧ (full 1024).host.held = m :: [] ∧
    (List.replicate 1023 m).length < 1024 ∧ hosted.host.d2h = [] ∧ hosted.host.held = [] ∧
    (let s := { (hosted.setHost { hosted.host with irqArmed := some 0, ien := true }) with
                sched := { hosted.sched with stamp := 34000 } }
     s.host.irqArmed = some 0 ∧ 34000 ≤ s.now - 0 ∧ s.host.ien = true) ∧ hosted.host.irqArmed = none ∧
    (let s := hosted.setHost { hosted.host with h2d := List.replicate 511 m }
     headDue s startMsg = false ∧ s.host.h2d ≠ [] ∧ s.host.h2d.length < 512) ∧
    (headDue State.reset startMsg = false ∧ State.reset.host.ready = false ∧ State.reset.mgmt.bootFailed = false) ∧
    (let s := hosted.setHost { hosted.host with h2d := List.replicate 512 m }
     headDue s startMsg = false ∧ 512 ≤ s.host.h2d.length) ∧
    vectorMasked hosted 0 = true ∧
    vectorMasked (hosted.setHost { hosted.host with msix := [(3, 0)] }) 0 = false := by decide +kernel

/-- HostAndPoolAccesses: an access that waits for its page, before and after a page request; a pool access under way. -/
def waitsFor (a : Access) (n : Nat) (group : Bool) : State :=
  hosted.setHost { hosted.host with hostWaits := [(a, n)], pri := if group then [(3, 2)] else [] }

theorem witness_translations_asked :
    let a := hostAcc (.load 3)
    (waitsFor a 0 false).host.ats.length < 16384 ∧ (waitsFor a 0 false).pasidOf a.job = 3 ∧ hostPage a = 2 ∧
    (let s := waitsFor a 3 false
     atsGrants (s.setHost { s.host with ats := mput s.host.ats (atsKey 3 2) (s.now, 0, true, false) }) 3 a = true) ∧
    atsGrants (waitsFor a 0 false) 3 a = false ∧ (waitsFor a 0 false).host.priOn = true ∧ (waitsFor a 0 false).host.pri = [] ∧
    (3, 2) ∉ (waitsFor a 0 false).host.pri ∧ (waitsFor a 2 true).host.pri = [(3, 2)] ∧
    (waitsFor a 2 true).host.hostWaits = [(a, 2)] ∧ readOut hosted 3 0 16 9 = false ∧ atsBase (hostPage a) 0 = 2 ∧
    atsBase (hostPage a) 2 = 0 ∧ readOut (pending (.access a)) 3 0 16 8 = true ∧
    readOut (pending (.access a)) 3 0 16 7 = false := by decide +kernel

theorem witness_pool :
    let a := poolAcc (.load 3)
    let w := pending (.poolWrite (poolAcc (.store 8 5)) 0 0)
    w.host.pendingReads.find? (fun r => r.1 == 7) = some (7, .poolWrite (poolAcc (.store 8 5)) 0 0) ∧ region a.pa ≠ 8 ∧
    (pending (.access a)).host.pendingReads.find? (fun r => r.1 == 7) = some (7, .access a) ∧
    ((pending (.access a)).dropRead 7).isPoison a.pa = false ∧
    (let s := (pending (.access a)).setMem { hosted.mem with poison := [a.pa / 8] }
     opReads a.how = true ∧ (s.dropRead 7).isPoison a.pa = true) ∧
    opReads (poolAcc (.cas 1 2)).how = true := by decide +kernel

theorem witness_windows :
    let s := hosted.setHost { hosted.host with cxlwin := [(0, 1)] }
    (7 : Nat) < 8 ∧ bit (mget s.host.cxlwin 0 0).toNat 0 = true ∧ bit (mget s.host.cxlwin 7 0).toNat 0 = false ∧
    2 ^ 42 < cxlTotal s + (bits (16383 * 2 ^ 14 + 1) 27 14 + 1) * 2 ^ 28 ∧
    cxlTotal s + (bits (16382 * 2 ^ 14 + 1) 27 14 + 1) * 2 ^ 28 ≤ 2 ^ 42 := by decide +kernel

/-! ### Faults, heat and churn -/

/-- Launch 0 has a fault ring at 0x8000, and a record waits for its slot, which is free. -/
def ringed : State :=
  let s := mapped (at_ 0 [1, 2])
  s.setWork { s.work with launches := [(0, { launch0 with handler := 0x4000, farea := 0x8000, stalled := [(0, 1, 2, 3, 4)] })] }

theorem witness_fault_ring :
    ringed.launchAt 7 = none ∧ (launched plain).launchAt 0 = some launch0 ∧ launch0.stalled = [] ∧
    (ringed.launchAt 0).map Launch.stalled = some [(0, 1, 2, 3, 4)] ∧
    (ringed.launchAt 0).map (fun l => (ringSlot ringed l).1) = some (.ok ⟨0, 0x8000, 0⟩) ∧
    (ringed.launchAt 0).map (fun l => decide ((ringSlot ringed l).2 = ringed.setMem (ringSlot ringed l).2.mem)) = some true ∧
    ringNear ringed ⟨0, 0x8000, 0⟩ = true ∧ ringed.keyLive (ringed.keyOf 0) = true ∧
    bytesNat (ringed.mem.read 0 0x8000 8) = 0 ∧ bytesNat (ringed.mem.read 0 0x1000 8) ≠ 0 := by decide +kernel

/-- The issuing thread waits at a fault with token 5, and a posted store with token 6. -/
def faulted : State :=
  let s := mine (at_ 0 [1, 2]) (fun sl => { sl with st := .fault 5 })
  s.setMem { s.mem with replay := [⟨5, 0, 0, 8, .thread ⟨0, 0⟩⟩, ⟨6, 0, 0, 8, .access
    { srcs := [⟨0, 0, 1⟩], org := 0, va := 8, pa := 8, pc := 0x4004, job := 0, launch := 0, part := 0, user := true, ord := false,
      handler := false, release := false, dst := 0, how := .store 8 5 }⟩] }

theorem witness_replays :
    faulted.waitingOf 4 = none ∧ (faulted.waitingOf 5).map Replay.what = some (.thread ⟨0, 0⟩) ∧
    (faulted.slotAt ⟨0, 0⟩).st = .fault 5 ∧ (faulted.waitingOf 6).isSome = true ∧ opPosted (.store 8 5) = true ∧
    faulted.agents.tokOps = [] ∧ faulted.agents.calls = [] ∧ faulted.agents.futOps = [] := by decide +kernel

theorem witness_heat :
    plain.churn.heatEn = false ∧ Memory.wf plain.mem.cells = true ∧
    (plain.setChurn { plain.churn with heatEn := true }).churn.heatEn = true ∧ (1 : Word).getLsbD 0 = true := by decide +kernel

/-- A compressed page of zeros: one literal, a match of 4,090 bytes, five literals; and its header. -/
def zeroPage : List Byte := [0x1F, 0, 1, 0] ++ List.replicate 15 255 ++ [246, 0x50, 0, 0, 0, 0, 0]
def zeroHead : List Byte := natBytes 8 (zeroPage.length + 1196771061 * 2 ^ 32) ++ natBytes 8 (2 ^ 64 - 1)

/-- The words of a command block. -/
def block (op va dest done : Nat) : List Byte := natBytes 8 (op * 2 ^ 56) ++ natBytes 8 va ++ natBytes 8 dest ++ natBytes 8 done

/-- Job 0's page at 0 stands in frame 7, its page at 0x1000 in a slot at 0x40000 of region 0x1. Commands: MIGRATE at 0xA000,
COMPRESS at 0xA020, DECOMPRESS at 0xA040, one of no kind at 0xA060, DECOMPRESS of a page that is not compressed at 0xA080.
The free-frame list at 0xD000 holds frame 0xE. -/
def churned : State :=
  let s := at_ 0 []
  let c := setBytes [] 0x1000 (natBytes 8 (2 * 1024 + 512))
  let c := setBytes c 0x2000 (natBytes 8 (3 * 1024 + 512))
  let c := setBytes c 0x3000 (natBytes 8 (5 * 1024 + 512))
  let c := setBytes c 0x5000 (natBytes 8 (6 * 1024 + 512))
  let c := setBytes c 0x6000 (natBytes 8 (7 * 1024 + 903) ++ natBytes 8 (2 ^ 48 + 0x40000 + 64 + 903))
  let c := setBytes c 0x7000 [1, 2, 3]
  let c := setBytes c 0xA000 (block 1 0 0x9000 0xB000 ++ block 2 0 0x9000 0xB000 ++ block 3 0x1000 0x9000 0xB000 ++
    block 4 0 0x9000 0xB000 ++ block 3 0 0x9000 0xB000)
  let c := setBytes c 0xD008 (natBytes 8 1)
  let c := setBytes c 0xD040 (natBytes 8 0xE000)
  let c := setBytes c (2 ^ 48 + 0x40000) (zeroHead ++ zeroPage)
  let s := s.setMem { s.mem with cells := c }
  (s.setWork { s.work with jobs := [(0, probeJob)] }).setChurn { s.churn with en := true, fpool := 0xD }

def cmdAt (n : Nat) : ChurnCmd := cmdOf n (bytesAt churned.mem.cells n 32)
def w0At (n : Nat) : Nat := (wordAt (bytesAt churned.mem.cells n 32) 0).toNat

/-- The MIGRATE command in a state of its own, under number 3. -/
def cmdIn (st : Nat) : State := churned.setCmd 3 { cmdAt 0xA000 with st := st, old := 7, pte := 0x6000 }

def isLeaf (r : LeafRes) (at_ pte level : Nat) : Bool :=
  match r with
  | .leaf a p l => a == at_ && p == pte && l == level
  | _ => false

def zOk (r : ZRes) : Bool :=
  match r with
  | .page _ _ _ => true
  | _ => false

theorem witness_churn_checks :
    mget? churned.churn.cmds 3 = none ∧ churned.churn.en = true ∧ paOk churned 0xA01F = true ∧ lineBusy churned 0xA000 false = none ∧
    8 ≤ region (8 * 2 ^ 48) ∧ plainLines churned 0 2 0xA000 (bytesAt churned.mem.cells 0xA000 64) = bytesAt churned.mem.cells 0xA000 64 ∧ (at_ 0 []).churn.en = false ∧ paOk churned 0xA000 = true ∧ region 0xA000 < 4 ∧
    churned.churn.cmds.length < 64 ∧ (fullFrom (cmdAt 0xA000) 0x10000 64).length = 64 ∧
    (cmdIn 1).churn.cmds.any (fun x => sameTarget x.2 (cmdAt 0xA020)) = true ∧
    churned.churn.cmds.any (fun x => sameTarget x.2 (cmdAt 0xA000)) = false ∧ cmdBad churned (w0At 0xA060) (cmdAt 0xA060) = true ∧
    cmdBad churned (w0At 0xA000) (cmdAt 0xA000) = false ∧ cmdBad churned (w0At 0xA020) (cmdAt 0xA020) = false ∧
    cmdBad churned (w0At 0xA040) (cmdAt 0xA040) = false ∧ cmdBad churned (w0At 0xA080) (cmdAt 0xA080) = false ∧
    isLeaf (leafAt churned 0 6 4 0x1000) 0x6000 (7 * 1024 + 903) 0 = true ∧
    isLeaf (leafAt churned 0x1000 6 4 0x1000) 0x6008 (2 ^ 48 + 0x40000 + 64 + 903) 0 = true ∧
    churned.keyLive (churned.accKey 0 0) = true ∧ churned.mem.waiters = [] ∧ (cmdAt 0xA000).size = 0 ∧
    bits (7 * 1024 + 903) 63 50 = churned.fabric.self ∧ bits (2 ^ 48 + 0x40000 + 64 + 903) 63 50 = churned.fabric.self ∧
    typeOk (region 0x9000) (bits (7 * 1024 + 903) 5 4) = true ∧ bit (7 * 1024 + 903) 6 = false ∧
    bit (2 ^ 48 + 0x40000 + 64 + 903) 6 = true := by decide +kernel

theorem witness_churn_stages :
    (cmdIn 1).churn.cmds = [(3, { cmdAt 0xA000 with st := 1, old := 7, pte := 0x6000 })] ∧ tlbiRuns (cmdIn 1) 3 = false ∧
    tlbiRuns ((cmdIn 1).setMem { (cmdIn 1).mem with
      tlbis := [⟨⟨unitChurn, 3⟩, none, none, 0, [], [], []⟩] }) 3 = true ∧ frameInUse (cmdIn 1) 7 = false ∧ (7 : Nat) ≠ 9 ∧
    (cmdIn 6).mem.empties.Pairwise (· < ·) ∧ (cmdAt 0xA000).frames = 1 ∧
    (cmdIn 1).mem.clines = [] ∧ (cmdIn 1).mem.peers = [] ∧ (cmdIn 1).work.clusters = [] ∧ (cmdAt 0xA000).op = 1 ∧
    (cmdAt 0xA000).dest / 4096 = 9 ∧ region (7 * 4096) < 3 ∧ region (9 * 4096) < 3 ∧ (cmdIn 2).churn.heatEn = false ∧
    Memory.wf (cmdIn 2).mem.cells = true ∧ (cmdIn 2).mem.empties = [] ∧ (cmdAt 0xA000).frames ≤ 0 + 1 ∧
    (0 : Nat) + 1 < 512 ∧ (cmdAt 0xA000).done % 8 = 0 ∧ region (cmdAt 0xA000).done < 3 ∧
    paOk (cmdIn 4) (cmdAt 0xA000).done = true := by decide +kernel


theorem zero_hash : xxh32 (List.replicate 4096 0) = 1196771061 := by decide +kernel

theorem lzCopy_zero (n : Nat) : ∀ m, lzCopy n 1 (List.replicate (m + 1) 0) = List.replicate (m + 1 + n) 0 := by
  induction n with
  | zero => intro m; rfl
  | succ n ih => intro m; rw [lzCopy, show m + 1 + (n + 1) = m + 1 + 1 + n by omega, ← ih (m + 1)]; rfl

theorem zero_page : lzPage zeroPage = some (List.replicate 4096 0) := by
  have e : lzLen 15 (List.replicate 15 255 ++ [246, 0x50, 0, 0, 0, 0, 0]) = some (4086, [0x50, 0, 0, 0, 0, 0]) := by
    decide +kernel
  have f : lzCopy (4086 + 4) 1 [0] = List.replicate 4091 0 := lzCopy_zero 4090 0
  have g : lzDecode 26 [0x50, 0, 0, 0, 0, 0] (List.replicate 4091 0) = some (List.replicate 4096 0) := by
    rw [lzDecode, show lzLen ((0x50 : Byte).toNat / 16) [0, 0, 0, 0, 0] = some (5, [0, 0, 0, 0, 0]) from by decide]
    simp only [List.length_replicate, List.length_cons, List.length_nil]
    exact congrArg some (List.replicate_append_replicate (n := 5) (m := 4091))
  have h : lzDecode 27 zeroPage [] = some (List.replicate 4096 0) := by
    rw [show zeroPage = 0x1F :: 0 :: 1 :: 0 :: (List.replicate 15 255 ++ [246, 0x50, 0, 0, 0, 0, 0]) from rfl, lzDecode,
      show lzLen ((0x1F : Byte).toNat / 16) (0 :: 1 :: 0 :: (List.replicate 15 255 ++ [246, 0x50, 0, 0, 0, 0, 0])) =
        some (1, 0 :: 1 :: 0 :: (List.replicate 15 255 ++ [246, 0x50, 0, 0, 0, 0, 0])) from rfl]
    simp only [List.length_cons, List.length_nil, List.drop_succ_cons, List.drop_zero, List.take_succ_cons, List.take_zero,
      List.reverse_cons, List.reverse_nil, List.nil_append, List.append_nil]
    rw [show (0x1F : Byte).toNat % 16 = 15 from rfl, e]
    rw [if_neg (by decide)]
    simp only []
    rw [if_neg (by decide), show (1 : Byte).toNat + 256 * (0 : Byte).toNat = 1 from rfl, f, g]
  rw [lzPage, show zeroPage.length + 1 = 27 from rfl, h]
  simp only [List.length_replicate, List.reverse_replicate, if_true]

theorem unpackSlot_page {c : Nat} {l page : List Byte} (h1 : ¬c * 1024 < bits (wordAt l 0).toNat 15 0 + 16)
    (h2 : lzPage ((l.drop 16).take (bits (wordAt l 0).toNat 15 0)) = some page)
    (h3 : (xxh32 page).toNat = bits (wordAt l 0).toNat 63 32) : unpackSlot c l = .inr (page, tagsOf (wordAt l 1)) := by
  simp [unpackSlot, h1, h2, h3]

/-- The bytes of the slot. -/
def zeroSlot : List Byte := zeroHead ++ zeroPage ++ List.replicate 982 0

theorem zeroSlot_length : bits (wordAt zeroSlot 0).toNat 15 0 = 26 := by decide +kernel
theorem zeroSlot_hash : bits (wordAt zeroSlot 0).toNat 63 32 = 1196771061 := by decide +kernel
theorem zeroSlot_body : List.take 26 (List.drop 16 zeroSlot) = zeroPage := by decide +kernel

theorem slot_bytes : bytesAt churned.mem.cells (2 ^ 48 + 0x40000) 1024 = zeroSlot := by decide +kernel

theorem slot_plain : plainLines churned 0 64 (2 ^ 48 + 0x40000) zeroSlot = zeroSlot := by decide +kernel

theorem plainLines_of {s t : State} (h : s.mem = t.mem) (key : Nat) : ∀ fuel pa l,
    plainLines s key fuel pa l = plainLines t key fuel pa l := by
  intro fuel
  induction fuel with
  | zero => intro pa l; rfl
  | succ n ih =>
    intro pa l
    rw [plainLines, plainLines, ih, h]

/-- The slot at 0x40000 gives a page of zeros in a state with the memory, the jobs and the keys of `churned`. -/
theorem slot_page {s : State} {n : Nat} (h1 : s.mem = churned.mem) (h2 : s.churn.zreg = 1)
    (h3 : s.keyLive (s.accKey 0 0x1000) = true ∧ s.accKey 0 0x1000 = 0 ∧ s.fabric.self = 0) :
    readSlot s n (2 ^ 48 + 0x40000 + 64 + 903) 0 0x1000 =
      .page (List.replicate 4096 0) (tagsOf (wordAt zeroSlot 1)) (s.dropBuf n) := by
  have hc : pteClass (2 ^ 48 + 0x40000 + 64 + 903) = 1 := by decide
  have hp : pteSlot s (2 ^ 48 + 0x40000 + 64 + 903) = 2 ^ 48 + 0x40000 := by
    rw [pteSlot, h2]
    decide
  have hs : storedBytes s n (2 ^ 48 + 0x40000) (1 * 1024) = .ok zeroSlot s := by
    rw [storedBytes, if_pos (by decide), h1, show 1 * 1024 = 1024 from rfl, slot_bytes]
  have hu : unpackSlot 1 zeroSlot = .inr (List.replicate 4096 0, tagsOf (wordAt zeroSlot 1)) :=
    unpackSlot_page (by rw [zeroSlot_length]; decide) (by rw [zeroSlot_length, zeroSlot_body, zero_page])
      (by rw [zero_hash, zeroSlot_hash]; rfl)
  have hd : (bits (2 ^ 48 + 0x40000 + 64 + 903) 63 50 != s.fabric.self) = false := by rw [h3.2.2]; decide
  have hk : s.keyLive 0 = true := h3.2.1 ▸ h3.1
  simp only [readSlot, hk, Bool.not_true, Bool.false_eq_true, if_false, hc, hp, hd, hs, h3.2.1,
    plainLines_of h1, slot_plain, slotResult, hu]

theorem witness_slot_read :
    let s := churned.setCmd 3 (cmdAt 0xA040)
    s.accKey 0 0x1000 = 0 ∧ ∃ page es s1, readSlot s 3 (2 ^ 48 + 0x40000 + 64 + 903) 0 0x1000 = .page page es s1 :=
  ⟨by decide +kernel, _, _, _, slot_page rfl rfl (by decide +kernel)⟩

/-- A load of the page at 0x1000 waits for its decompression under token 9. -/
def zwaiting (at_ : Nat) : State :=
  churned.setChurn { churned.churn with zwait := [(at_, ⟨9, 0, 0, 0x1000, .thread ⟨0, 0⟩⟩)] }

def frameOk (r : FrameRes) : Bool :=
  match r with
  | .got f _ => f == 0xE
  | _ => false

theorem witness_decompression :
    churned.churn.zwait.find? (fun z => z.2.token == 9) = none ∧ churned.bufAt (zBuf 9) = [] ∧
    entryBusy (zwaiting 0x6008) 0x6008 = false ∧
    (zwaiting 0x6008).churn.zwait.find? (fun z => z.2.token == 9) = some (0x6008, ⟨9, 0, 0, 0x1000, .thread ⟨0, 0⟩⟩) ∧
    bit ((zwaiting 0x6000).mem.pte 0x6000) 6 = false ∧ bit ((zwaiting 0x6008).mem.pte 0x6008) 6 = true ∧
    bit ((zwaiting 0x6008).mem.pte 0x6008) 9 = true ∧ (zwaiting 0x6008).mem.pte 0x6008 = 2 ^ 48 + 0x40000 + 64 + 903 ∧
    frameOk (takeFrame 505 ((zwaiting 0x6008).dropBuf (zBuf 9))) = true ∧
    frameOk (takeFrame 505 ((zwaiting 0x6008).setChurn { (zwaiting 0x6008).churn with fpool := 0xC })) = false := by decide +kernel

theorem witness_decompressed : (zwaiting 0x6008).accKey 0 0x1000 = 0 ∧ ∃ page es,
    readSlot (zwaiting 0x6008) (zBuf 9) (2 ^ 48 + 0x40000 + 64 + 903) 0 0x1000 =
      .page page es ((zwaiting 0x6008).dropBuf (zBuf 9)) :=
  ⟨by decide +kernel, _, _, slot_page rfl rfl (by decide +kernel)⟩

/-! ### Tasks, registers, power -/

/-- A packet of launch 0 for cluster 0, of this module, with 64 as its handler and n footprint entries at 0x8000. -/
def pkt0 (n : Nat) : Words8 := ⟨0, 0, w64 (64 + 2 ^ 60), 0, w64 (n * 2 ^ 59 + (if n = 0 then 0 else 0x8000)), 0, 3, 4⟩

/-- A task that waits in the queue of cluster 0, with a footprint that may be known. -/
def task0 (p : Words8) (foot : Option (List (Word × Word))) : QTask :=
  { id := 5, pkt := p, job := 0, enq := 0, st := .waitw, foot := foot, bad := false, asked := [], sat := [], got := 0, cand := 0,
    handler := false, task := none }

/-- Partition 0 with launch 0 and a queue. -/
def queued (q : List QTask) : State :=
  let s := launched (parted (mapped State.reset))
  let s := s.setMem { s.mem with cells := setBytes s.mem.cells 0x8000 (natBytes 8 (2 ^ 63 + 0x9000)) }
  s.setCluster 0 { s.cluster 0 with queue := q }

theorem witness_arrival :
    (pkt0 0).w2.getLsbD 58 = false ∧ (pkt0 0).w2.getLsbD 59 = false ∧ originMod (pkt0 0) = (queued []).fabric.self ∧
    queueOpen (queued []) 0 = true ∧ (queued []).launchAt (packetLaunch (pkt0 0)) = some launch0 ∧ launch0.cancelled = false ∧
    (queued []).cluster 0 = Cluster.reset ∧ queueFull (queued (List.replicate 1024 (task0 (pkt0 0) none))) 0 = true ∧
    (let s := queued []
     let t := s.setCluster 0 { s.cluster 0 with ring := [task0 (pkt0 0) none], blocked := [(⟨0, 0⟩, false, pkt0 0)] }
     (t.cluster 0).ring = task0 (pkt0 0) none :: [] ∧ queueOpen t 0 = true ∧ (t.cluster 0).blocked ≠ []) := by decide +kernel

theorem witness_wait_words :
    let s := queued [task0 (pkt0 1) none]
    let f := footOf (natBytes 8 (2 ^ 63 + 0x9000) ++ natBytes 8 0) 1
    let t := queued [task0 (pkt0 1) (some f)]
    (s.cluster 0).task? 4 = none ∧ (s.cluster 0).task? 5 = some (task0 (pkt0 1) none) ∧ footWaits s 0 5 = false ∧
    packetBad (pkt0 1) = false ∧ packetBad (pkt0 0) = false ∧ packetBad { pkt0 0 with w5 := 1 } = true ∧
    bits (pkt0 1).w4.toNat 63 59 ≠ 0 ∧ bits (pkt0 0).w4.toNat 63 59 = 0 ∧
    readOk (unitRead s 0 0 true (((pkt0 1).w4.truncate 54 : BitVec 54).signExtend 64) 16) (fun _ _ => true) = true ∧
    waitsOf f = [(0, 0x9000)] ∧ (t.cluster 0).task? 5 = some (task0 (pkt0 1) (some f)) ∧
    (translate t 0 0 true 0x9000 .read).1 = .ok ⟨0, 0x9000, 0⟩ ∧ region 0x9000 < 4 ∧ (task0 (pkt0 1) (some f)).asked = [] := by decide +kernel

/-- Two tasks whose footprints are known: the second has the higher priority; a third whose footprint is bad. -/
def first : QTask := task0 (pkt0 0) (some [])
def second : QTask := { task0 { pkt0 0 with w2 := w64 (64 + 3 * 2 ^ 60) } (some [(w64 (2 ^ 62), w64 (4 * 2 ^ 54 + 2 * 2 ^ 44))]) with id := 6 }
def third : QTask := { task0 (pkt0 0) (some [(1, 0)]) with id := 7 }

theorem witness_dispatch :
    candidates (queued []) 0 = [] ∧ candidates (queued [first, second]) 0 = [second, first] ∧
    throttled (queued [first, second]) 0 second = false ∧ second.task = none ∧ second.bad = false ∧
    footBad [(w64 (2 ^ 62), w64 (4 * 2 ^ 54 + 2 * 2 ^ 44))] (fun _ => false) = false ∧
    chooseCore (queued [first, second]) 0 second = some 0 ∧ (freePrimary (queued [first, second]) 0).head? = some 0 ∧
    packetOrd second.pkt = false ∧ needTable second = 0 ∧ second.st = .waitw ∧
    candidates (queued [third]) 0 = [third] ∧ throttled (queued [third]) 0 third = false ∧
    footBad (third.foot.getD []) (fun _ => false) = true ∧ effPrio (queued [first, second]) first = 1 ∧
    effPrio (queued [first, second]) second = 3 := by decide +kernel

/-- The second task has been chosen for slot 0 of core 0. -/
def chosen : State :=
  let s := queued [{ second with st := .fetch 0 0 }]
  s.setSlot ⟨0, 0⟩ { s.slotAt ⟨0, 0⟩ with reserved := true, task := taskOf s 0 second 0 0 0 }

theorem witness_fetch :
    chosenFor (queued []) ⟨0, 0⟩ = none ∧ chosenFor chosen ⟨0, 0⟩ = some { second with st := .fetch 0 0 } ∧
    footWaits chosen 0 6 = false ∧ (chosen.slotAt ⟨0, 0⟩).task.tfmt = 0 ∧ (chosen.slotAt ⟨0, 0⟩).task.ord = false ∧
    tileSteps (tilesOf (second.foot.getD [])) = [(4, none), (5, none)] := by decide +kernel

/-- A slot that is to be saved, of a launch with a SAVE area at 0x100000. -/
def saver : State :=
  let s := mine (mapped (at_ 0 [1, 2])) (fun sl => { sl with st := .saving none, task := { sl.task with pins := [3] } })
  s.setWork { s.work with launches := [(0, { launch0 with save := 0x100000 })] }

theorem witness_saves :
    (plain.slotAt ⟨0, 0⟩).st ≠ .saving none ∧ (saver.slotAt ⟨0, 0⟩).st = .saving none ∧ (saver.slotAt ⟨0, 0⟩).anyPend = false ∧
    (saver.slotAt ⟨0, 0⟩).late = [] ∧ (saver.slotAt ⟨0, 0⟩).outst = 0 ∧ (saver.slotAt ⟨0, 0⟩).posted = 0 ∧
    lmigSave saver ⟨0, 0⟩ = false ∧
    lmigSave (saver.setWork { saver.work with lmigStatus := 1, lmigFrom := 0 }) ⟨0, 0⟩ = true ∧
    (saveBlock saver 0 (.thread ⟨0, 0⟩)).1 = .found 0x100000 ∧
    (saver.slotAt ⟨0, 0⟩).doomed = false ∧ (saver.launchOf (saver.slotAt ⟨0, 0⟩).task).map Launch.cancelled = some false ∧
    (mine saver (fun sl => { sl with posted := 1 })).me.posted ≠ 0 ∧ (0x100000 : Word) ≠ 0 ∧
    (let sl := saver.slotAt ⟨0, 0⟩
     let s := (saver.setSlot ⟨0, 0⟩ { sl with st := .saving (some (0x100000, true)) }).putSave ⟨0, 0⟩ sl.task 2 0x100058
       (natBytes 8 (2 ^ 63 + sl.task.pins.length))
     let u := saver.setMem { saver.mem with peers := [(0x100040 / 64, ([3], 0))] }
     let t := (u.setSlot ⟨0, 0⟩ { sl with st := .saving (some (0x100000, true)) }).putSave ⟨0, 0⟩ sl.task 2 0x100058
       (natBytes 8 (2 ^ 63 + sl.task.pins.length))
     (s.slotAt ⟨0, 0⟩).posted = 0 ∧ (t.slotAt ⟨0, 0⟩).posted ≠ 0) := by decide +kernel

/-- Launch 3 of job 0 has no task left, and a JOINW waits for it; the root launch 0 of job 4 has no task left. -/
def ended : State :=
  let s := mine (at_ 0 [1]) (fun sl => sl.pendG 9)
  s.setWork { s.work with
    launches := [(0, launch0), (3, { launch0 with count := 0 })], jobs := [(0, probeJob)], joins := [⟨⟨0, 0⟩, 9, 0, 3⟩] }

def rootEnded : State := hosted.setWork { hosted.work with launches := [(0, { launch0 with job := 4, count := 0 })] }

theorem witness_launch_ends :
    ended.launchAt 9 = none ∧ (ended.launchAt 0).map Launch.count = some 2 ∧
    (ended.launchAt 3).map (fun l => (l.st, l.count, l.graph, l.ord)) = some (2, 0, 0, false) ∧
    (mget? ended.work.jobs 0).map (fun j => (j.running, j.rootLaunch)) = some (true, 0) ∧ launchEnded ended 0 = false ∧
    ((ended.slotAt ⟨0, 0⟩).cell 9).pend = true ∧ (mget? rootEnded.work.jobs 4).map Job.graphs = some [] ∧
    rootEnded.work.joins = [] ∧ jobTrails rootEnded 4 = false ∧ rootEnded.host.d2h.length < 1024 ∧ ended.forwarded 0 = 0 ∧
    (ended.launchAt 3).map Launch.multi = some false ∧
    (let s := (queued []).setWork { (queued []).work with advancing := [0] }
     mget s.work.phaseFor 0 [] = [] ∧ s.fabric.enable = false ∧ mget? s.work.phaseLeft 0 = none ∧ s.mem.clines = [] ∧
     (s.setMem { s.mem with wbOut := [(0, 1, 0x100)] }).mem.wbOut.any (fun x => (partClusters s 0).contains x.1) = true) ∧
    ((queued []).setWork { (queued []).work with advancing := [0] }).work.advancing = [0] ∧
    plain.work.advancing = [] := by decide +kernel

/-- Live migration of core 0 to core 1. -/
def goVal : Word := w64 (1 * 2 ^ 32 + 1)

def moving : State :=
  let s := parted State.reset
  s.setWork { s.work with lmigSrc := 0, lmigDst := 1, lmigFrom := 0, lmigTo := 1, lmigStatus := 2 }

theorem witness_lmig :
    moving.work.lmigStatus = 2 ∧ (parted State.reset).work.lmigStatus ≠ 1 ∧ (parted State.reset).work.lmigStatus ≠ 2 ∧
    goVal.getLsbD 0 = true ∧ lmigRefused (parted State.reset) 0 1 = false ∧ lmigRefused (parted State.reset) 0 0 = true ∧
    (parted State.reset).cores = [] ∧ lmigRefused (parted plain) 0 1 = false ∧ (plain.slotAt ⟨0, 0⟩).st ≠ .free ∧
    (plain.slotAt ⟨0, 0⟩).guest = false ∧ (moving.coreAt 0).slots = [] ∧ moving.work.clusters = [] ∧
    moving.work.lmigFrom ≠ moving.work.lmigTo ∧ lmigOwned moving 0 = [] ∧ lmigPeers moving 0 = [] ∧ lmigBusy moving 0 = false ∧
    clusterOf moving.work.lmigFrom = clusterOf moving.work.lmigTo ∧ (5 : Word).getLsbD 0 = true ∧
    Memory.wf moving.mem.cells = true := by decide +kernel

/-- RegisterWrites: the ring sizes at their bounds, a partition that is busy and one that clashes, a tile and no tile. -/
theorem witness_registers :
    dies .ny7740 ≤ 8 ∧ 0 < dies State.reset.part ∧ ringsInUse State.reset 0 = false ∧
    ringsInUse (State.reset.setCluster 5 { Cluster.reset with ring := [task0 (pkt0 0) none] }) 0 = true ∧
    ringsFit State.reset 0 (0x100000000 + 16) = true ∧ ringsFit State.reset 0 (0xC00000000 + 6) = false ∧
    (let s := hosted.setWork { hosted.work with partcfg := [(0, w64 (2 * 2 ^ 11 + 1))] }
     bit (mget s.work.partcfg 0 0).toNat 0 = true ∧ (mget? s.work.jobs 4).map (fun j => (j.running, j.part)) = some (true, 0) ∧
     bits (mget s.work.partcfg 0 0).toNat 63 48 = 0) ∧
    runsOverlap (2 * 2 ^ 11 + 1) (1 * 2 ^ 22 + 2 ^ 11) = true ∧ runsOverlap (2 * 2 ^ 11 + 1) (2 * 2 ^ 22 + 2 ^ 11) = false ∧
    isTile State.reset.part 0 = true ∧ isTile State.reset.part 2048 = false ∧
    ((State.reset.setCore 1 { Core.reset with mx := [mx0] }).coreAt 1).mx ≠ [] ∧ State.reset.fabric.enable = false ∧
    (State.reset.setFabric { State.reset.fabric with enable := true }).fabric.enable = true ∧
    State.reset.part ≠ .ny7710 ∧ region (bits (0x20001 : Word).toNat 63 12 * 4096) ≤ 1 := by decide +kernel

theorem witness_caps :
    (0 : Nat) < State.reset.mgmt.powerCap ∧ State.reset.mgmt.powerCap < 2401 ∧
    (hottest (mput State.reset.mgmt.temps 0 759)).2 < 760 ∧ 760 ≤ (hottest (mput State.reset.mgmt.temps 0 760)).2 ∧
    (hottest (mput State.reset.mgmt.temps 0 735)).2 < 736 ∧ 736 ≤ (hottest (mput State.reset.mgmt.temps 0 736)).2 ∧
    (hottest (mput State.reset.mgmt.temps 0 879)).2 < 880 ∧ 880 ≤ (hottest (mput State.reset.mgmt.temps 0 880)).2 ∧
    State.reset.mgmt.thermalLow = false ∧
    (State.reset.setMgmt { State.reset.mgmt with thermalLow := true }).mgmt.thermalLow = true ∧ activeParts State.reset = [] ∧
    (State.reset.setHost { State.reset.host with ien := true }).host.ien = true ∧ State.reset.host.d2h.length < 1024 ∧
    (State.reset.setMgmt { State.reset.mgmt with counters := [(3, 7)] }).mgmt.counters = [(3, 7)] := by decide +kernel

/-! ### The fabric, homes -/

/-- Module (1, 1, 0, 0) of a fabric of 4 by 4 by 2 by 2 modules, its directions present. -/
def meshed : State :=
  State.reset.setFabric { State.reset.fabric with
    enable := true, sx := 3, sy := 3, sa := 1, sb := 1, self := 528,
    dirs := (List.range 8).map (fun d => (d, { Dir.reset with present := true, tx := [(0, 3)] })) }

/-- A module of that fabric. -/
def atMod (x y a b : Nat) : Nat := x * 512 + y * 16 + a * 4 + b

/-- A request of core 2, slot 3 of a module for another. -/
def fp (cls dst src key : Nat) : FabPkt :=
  { cls := cls, response := false, dst := dst, dstAddr := 0x1000, src := src * 65536 + 2, slot := 3, part := 0, detour := 0,
    dateline := false, marked := false, launch := 0, flits := 4, redKey := key, value := 6,
    srcs := [⟨src * 65536 + 2, 3, 1⟩], seq := 0, also := [], pay := .none }

/-- The state with packets in the output queue of X+ for requests of class c on the first channel, or held at the source. -/
def queuedAt (s : State) (c : Nat) (q held : List FabPkt) : State :=
  s.setFabric { s.fabric with outq := [(c * 6, q)], held := held }

theorem witness_directions :
    modX meshed.fabric.self = modX (atMod 1 1 1 0) ∧ modY meshed.fabric.self = modY (atMod 1 1 1 0) ∧
    modX (atMod 1 1 1 0) ≤ meshed.fabric.sx ∧ modY (atMod 1 1 1 0) ≤ meshed.fabric.sy ∧
    modA meshed.fabric.self < modA (atMod 1 1 1 0) ∧ modB meshed.fabric.self < modB (atMod 1 1 0 1) ∧
    modA meshed.fabric.self = modA (atMod 1 1 0 1) ∧
    (let f := (meshed.setFabric { meshed.fabric with self := atMod 1 1 1 1 }).fabric
     modA (atMod 1 1 0 1) < modA f.self ∧ modA f.self = modA (atMod 1 1 1 0) ∧ modB (atMod 1 1 1 0) < modB f.self ∧
     modB f.self = modB (atMod 1 1 1 1)) ∧
    modX meshed.fabric.self < modX (atMod 3 1 0 0) ∧ modX (atMod 3 1 0 0) ≤ meshed.fabric.sx ∧
    modX (atMod 0 1 0 0) < modX meshed.fabric.self ∧ modX meshed.fabric.self ≤ meshed.fabric.sx ∧
    nextDir meshed (atMod 3 1 0 0) = some 0 ∧ nextDir meshed (atMod 0 1 0 0) = some 1 := by decide +kernel

/-- A packet of another module passes this one toward X+. -/
def through : FabPkt := fp 5 (atMod 3 1 0 0) (atMod 0 1 0 0) (2 + 3 * 8)

theorem witness_router :
    (modOf through.src ≠ meshed.fabric.self ∧
    (let s := meshed.setFabric { meshed.fabric with enable := false }
     routeOf s through = none ∧ modOf { through with srcs := [] }.src ≠ s.fabric.self ∧
     routeOf s (fp 4 (atMod 3 1 0 0) 528 0) = none ∧ modOf (fp 4 (atMod 3 1 0 0) 528 0).src = s.fabric.self) ∧
    through.response = false ∧ routeOf meshed through = some (0, 0) ∧ queueOf meshed through 0 0 = 30 ∧
    queueAt meshed through 0 0 = [] ∧ flitsOf [] + through.flits ≤ 128 ∧ meshed.fabric.inq = []) ∧
    ((∀ x ∈ [fp 5 (atMod 3 1 0 0) 7 0], merges (routed (queuedAt meshed 5 [fp 5 (atMod 3 1 0 0) 7 0] []) through 0 0) x = false) ∧
    merges (routed (queuedAt meshed 5 [through] []) through 0 0) through = true ∧
    flitsOf (List.replicate 31 through) + through.flits ≤ 128 ∧ 128 < flitsOf (List.replicate 32 through) + through.flits ∧
    List.replicate 32 through ≠ [] ∧
    (let s := meshed.setFabric { meshed.fabric with inq := [through] }
     (∃ x ∈ s.fabric.inq, nextQueue s x = some (queueOf s through 0 0)) ∧
     (∀ x ∈ s.fabric.inq, nextQueue s x ≠ some (queueOf s (fp 4 (atMod 3 1 0 0) 7 0) 0 0)))) := by decide +kernel

/-- Packets that have come to this module: a response, and requests in and out of the order of their set. -/
theorem witness_endpoint :
    let p : FabPkt := { fp 4 528 7 0 with seq := 1 }
    nextDir meshed p.dst = none ∧ p.response = false ∧ p.seq ≠ 0 ∧ p.also = [] ∧ meshed.fabric.reorder = [] ∧
    (let n := mget meshed.fabric.seqIn (creditKey (modOf p.src) (orderedSet p)) 0
     p.seq = n + 1 ∧ (9 : Nat) ≠ n + 1 ∧ 32768 < (n + 65537 - 9) % 65536) ∧
    (let s := meshed.setFabric { meshed.fabric with seqIn := [(creditKey (modOf p.src) (orderedSet p), 5)] }
     let n := mget s.fabric.seqIn (creditKey (modOf p.src) (orderedSet p)) 0
     p.seq ≠ n + 1 ∧ (n + 65537 - p.seq) % 65536 ≤ 32768) ∧
    { p with response := true }.response = true := by decide +kernel

/-- A request of this module goes, waits behind another for its destination, and waits for room there. -/
theorem witness_source :
    let s := queuedAt meshed 4 [] [fp 4 (atMod 3 1 0 0) 528 0]
    let p := fp 4 (atMod 3 1 0 0) 528 1
    let full := meshed.setFabric { meshed.fabric with order := [(p.dst, 509)] }
    (modOf p.src = s.fabric.self ∧ p.response = false ∧ p.seq = 0 ∧ p.dst ≠ s.fabric.self ∧
     (∃ q ∈ s.fabric.held, q.dst = p.dst ∧ (p.cls ≤ 1 ↔ q.cls ≤ 1)) ∧ mayInject full p = false ∧ mayInject meshed p = true) ∧
    (routeOf meshed p = some (0, 0) ∧ routeOf full p ≠ none ∧ meshed.fabric.held = [] ∧ skipped meshed p.dst (orderedSet p) = [] ∧
     2 ≤ p.cls ∧ p.cls ≤ 6 ∧ (∀ q ∈ s.fabric.held, q.dst ≠ 7)) ∧
    (s.fabric.held = [] ++ fp 4 (atMod 3 1 0 0) 528 0 :: [] ∧ mayInject s (fp 4 (atMod 3 1 0 0) 528 0) = true ∧
     mayInject (s.setFabric { s.fabric with order := [(p.dst, 509)] }) (fp 4 (atMod 3 1 0 0) 528 0) = false) := by decide +kernel

/-- A weir toward module 5. -/
def weir (f lastMark full : Nat) : Weir := { f := f, tokens := 0, filled := 0, lastMark := lastMark, full := full }
def weirs (l : Map Weir) (now : Nat) : State :=
  (meshed.setFabric { meshed.fabric with weirs := l }).setSched { meshed.sched with stamp := now }

theorem witness_weirs :
    mget? (weirs [(5, weir 64 0 0)] 9).fabric.weirs 5 = some (weir 64 0 0) ∧ mget? meshed.fabric.weirs 5 = none ∧
    meshed.fabric.weirs.length < 512 ∧ (weirs [(5, weir 64 100 0)] 27299).now < 100 + 27200 ∧
    100 + 27200 ≤ (weirs [(5, weir 64 100 0)] 27300).now ∧ (weir 64 100 0).f ≠ 65536 ∧ (weir 65536 0 0).f = 65536 ∧
    (weirs [(5, weir 64 100 0)] 27300).fabric.weirs = [(5, weir 64 100 0)] ∧
    (5, weir 65536 0 0) ∈ (weirs [(5, weir 65536 0 0)] 1700000).fabric.weirs := by decide +kernel

/-- A migrant of slot 3 of core 2 for a core of module 9. -/
def gone : Migrant :=
  { src := 2, slot := 3, home := 9 * 65536 + 7, addr := none, reserve := false, colour := false, part := 0, sent := 0, h0 := 0,
    h1 := 0, regs := [], t0 := 0, t1 := 0 }

/-- Slot 3 of core 2 waits for the answer to a SPAWN in g6; it is away with a migrant. -/
def sender (st : SlotSt) : State :=
  let s := launched (mapped State.reset)
  s.setSlot ⟨2, 3⟩ { Slot.reset.pendG 6 with
    st := st, mack := if st == .away then some gone else none, posted := 1, spawns := 1, unackMsg := 1,
    task := { Task.reset with regs := 3 } }

/-- An undeliverable request of that slot. -/
def lost (cls : Nat) (pay : Payload) : FabPkt := { fp cls 9 0 0 with pay := pay }

theorem witness_noroute :
    let s := sender .running
    let id : SlotId := ⟨coreOf (lost 5 .none).src, (lost 5 .none).slot⟩
    (id = ⟨2, 3⟩ ∧ (lost 5 .none).also = [] ∧ s.forwarded id.core = id.core ∧ (lost 5 .none).seq = 0 ∧
     { lost 5 .none with seq := 7 }.seq ≠ 0 ∧ modOf (lost 5 .none).src = s.fabric.self ∧
     (lost 5 .none).srcs = [⟨gcid s id.core, id.slot, 1⟩] ∧ modOf (gcid s id.core) = s.fabric.self ∧
     coreOf (gcid s id.core) = id.core) ∧
    (let r : SpawnReq := { spawn0 false with src := 2, slot := 3, dst := 6 }
     (⟨coreOf r.src, r.slot⟩ : SlotId) = id ∧ r.dst.toNat ≠ 0 ∧ (s.slotAt id).task.launch = r.launch ∧
     ((s.slotAt id).cell r.dst.toNat).pend = true) ∧
    (((sender .away).slotAt id).st = .away ∧ ((sender .away).slotAt id).mack = some gone ∧
     ((sender .away).slotAt id).task.ord = false ∧ ((sender .away).slotAt id).doomed = false) ∧
    ((0 : Nat) < 2 ^ 20 ∧ (0 : Nat) ≠ remoteCache ∧
     (s.setMem { s.mem with fills := [(0, 9, 64)] }).mem.fills = [(0, (lost 2 .none).dst, 64)]) := by decide +kernel

/-- Slot 3 of core 2 has left with this migrant for core 7. -/
def mig : Migrant :=
  { src := 2, slot := 3, home := 7, addr := none, reserve := true, colour := false, part := 0, sent := 0,
    h0 := w64 (3 * 2 ^ 62 + 2 ^ 61 + 0x5008), h1 := 0, regs := [0, 11, 12], t0 := w64 (2 * 2 ^ 32), t1 := 0 }
def left_ : State :=
  let s := parted (launched (mapped State.reset))
  s.setSlot ⟨2, 3⟩ { Slot.reset with st := .away, task := { Task.reset with regs := 3 }, mack := some mig }

/-- The holding buffer holds n migrants for core 7 in plain entries and r in reserved ones. -/
def buffered (n r : Nat) : State :=
  let l : List HeldMigrant := List.replicate n ⟨mig, Task.reset, false⟩ ++ List.replicate r ⟨mig, Task.reset, true⟩
  left_.setWork { left_.work with migrants := l }

theorem witness_migrants :
    modOf mig.src = left_.fabric.self ∧ lmigHolds left_ (namedCore mig) = false ∧ migrantCore left_ mig = 7 ∧
    left_.forwarded (coreOf mig.src) = coreOf mig.src ∧ left_.work.refused = [] ∧ Task.reset.pre = false ∧
    (left_.slotAt ⟨coreOf mig.src, mig.slot⟩).task.ord = false ∧ migrantWaits left_ (left_.forwarded 7) = false ∧
    guestSlot left_ 7 = some 14 ∧ mig.regs[1]? = some 11 ∧ migrantWaits (buffered 27 0) 7 = true ∧
    (((buffered 27 0).work.migrants.filter (fun x => bufferOf (buffered 27 0) x.m == bufferOf (buffered 27 0) mig)).filter
      (fun x => !x.res)).length < 28 ∧
    (let mine := (buffered 28 3).work.migrants.filter (fun x => bufferOf (buffered 28 3) x.m == bufferOf (buffered 28 3) mig)
     28 ≤ (mine.filter (fun x => !x.res)).length ∧ mine.length - (mine.filter (fun x => !x.res)).length < 4) ∧
    (let mine := (buffered 28 4).work.migrants.filter (fun x => bufferOf (buffered 28 4) x.m == bufferOf (buffered 28 4) mig)
     28 ≤ (mine.filter (fun x => !x.res)).length ∧ 4 ≤ mine.length - (mine.filter (fun x => !x.res)).length) ∧
    left_.work.migrants.find? (fun x => coreOf x.m.home == 7) = none ∧
    (buffered 1 0).work.migrants.find? (fun x => coreOf x.m.home == 7) = some ⟨mig, Task.reset, false⟩ ∧
    guestSlot (buffered 1 0) 7 = some 14 ∧ Task.reset.ord = false ∧
    (left_.slotAt ⟨2, 3⟩).st = .away ∧ (left_.slotAt ⟨2, 3⟩).mack = some mig ∧ modOf mig.home = left_.fabric.self ∧
    (left_.slotAt ⟨2, 3⟩).doomed = false ∧ taskCancelled left_ (left_.slotAt ⟨2, 3⟩).task = false ∧
    modOf gone.home ≠ (sender .away).fabric.self ∧
    (let sl := (sender .away).slotAt ⟨2, 3⟩
     modOf sl.task.dcore = (sender .away).fabric.self ∧ (sender .away).dcoreNow sl.task = sl.task) ∧
    (left_.setFabric { left_.fabric with acks := [(⟨5 * 65536, 1⟩, 4)] }).fabric.acks.find? (fun x => x.1 == (⟨5 * 65536, 1⟩ : SlotId)) =
      some (⟨5 * 65536, 1⟩, 4) ∧
    left_.fabric.acks.find? (fun x => x.1 == (⟨5 * 65536, 1⟩ : SlotId)) = none := by decide +kernel

/-- An access of core 2, slot 3 to the word at 8 of region 0. -/
def homeAcc (how : Perform) : Access :=
  { srcs := [⟨2, 3, 1⟩], org := 35, va := 8, pa := 8, pc := 0x4004, job := 0, launch := 0, part := 0, user := true, ord := false,
    handler := false, release := false, dst := 6, how := how }

theorem witness_homes :
    region (homeAcc .syncRead).pa < 3 ∧ movingOf (sender .running) 8 = none ∧
    (Performs ((sender .running).arrive (.homeAccess (homeAcc .syncRead))) (homeAcc .syncRead)) ∧
    homeCheck ((sender .running).arrive (.homeAccess { homeAcc .syncRead with pa := 3 * 2 ^ 46 })) { homeAcc .syncRead with pa := 3 * 2 ^ 46 } ≠
      none ∧
    region (3 * 2 ^ 46) < 3 ∧ (sender .running).host.hostWaits = [] ∧ region (14 * 2 ^ 48) = 14 ∧ paOk (sender .running) (14 * 2 ^ 48) = true ∧
    (let s := (sender .running).setMem { (sender .running).mem with empties := [1] }
     homeCheck s (homeAcc .syncRead) = none ∧ lineBusy s 8 (opWrites .syncRead) = none ∧ (s.heat 8).isFull 8 = false) ∧
    (movingOf ((sender .running).setMem { (sender .running).mem with moving := [⟨0, 9, true, false, []⟩] }) 8).isSome = true ∧
    region (hostAcc .syncRead).pa = 8 ∧ 4 ≤ region (poolAcc .syncRead).pa ∧ region (poolAcc .syncRead).pa ≤ 7 ∧
    (sender .running).mem.waiters = [] := by
  and_intros <;> first
    | decide +kernel
    | exact ⟨by decide +kernel, by decide +kernel, by decide +kernel, ⟨by decide +kernel, by intro v h; cases h⟩, by decide +kernel, by intro h; cases h⟩

theorem witness_fills :
    (0x40 : Nat) / 2 ^ 46 = (sender .running).fabric.self ∧ lineBusy ((sender .running).arrive (.codeLineFill 0 0x40)) 0x1000 false = none ∧
    ((0 : Nat) < 3000 ∨ (5000 ≤ (0 : Nat) ∧ (0 : Nat) < 2 ^ 20)) ∧ (0, 9, 64) ∉ (sender .running).mem.fills ∧
    ((sender .running).setMem { (sender .running).mem with fills := [(0, 9, 64)] }).mem.fills.contains (0, 9, 64) = true ∧
    (sender .running).mem.peerWait = [] ∧ (sender .running).sched.inbox = [] ∧ (sender .running).mem.peerRecalls = [] ∧
    mget? (sender .running).mem.peers 5 = none ∧ lineBusy (sender .running) (5 * 64) true = none ∧
    askedFault (sender .running) (5 * 64) = none ∧ isPool (5 * 64) = false ∧ dirVictim (sender .running) 5 = none ∧
    (sender .running).work.ordered = [] ∧ (sender .running).mem.recallOut = [] ∧
    (let s := (sender .running).setMem { (sender .running).mem with clines := [{ line0 9 0 with loc := remoteCache }] }
     findLine s.mem remoteCache 9 0x100 = some { line0 9 0 with loc := remoteCache } ∧ 9 ≠ s.fabric.self ∧
     findLine s.mem remoteCache 9 64 = none) ∧
    (let s := (sender .running).setMem { (sender .running).mem with peers := [(5, [], 10)], peerRecalls := [5] }
     mget? s.mem.peers 5 = some ([], 9 + 1) ∧ s.mem.peerRecalls = [5] ∧
     (s.setMem { s.mem with recallOut := [(5, 9)] }).mem.recallOut = [(5, 9)] ∧ s.host.d2h.length < 1024) := by decide +kernel

/-! ### Gang launch, levee -/

/-- An arrival at the barrier block of 32 that waits outside its home's list since episode 7, and the block's GEN and FLT. -/
def arrival : Access := { homeAcc (.barrier (.arrive true) 2) with va := 32, pa := 32 }
def polled (gen : Nat) (flt : Bool) : State :=
  let s := (sender .running).setMem { (sender .running).mem with waiters := [⟨arrival, 7, false⟩] }
  s.putHome { arrival with pa := 48 } (natBytes 8 (gen * 2 ^ 32 + b2n flt))

theorem witness_retries :
    (polled 7 false).mem.waiters.find? (retries arrival) = some ⟨arrival, 7, false⟩ ∧ opBarrier arrival.how = true ∧
    (polled 7 false).mem.waiters.find? (retries (homeAcc .syncRead)) = none ∧ opBarrier (homeAcc .syncRead).how = false ∧
    (let s := (polled 7 false).setMem { (polled 7 false).mem with waiters := [⟨homeAcc .syncRead, 0, true⟩] }
     s.mem.waiters.find? (retries (homeAcc .syncRead)) = some ⟨homeAcc .syncRead, 0, true⟩) := by decide +kernel

/-- R358: while neither GEN nor FLT has changed the arrival waits on; after the episode, or once FLT is set, it waits no more. -/
theorem test_barrier_poll :
    ((polled 7 false).pollBarrier ⟨arrival, 7, false⟩).mem.waiters.length = 1 ∧
    ((polled 8 false).pollBarrier ⟨arrival, 7, false⟩).mem.waiters = [] ∧
    ((polled 7 true).pollBarrier ⟨arrival, 7, false⟩).mem.waiters = [] := by decide +kernel

/-- Launch 3 over modules 0 and 5 at its initiator; slot 0 waits for LAUNCH in g9; the queues of partition 0 are open. -/
def gang0 (phase : Nat) : GangInit :=
  { launch := 3, part := 0, mods := [(0, 1, 0, 0), (5, 1, 0, 0)], ackd := [0], started := [0], phase := phase, ends := 1000,
    id := ⟨0, 0⟩, d := 9, root := zeroPacket, rootCore := 0 }

def ganged (g : GangInit) : State :=
  let s := mine descs (fun sl => sl.pendG 9)
  let s := s.setWork { s.work with launches := [(3, { launch0 with multi := true })] }
  s.setFabric { s.fabric with gangs := [g] }

def gmsg (src : Nat) : GangMsg := { src := src, init := 0, part := 0, launch := 3, ntask := 5, reason := 1, desc := 0x8000 }

/-- A reservation for launch 3 of module 0. -/
def prepared (st : Nat) : State :=
  descs.setFabric { descs.fabric with preps := [⟨0, 3, 0, 5, 0x8000, 0, st, 0⟩] }

theorem witness_gprep :
    partClusters descs 0 ≠ [] ∧ partClusters descs 1 = [] ∧ descs.keyLive (descs.keyOf (jobOfPart descs 0)) = true ∧
    (let s := descs.setWork { descs.work with jobs := [(0, { probeJob with running := true, key := 7 })] }
     partClusters s 0 ≠ [] ∧ s.keyLive (s.keyOf (jobOfPart s 0)) = false) ∧
    gprepReason descs { gmsg 0 with launch := 4 } = 0 ∧ gprepReason descs { gmsg 0 with part := 1 } ≠ 0 := by decide +kernel

theorem witness_gang :
    descs.gangOf 3 = none ∧ (ganged (gang0 0)).gangOf 3 = some (gang0 0) ∧ (ganged (gang0 0)).now < 1000 ∧
    (5 : Nat) ∉ (gang0 0).ackd ∧ (∃ x ∈ ({ gang0 0 with ackd := [] } : GangInit).mods, x.1 ∉ ([] : List Nat) ∧ x.1 ≠ (gmsg 5).src) ∧
    (∀ x ∈ (gang0 0).mods, x.1 ∈ (gang0 0).ackd ∨ x.1 = (gmsg 5).src) ∧
    (ganged (gang0 1)).gangOf (gmsg 5).launch = some (gang0 1) ∧ (5 : Nat) ∉ (gang0 1).started ∧
    (∀ x ∈ (gang0 1).mods, x.1 ∈ (gang0 1).started ∨ x.1 = (gmsg 5).src) ∧ (gang0 1).d ≠ 0 ∧
    (((ganged (gang0 1)).slotAt (gang0 1).id).cell (gang0 1).d).pend = true ∧
    (ganged (gang0 1)).launchAt (gangIndex (gang0 1).launch) = some { launch0 with multi := true } ∧ launch0.ord = false ∧
    (ganged { gang0 1 with ends := 0 }).gangOf 3 = some { gang0 1 with ends := 0 } ∧
    ({ gang0 1 with ends := 0 } : GangInit).ends ≤ (ganged (gang0 1)).now ∧ ¬(gang0 1).ends ≤ (ganged (gang0 1)).now ∧
    (ganged (gang0 1)).forwarded (gang0 1).id.core = (gang0 1).id.core := by decide +kernel

theorem witness_prepared :
    descs.prepOf 0 3 = none ∧ (prepared 1).prepOf 0 3 = some ⟨0, 3, 0, 5, 0x8000, 0, 1, 0⟩ ∧ (prepared 1).now < 0 + 340000 ∧
    (prepared 2).prepOf 0 3 = some ⟨0, 3, 0, 5, 0x8000, 0, 2, 0⟩ ∧ (prepared 1).host.d2h.length < 1024 ∧
    (match readGang ⟨unitLaunch, 0, true⟩ 0 0x8000 (prepared 2) with
     | .ok r s1 => (gangPackets r.2.1 r.2.2 (r.2.2.length / 4)).all (fun x => !queueFull s1 (clusterOf x.2))
     | _ => false) = true ∧
    (match readGang ⟨unitLaunch, 0, true⟩ 0 0x8000 ((prepared 2).setMem { (prepared 2).mem with peers := [(0x200, [], 10)] }) with
     | .wait _ => true
     | _ => false) = true ∧
    descs.launchAt (gangIndex (gmsg 0).launch) = none ∧
    ((ganged (gang0 1)).launchAt (gangIndex (gmsg 0).launch)).map (fun l => (l.init, l.multi, l.st)) = some ((gmsg 0).init, true, 2) :=
  by decide +kernel

/-- An ordered launch 0 in partition 0, whose sweep 1 is out, and the reports that have come. -/
def swept (o : Ordered) (l : Launch) : State :=
  let s := parted plain
  s.setWork { s.work with ordered := [(0, o)], launches := [(0, l)] }

def sweeping (got : List SweepMsg) (idles : Nat) : Ordered := { ordered0 with sweeping := true, num := 1, got := got, idles := idles }

/-- A report of a node, with its counts. -/
def rep (src sent recv : Nat) (idle : Bool) : SweepMsg := { sweepMsg 0 1 src with sent := sent, recv := recv, idle := idle, key := 9 }

theorem witness_sweeps :
    (swept ordered0 launch0).orderedOf 0 = some ordered0 ∧ ordered0.sweeping = false ∧
    (swept (sweeping [] 0) launch0).orderedOf 0 = some (sweeping [] 0) ∧ (sweepMsg 0 1 hubNode).src = hubNode ∧
    (sweepMsg 0 1 dockNode).src = dockNode ∧ (sweepMsg 0 1 1).src ≠ hubNode ∧ (sweepMsg 0 1 1).src ≠ dockNode ∧
    (rep 0 1 1 true).num = (sweeping [] 0).num ∧ (∀ g ∈ (sweeping [] 0).got, g.src ≠ (rep 0 1 1 true).src) ∧
    (∃ n ∈ partClusters (swept ordered0 launch0) 0 ++ [dockNode], ∀ g ∈ [] ++ [rep 0 1 1 true], g.src ≠ n) ∧
    (∀ n ∈ partClusters (swept ordered0 launch0) 0 ++ [dockNode],
      ∃ g ∈ [rep 1 0 0 true, rep dockNode 0 0 true] ++ [rep 0 1 1 true], g.src = n) ∧
    (swept ordered0 { launch0 with init := 9 }).launchAt 0 = some { launch0 with init := 9 } ∧
    launch0.init = (swept ordered0 launch0).fabric.self ∧ (∀ x ∈ launch0.modules, x = (swept ordered0 launch0).fabric.self) ∧
    (let r := combine 0 1 ([rep 1 0 0 true, rep dockNode 0 0 true] ++ [rep 0 1 1 true])
     r.sent = r.recv ∧ r.idle = true) ∧
    (let r := combine 0 1 ([rep 1 0 0 true, rep dockNode 0 0 true] ++ [rep 0 2 1 false])
     r.sent ≠ r.recv ∧ r.idle = false) ∧
    partStopped (swept ordered0 launch0) 0 = false ∧
    (∀ n, n < 16 → heldBelow ((swept ordered0 launch0).coreAt (clusterCore 1 n)) 9 = []) ∧
    (let s := swept ordered0 launch0
     let s := s.setWork { s.work with stops := [⟨0, 0, none, false⟩] }
     let s := s.setCore 16 { s.coreAt 16 with spec := [(4, { spec0 with st := .held })] }
     ∃ e ∈ heldBelow (s.coreAt (clusterCore 1 0)) (2 ^ 128),
       e.2.st ≠ .committing ∧ partStopped s (s.partOf (packetLaunch e.2.pkt)) = true) := by decide +kernel

/-- The completion sweep of launch 0. -/
def cs0 (sweeping : Bool) (got : List SweepMsg) (idles : Nat) : CSweep := ⟨0, 1, false, true, sweeping, idles, got, 0, false⟩

def cswept (c : CSweep) : State :=
  let s := parted plain
  s.setWork { s.work with csweeps := [(0, c)], launches := [(0, { launch0 with multi := true, modules := [0, 5] })] }

/-- An answer of a module to sweep 1 of launch 0. -/
def crep (mod sent recv : Nat) : SweepMsg := { rep (moduleNode mod) sent recv true with key := 0 }

theorem witness_csweeps :
    (cswept (cs0 true [] 0)).csweepOf 0 = some (cs0 true [] 0) ∧ ((cswept (cs0 true [] 0)).launchAt 0).isSome = true ∧
    sweptLaunch (cswept (cs0 true [] 0)) 0 0 = some 0 ∧ sweptLaunch (cswept (cs0 true [] 0)) 5 0 = none ∧
    (crep 5 1 1).num = (cs0 true [] 0).num ∧
    (∃ mo ∈ [0, 5], ∀ g ∈ [] ++ [crep 5 1 1], g.src ≠ moduleNode mo) ∧
    (∀ mo ∈ [0, 5], ∃ g ∈ [crep 0 1 1] ++ [crep 5 1 1], g.src = moduleNode mo) ∧
    (let r := combine 0 1 ([crep 0 1 1] ++ [crep 5 1 1])
     r.sent = r.recv ∧ r.idle = true) := by decide +kernel

/-- A speculation entry 4 of core 0 for the packet of a task of launch 0; a held one. -/
def specs (e : SpecEnt) : State :=
  let s := swept ordered0 launch0
  s.setCore 0 { s.coreAt 0 with spec := [(4, e)] }

theorem witness_rollback :
    mget? (specs spec0).cores 0 ≠ none ∧ mget? ((specs spec0).coreAt 0).spec 4 ≠ none ∧
    mget? ((specs spec0).coreAt 0).spec 5 = none ∧ closure ((specs spec0).coreAt 0) 48 [4] = [4] ∧
    (∀ m ∈ ((specs spec0).coreAt 0).mx, m.ord = false) ∧
    (∀ x ∈ ((specs spec0).cluster (clusterOf 0)).copies, x.2.core = 0 → x.2.ord = false) ∧
    (specs spec0).launchAt (packetLaunch spec0.pkt) = some launch0 ∧ spec0.annihilated = false ∧ launch0.cancelled = false ∧
    (List.replicate 64 (7 : Byte)).length = 64 ∧ (1023 : Nat) < 1024 ∧ Memory.wf (specs spec0).mem.cells = true := by decide +kernel

theorem witness_anti :
    bit (pkt0 0).w2.toNat 58 = false ∧
    (let s := queued [task0 (pkt0 0) none]
     ((s.cluster 0).queue ++ (s.cluster 0).ring).find? (isPositive (pkt0 0)) = some (task0 (pkt0 0) none)) ∧
    ((((specs spec0).cluster 0).queue ++ ((specs spec0).cluster 0).ring).find? (isPositive zeroPacket)) = none ∧
    runningPositive (specs spec0) 0 zeroPacket = some (0, 4) ∧ runningPositive (queued []) 0 (pkt0 0) = none ∧
    queueFull (queued []) 0 = false ∧
    (let s := queued (List.replicate 1024 { task0 (pkt0 0) none with st := .anti })
     runningPositive s 0 (pkt0 0) = none ∧ queueFull s 0 = true ∧
     ((s.cluster 0).queue ++ (s.cluster 0).ring).find? (isPositive (pkt0 0)) = none) := by decide +kernel

/-! ### The sluice -/

/-- n lanes LIT, from lane 0 on. -/
def lit (n : Nat) : Map Nat := (List.range n).map (fun l => (l, 3))

/-- A direction at n lanes. -/
def dirAt (n : Nat) : Dir := { Dir.reset with present := true, modid := 9, tx := lit n, rx := lit n, gen := 7 }

/-- A supervisor asks about direction 2, with v in g1. -/
def lessee (v : Nat) (x : Dir) : State :=
  let s := super (at_ 0 [w64 v])
  s.setFabric { s.fabric with dirs := [(2, x)] }

/-- The word of LEASE: direction 2, a target and a term. -/
def lword (t term : Nat) : Nat := term * 2 ^ 48 + t * 2 ^ 16 + 2

def ask : OpsDA := ⟨9, 1, false⟩

theorem leaseReady_of {s : State} (h : (∀ r ∈ (daDemand ask).names, r < s.me.task.nregs) ∧
    (∀ r ∈ (daDemand ask).reads, (s.view s.me r).val?.isSome) ∧ (∀ r ∈ (daDemand ask).dests, (s.me.cell r).pend = false))
    (h2 : s.part = .ny7740 ∧ s.me.sup = true ∧ modOf s.me.task.dcore = s.fabric.self ∧ s.forwarded s.here = s.here) :
    LeaseReady s ask :=
  ⟨ready_of h, h2.1, .inl h2.2.1, own_of h2.2.2.1, h2.2.2.2⟩

/-- A request of direction 2 that has been sent at 0. -/
def pend0 (asker : Option (SlotId × Nat)) : LanePend :=
  { msg := { sluiceMsg State.reset 2 4 0 0 with seq := 5 }, sent := true, at_ := 0, asker := asker, part := 0, job := 0,
    target := 36, term := 1, starve := false }

theorem witness_lease :
    LeaseReady (lessee (lword 32 1) (dirAt 32)) ask ∧ ({ lessee 0 (dirAt 32) with part := .ny7710 } : State).part ≠ .ny7740 ∧
    (let s := lessee (lword 32 1) { dirAt 32 with pend := some (pend0 none) }
     (s.dir (leaseDir s ask)).pend.isSome = true) ∧
    (let s := lessee (lword 4 1) (dirAt 4)
     (s.dir (leaseDir s ask)).pend = none ∧ (s.dir (leaseDir s ask)).waiting = [] ∧ s.fabric.frozen = false ∧
     (s.dir (leaseDir s ask)).present = true ∧ (s.dir (leaseDir s ask)).lease = none ∧
     leaseTarget s ask ≤ (s.dir (leaseDir s ask)).count) ∧
    ¬leaseBad (lessee (lword 4 1) (dirAt 4)) ask ∧ ¬leaseBad (lessee (lword 64 65535) (dirAt 4)) ask ∧
    leaseBad (lessee (lword 3 1) (dirAt 4)) ask ∧ leaseBad (lessee (lword 65 1) (dirAt 4)) ask ∧
    leaseBad (lessee (lword 4 0) (dirAt 4)) ask ∧
    (let s := lessee (lword 36 1) (dirAt 32)
     (s.dir 2).count < leaseTarget s ask ∧ txUsed s + (leaseTarget s ask - (s.dir 2).count) ≤ 256 ∧
     (darkLanes (s.dir 2).tx (leaseTarget s ask - (s.dir 2).count)).length = leaseTarget s ask - (s.dir 2).count ∧
     (s.dir 2).lit = true ∧ (s.dir 2).refuse < 4 ∧ (s.dir 0).pend = none) ∧
    (let s := lessee (lword 36 1) { dirAt 32 with tx := lit 32 ++ (List.range 32).map (fun l => (32 + l, 5)), refuse := 4 }
     (s.dir 2).count < leaseTarget s ask ∧
     (darkLanes (s.dir 2).tx (leaseTarget s ask - (s.dir 2).count)).length < leaseTarget s ask - (s.dir 2).count ∧
     4 ≤ (s.dir 2).refuse ∧ s.fabric.starve = true) ∧
    (let s := lessee (lword 36 1) { dirAt 32 with refuse := 4 }
     let s := s.setFabric { s.fabric with dirs := s.fabric.dirs ++ [(3, dirAt 64), (4, dirAt 64), (5, dirAt 64), (6, dirAt 32)] }
     256 < txUsed s + (leaseTarget s ask - (s.dir 2).count) ∧ 4 ≤ (s.dir 2).refuse ∧ s.fabric.starve = true ∧
     (darkLanes (s.dir 2).tx 4).length = 4 ∧ txUsed s + 4 - drainingTx s - 256 ≤ spareTx s 2) ∧
    (let s := lessee (lword 64 1) { dirAt 32 with refuse := 4 }
     let s := s.setFabric { s.fabric with dirs := (List.range 8).map (fun d => (d, if d = 2 then s.dir 2 else dirAt 32)) }
     256 < txUsed s + (leaseTarget s ask - (s.dir 2).count) ∧ spareTx s 2 < txUsed s + 32 - drainingTx s - 256 ∧
     (s.dir 2).present = true) ∧
    (let s := lessee (lword 36 1) { dirAt 32 with lease := some ⟨5, 0, 0⟩ }
     ∃ l, (s.dir 2).lease = some l ∧ l.part ≠ s.partOf s.me.task.launch) := by
  refine ⟨leaseReady_of (by decide +kernel) (by decide +kernel), by decide +kernel, by decide +kernel, by decide +kernel, ?_, ?_, ?_, ?_, ?_,
    by decide +kernel, by decide +kernel, by decide +kernel, by decide +kernel, ⟨⟨5, 0, 0⟩, by decide +kernel⟩⟩ <;>
    (unfold leaseBad; decide +kernel)

/-- The holder gives the lease of direction 2 back: generation 7. -/
def held2 (n : Nat) : Dir := { dirAt n with lease := some ⟨0, 0, 27200⟩, lstate := 1 }

theorem witness_leaserel :
    let s := lessee (7 * 2 ^ 16 + 2) (held2 36)
    LeaseReady s ask ∧ (∃ l, (s.dir 2).lease = some l ∧ l.part = s.partOf s.me.task.launch) ∧
    (s.vals (daDemand ask)).a.toNat % 2 ^ 32 = (s.dir 2).handle 2 ∧ 32 < staying (s.dir 2).tx ∧
    (s.dir 2).handle 2 ≠ 6 * 2 ^ 16 + 2 :=
  ⟨leaseReady_of (by decide +kernel) (by decide +kernel), ⟨⟨0, 0, 27200⟩, by decide +kernel⟩, by decide +kernel,
    by decide +kernel, by decide +kernel⟩

/-- A message of the neighbour on direction 2 (its own 3) for four lanes, 32 to 35. -/
def nmsg (seq : BitVec 8) (reason : Nat) : SluiceMsg :=
  { seq := seq, dir := 3, count := 4, modid := 9, mask := 0xF00000000, term := 0, gen := 0, reason := reason }

/-- The module with direction 2 and, where all, the receive lanes of the others taken. -/
def sluiced (x : Dir) (all : Nat) : State :=
  let s := lessee 0 x
  s.setFabric { s.fabric with dirs := [(2, x), (3, dirAt all), (4, dirAt all), (5, dirAt all), (6, dirAt all)] }

/-- Receive slots counted or promised. -/
def rxTaken (s : State) : Nat := rxUsed s + rxAsked s

theorem witness_sluice_messages :
    arrivedOn (nmsg 5 0) = 2 ∧ (nmsg 5 0).reason ≠ 1 ∧ (nmsg 5 0).reason ≠ 2 ∧
    (let s := sluiced (dirAt 32) 32
     (nmsg 5 0).count + rxTaken s ≤ 256 ∧ s.fabric.grantq = [] ∧ (∀ l ∈ maskLanes (nmsg 5 0).mask, lane (s.dir 2).rx l = 0) ∧
     (s.dir 2).lit = true ∧ (s.dir 2).rxSeq ≠ some (nmsg 5 1).seq) ∧
    (let s := sluiced (dirAt 36) 32
     (nmsg 5 0).count + rxTaken s ≤ 256 ∧ (∃ l ∈ maskLanes (nmsg 5 0).mask, lane (s.dir 2).rx l ≠ 0) ∧
     (∀ l ∈ maskLanes (nmsg 5 0).mask, lane (s.dir 2).rx l ≠ 5)) ∧
    (∃ l ∈ maskLanes (nmsg 5 0).mask, lane ({ dirAt 32 with rx := lit 32 ++ [(32, 5)] } : Dir).rx l = 5) ∧
    (let s := sluiced (dirAt 32) 56
     256 < (nmsg 5 0).count + rxTaken s ∧ rxTaken s ≤ 256 ∧ (nmsg 5 3).reason = 3 ∧ s.fabric.starve = true ∧
     (nmsg 5 3).count + rxTaken s - 256 - rxFreeing s ≤ spareRx s 2) ∧
    (let s := sluiced (dirAt 64) 48
     256 < (nmsg 5 3).count + rxTaken s ∧ rxTaken s ≤ 256 ∧
     spareRx (s.setFabric { s.fabric with dirs := (List.range 8).map (fun d => (d, dirAt 32)) }) 2 < 4) ∧
    (let s := sluiced (dirAt 32) 32
     ∃ g ∈ ({ s.fabric with grantq := [⟨2, nmsg 5 1, false⟩] } : Fabric).grantq, g.dir = 2 ∧ g.msg.seq = (nmsg 5 1).seq) ∧
    ((sluiced (dirAt 32) 32).dir 2).pend = none ∧ (pend0 none).asker = none ∧ (pend0 none).msg.seq ≠ (nmsg 6 0).seq ∧
    (pend0 (some (⟨0, 0⟩, 9))).sent = true ∧ (pend0 (some (⟨0, 0⟩, 9))).msg.seq = (nmsg 5 0).seq ∧
    (let s := (sluiced { dirAt 32 with pend := some (pend0 (some (⟨0, 0⟩, 9))) } 32).setSched
       { State.reset.sched with stamp := 34000 }
     (s.dir 2).pend = some (pend0 (some (⟨0, 0⟩, 9))) ∧ (s.dir 2).lstate ≠ 2 ∧ (s.dir 2).lstate ≠ 3 ∧ (s.dir 2).waiting = [] ∧
     34000 ≤ s.now - (pend0 none).at_ ∧ s.forwarded 0 = 0) ∧
    (dirAt 32).present = true := by decide +kernel

theorem witness_lanes :
    lane (sluiced (dirAt 32) 32 |>.dir 2).rx 31 = 3 ∧ lane (sluiced (dirAt 32) 32 |>.dir 2).rx 32 = 0 ∧
    lane (sluiced (dirAt 32) 32 |>.dir 2).tx 31 = 3 ∧
    (let x : Dir := { dirAt 32 with tx := lit 31 ++ [(31, 2), (32, 4), (33, 5)], rx := lit 31 ++ [(31, 4)] }
     lane x.tx 31 = 2 ∧ lane x.tx 32 = 4 ∧ lane x.tx 33 = 5 ∧ lane x.rx 31 = 4 ∧ x.lstate ≠ 2 ∧ x.lstate ≠ 3 ∧
     x.spare = some 34 ∧ (∀ k ∈ x.link, k.lane ≠ 32) ∧ (sluiced x 32).fabric.grantq = [] ∧ lane x.rx 32 = 0 ∧
     ∃ k ∈ ({ x with link := [⟨0, 32, fp 2 9 0 0⟩] } : Dir).link, k.lane = 32) ∧
    (let x : Dir := { dirAt 32 with rx := lit 28 ++ [(28, 1), (29, 2), (30, 4), (31, 5)] }
     lane x.rx 28 = 1 ∧ lane x.rx 29 = 2 ∧ lane x.rx 30 = 4 ∧ lane x.rx 31 = 5) ∧ (nmsg 5 4).reason = 4 ∧
    (sluiced (held2 36) 32 |>.dir 2).lease = some ⟨0, 0, 27200⟩ ∧ (sluiced (held2 36) 32).now < 27200 ∧
    32 < staying (sluiced (held2 36) 32 |>.dir 2).tx ∧ (sluiced (held2 36) 32).host.d2h.length < 1024 ∧
    (let s := (sluiced (dirAt 32) 32).setSched { State.reset.sched with stamp := 17000 }
     (s.dir 2).present = true ∧ 17000 ≤ s.now - (s.dir 2).lastAlive ∧ (s.dir 2).waiting = [] ∧
     ((sluiced (dirAt 32) 32).now - (s.dir 2).lastAlive < 17000) ∧ (s.dir 2).dark = 0 ∧
     17000 ≤ s.now + 1 - 1 ∧ s.now + 1 - 2 < 17000) ∧
    27200 ≤ (State.reset.setSched { State.reset.sched with stamp := 27200 }).now ∧
    State.reset.part = .ny7740 ∧ (State.reset.dir 7).present = false ∧ (∀ e, e < 8 → (State.reset.dir e).present = false) ∧
    4 ≤ min 32 (min (256 - txUsed State.reset) (256 - rxUsed State.reset)) ∧
    min 32 (min (256 - txUsed (sluiced (dirAt 32) 56)) (256 - rxUsed (sluiced (dirAt 32) 56))) < 4 ∧
    ((sluiced (dirAt 32) 56).dir 7).present = false ∧ (∀ y ∈ State.reset.sched.timers, y.ev ≠ .laliveSend) ∧
    ({ State.reset with part := .ny7710 } : State).part ≠ .ny7740 := by decide +kernel

/-! ### Matrix and copy streams -/

/-- The stream of core 0 with its table, rows full but row 63, on a cycle. -/
def running (m : MxStream) (now : Nat) : State :=
  let s := withMx m
  let tab : List Byte := List.replicate 2048 0
  let c := { s.coreAt 0 with tables := [(0, ⟨0, 0x1000, 1, tab⟩)],
                             rows := (List.range 64).map (fun i => (i, ⟨i != 63, false, false⟩)) }
  (s.setCore 0 c).setSched { s.sched with stamp := now }

def mmaOps (s : Bool) (x : BitVec 4) (acore : BitVec 4) : MmaOps := ⟨0, 0, acore, 0, 0, 1, s, x⟩
def mmstOps (nr : BitVec 4) (row : BitVec 10) : MmstOps := ⟨1, 0, nr, 0, row⟩

/-- The command's dimensions at the running stream. -/
def formOf (m : MxStream) (now : Nat) (i : Instr) : Option (BitVec 26 × MxCmd) := mxForm (running m now) m i

theorem mxAt_of {s : State} {m : MxStream} {a : Nat} (h : (s.coreAt s.sched.cur.core).mx.head? = some m ∧
    (s.arrayAt s.sched.cur.core).owns (parity s.sched.cur.core) = true ∧
    (s.arrayAt s.sched.cur.core).cycle (parity s.sched.cur.core) s.now = some a) : MxAt s m a := ⟨h.1, h.2.1, h.2.2⟩

theorem mxBegins_of {s : State} {m : MxStream} {a : Nat} {st : BitVec 26} {d : MxCmd} (h : m.off = none ∧ d.bad = false ∧
    m.free ≤ m.base + st.toNat ∧ m.base + st.toNat ≤ a ∧ (d.other = false ∨ m.ord = false) ∧ beginMiss s s.sched.cur.core d = none) :
    MxBegins s m a st d := ⟨h.1, h.2.1, h.2.2.1, h.2.2.2.1, h.2.2.2.2.1, h.2.2.2.2.2⟩

theorem port_of {s : State} {k c : Nat} {d : MxCmd}
    (h : (d.rows.find? (fun r => r.1 == c)).elim false (fun r => portLost s k r.2) = false) :
    ∀ r, d.rows.find? (fun r => r.1 == c) = some r → portLost s k r.2 = false := by
  intro r e
  rw [e] at h
  exact h

/-- What the clauses on a command that does not begin ask for. -/
theorem witness_matrix_misses :
    MxAt (running mx0 0) mx0 0 ∧ (formOf mx0 0 (.mma 0 (mmaOps false 1 0))).map (fun f => f.2.bad) = some true ∧
    (formOf mx0 0 (.mmst 0 (mmstOps 0 767))).map (fun f => f.2.bad) = some true ∧
    (formOf mx0 0 (.mmst 0 (mmstOps 0 766))).map (fun f => f.2.bad) = some false ∧
    ({ mx0 with free := 1 } : MxStream).base + (0 : BitVec 26).toNat < ({ mx0 with free := 1 } : MxStream).free ∧
    mx0.free ≤ mx0.base + (5 : BitVec 26).toNat ∧ 0 < mx0.base + (5 : BitVec 26).toNat ∧
    (formOf { mx0 with ord := true } 0 (.mma 0 (mmaOps false 0 1))).map (fun f => (f.2.bad, f.2.other)) = some (false, true) ∧
    (formOf mx0 0 (.mmz 0 2)).map (fun f => (f.2.other, beginMiss (running mx0 0) 0 f.2)) = some (false, some 5) ∧
    (formOf mx0 0 (.mma 0 ⟨0, 0, 0, 7, 0, 1, false, 0⟩)).map (fun f => beginMiss (running mx0 0) 0 f.2) = some (some 1) ∧
    (formOf { mx0 with eta := 5 } 0 (.mma 0 (mmaOps false 0 0))).map (fun f => beginMiss (running mx0 0) 0 f.2) = some (some 6) := by
  and_intros <;> first | decide +kernel | exact mxAt_of (by decide +kernel)

/-- Core 2 asks for row 0 of core 0 while core 0 asks for row 3 of the same bank. -/
def mmld (row : BitVec 10) : Instr := .mmld 0 ⟨0, 0, 0, 0, row⟩
def streamOf (i : Instr) : MxStream :=
  { mx0 with cmds := [(BitVec.ofNat 32 ((encodeNats i).getD 0 0), BitVec.ofNat 32 ((encodeNats i).getD 1 0))] }

def losing : State :=
  let s := running (streamOf (mmld 3)) 0
  (s.setCore 2 { s.coreAt 2 with mx := [streamOf (mmld 0)] }).setSched { s.sched with cur := ⟨2, 0⟩ }

theorem witness_port_lost :
    MxAt losing (streamOf (mmld 0)) 0 ∧
    (let d := mmstCmd 2 true ⟨0, 0, 0, 0, 0⟩
     mxForm losing (streamOf (mmld 0)) (mmld 0) = some (0, d) ∧ MxBegins losing (streamOf (mmld 0)) 0 0 d ∧
     d.rows.find? (fun r => r.1 == 0) = some (0, 0, 0) ∧ portLost losing 2 (0, 0) = true) :=
  ⟨mxAt_of (by decide +kernel), by decide +kernel,
    ⟨by decide +kernel, by decide +kernel, by decide +kernel, by decide +kernel, by decide +kernel, by decide +kernel⟩,
    by decide +kernel, by decide +kernel⟩

theorem witness_matrix_turns :
    (let d := plainCmd none
     MxTurn (running mx0 0) mx0 0 0 d 0 ∧ mxForm (running mx0 0) mx0 (.mmnop 0) = some (0, d) ∧ 0 + 1 = d.dur ∧ mx0.stop = false) ∧
    (let d := mmaCmd (running mx0 0) 0 mx0 (mmaOps true 0 0)
     MxTurn (running mx0 0) mx0 0 0 d 0 ∧ 0 + 1 < d.dur) ∧
    (let m := { mx0 with off := some 31 }
     let d := mmaCmd (running m 31) 0 m (mmaOps true 0 0)
     MxAt (running m 31) m 31 ∧ m.off = some 31 ∧ 31 + 1 = d.dur ∧ d.rows.find? (fun r => r.1 == 31) = none) ∧
    (let m := { mx0 with off := some 1, stop := true }
     let d := mmstCmd 0 false (mmstOps 0 0)
     MxTurn (running m 1) m 1 0 d 1 ∧ 1 + 1 = d.dur ∧ m.stop = true) ∧
    (let d := mmstCmd 0 false ⟨0, 15, 0, 15, 766⟩
     MxTurn (running mx0 0) mx0 0 0 d 0 ∧ Memory.wf (running mx0 0).mem.cells = true ∧ 0 < 2 * ((0 : BitVec 4).toNat + 1) ∧
     (766 : BitVec 10).toNat + 0 < 768 ∧ clusterCore (clusterOf 0) (15 : BitVec 4).toNat < 65536) ∧
    (let sl := (running mx0 0).slotAt ⟨0, mx0.slot⟩
     sl.toks0.length + sl.streams0 < 4 ∧ 4 ≤ [(1, 0), (2, 0), (3, 0)].length + sl.streams0) ∧
    (mx0.pause = none ∧ (767 : BitVec 10).toNat < 768 ∧ 768 ≤ (768 : BitVec 10).toNat ∧ mx0.ord = false) ∧
    (let m := { mx0 with pause := some 3 }
     ((running m 5).coreAt 0).mx.head? = some m ∧ m.pause = some 3 ∧
     ((running m 5).arrayAt 0).cycle (parity 0) (running m 5).now = some 5) ∧
    (let m := { mx0 with off := some 1 }
     (MxTurn (running m 1) m 1 0 (mmstCmd 0 true (mmstOps 0 0)) 1 ∧ MxTurn (running m 1) m 1 0 (mmstCmd 0 false (mmstOps 0 0)) 1) ∧
     1 + 1 = 2 * ((mmstOps 0 0).nr.toNat + 1) ∧ m.stop = false) ∧
    MxTurn (running mx0 0) mx0 0 0 (plainCmd (some (0 : BitVec 2).toNat)) 0 ∧
    (((running mx0 0).setArray 0 { (running mx0 0).arrayAt 0 with mode := 2 }).arrayAt 0).owns (parity 0) = false ∧
    ((running mx0 32).arrayAt 0).cycle (parity 0) 32 = none ∧ (plain.coreAt 0).mx = [] := by
  refine ⟨⟨⟨mxAt_of (by decide +kernel), .inr ⟨rfl, mxBegins_of (by decide +kernel)⟩, port_of (by decide +kernel)⟩,
      by decide +kernel⟩,
    ⟨⟨mxAt_of (by decide +kernel), .inr ⟨rfl, mxBegins_of (by decide +kernel)⟩, port_of (by decide +kernel)⟩,
      by decide +kernel⟩,
    ⟨mxAt_of (by decide +kernel), by decide +kernel⟩,
    ⟨⟨mxAt_of (by decide +kernel), .inl (by decide +kernel), port_of (by decide +kernel)⟩, by decide +kernel⟩,
    ⟨⟨mxAt_of (by decide +kernel), .inr ⟨rfl, mxBegins_of (by decide +kernel)⟩, port_of (by decide +kernel)⟩,
      by decide +kernel⟩, by decide +kernel, by decide +kernel, by decide +kernel,
    ⟨⟨⟨mxAt_of (by decide +kernel), .inl (by decide +kernel), port_of (by decide +kernel)⟩,
      ⟨mxAt_of (by decide +kernel), .inl (by decide +kernel), port_of (by decide +kernel)⟩⟩, by decide +kernel⟩,
    ⟨mxAt_of (by decide +kernel), .inr ⟨rfl, mxBegins_of (by decide +kernel)⟩, port_of (by decide +kernel)⟩,
    by decide +kernel⟩

/-- Core 0's slot 0 owns a copy stream, numbered 1 in cluster 0, whose turn it is. -/
def copying (c : CpStream) : State := withCp c 0x04000000

/-- Address form: core 0, rows from row on, addresses from 0x8000 on, 64 bytes apart. -/
def cpOps (row nrow : BitVec 10) (mask : BitVec 16) : CpOps := ⟨0, row, nrow, 0x8000, 64, mask⟩

def lineOk (r : LineRes) : Nat :=
  match r with
  | .got l _ s1 => if l.length = 64 && Memory.wf s1.mem.cells then 1 else 0
  | .wait _ => 2
  | .fault _ _ => 3
  | .type => 4
  | .order _ => 5

def ownOk (r : OwnRes) : Nat :=
  match r with
  | .own _ _ => 1
  | .wait _ => 2
  | .fault _ _ => 3
  | .type => 4
  | .order _ => 5

theorem witness_copy_signals :
    cpHere (copying cp0) = some cp0 ∧ cp0.stop = false ∧ cp0.outstanding = 0 ∧
    (let sl := (copying cp0).slotAt ⟨0, 0⟩
     sl.toks1.length + sl.streams1 < 8 ∧ 8 ≤ (List.replicate 7 ((0 : Word), 0)).length + sl.streams1) ∧
    (cpHere (copying { cp0 with outstanding := 1 })).map CpStream.outstanding = some 1 := by decide +kernel

theorem witness_copy_rows :
    decide (768 < (767 : BitVec 10).toNat + (0 : BitVec 10).toNat + 1) = false ∧
    decide (768 < (767 : BitVec 10).toNat + (1 : BitVec 10).toNat + 1) = true ∧ cp0.begun = false ∧
    clusterCore 0 (1 : BitVec 4).toNat ≠ cp0.core ∧ CpGoes cp0 false ∧ CpGoes { cp0 with begun := true, row := 5 } false ∧
    (cpBegun cp0).row ≤ (0 : BitVec 10).toNat ∧ clusterCore 0 (15 : BitVec 4).toNat < 65536 ∧
    Memory.wf (copying cp0).mem.cells = true := by
  and_intros <;> first | decide +kernel | exact .inr ⟨rfl, rfl⟩

/-- A line of region 0; a page that is not mapped; a line that a peer owns; a page that is no WS page. -/
theorem witness_copy_reads :
    cpBad (cpOps 0 0 0) false = false ∧ cpBad (cpOps 767 1 0) false = true ∧ maskCores 6 = [1, 2] ∧
    CpEntered (cpIn (copying cp0) cp0) (cpBegun cp0) (cpSource (cpIn (copying cp0) cp0) (cpBegun cp0) (cpOps 0 0 0))
      (cpIn (copying cp0) cp0) ∧
    cpBad (cpOps 0 0 6) true = false ∧ cpBad (cpOps 0 0 0) true = true ∧ (∃ k ∈ [1, 2], clusterCore 0 k ≠ cp0.core) ∧
    CpGoes cp0 (cpBad (cpOps 0 0 0) false) ∧
    lineOk (cpReadLine (cpIn (copying cp0) cp0) 0 (cpBegun cp0) (cpVa (cpOps 0 0 0) 0) false) = 1 ∧
    (∀ k ∈ [1, 2], clusterCore 0 k < 65536) ∧
    lineOk (cpReadLine (cpIn (copying cp0) cp0) 0 (cpBegun cp0) (cpVa { cpOps 0 0 0 with va := 2 ^ 31 } 0) false) = 3 ∧
    (let s := copying cp0
     let s := s.setMem { s.mem with peers := [(0x200, [], 10)] }
     lineOk (cpReadLine (cpIn s cp0) 0 (cpBegun cp0) (cpVa (cpOps 0 0 0) 0) false) = 2) ∧
    lineOk (cpReadLine (cpIn (copying cp0) cp0) 0 (cpBegun cp0) (cpVa (cpOps 0 0 0) 0) true) = 4 := by
  and_intros <;> first | decide +kernel | exact .inl ⟨rfl, rfl⟩ | exact .inr ⟨by decide +kernel, rfl⟩

/-- A CPPUT whose line is owned and whose row is next. -/
def putting (rows : Map RowTag) : State :=
  let s := copying { cp0 with begun := true, owned := 1 }
  let s := s.setCluster 0 { s.cluster 0 with copyLines := [⟨1, 0, 0, 0x200, 0, 0x8000, none, false⟩] }
  s.setCore 0 { s.coreAt 0 with rows := rows }

theorem witness_copy_writes :
    cpBad (cpOps 0 0 1) false = true ∧ cpNextOwn (cpOps 0 0 0) (cpBegun cp0) 1 = 0 ∧
    CpEntered (cpIn (copying cp0) cp0) (cpBegun cp0) (cpTarget (cpIn (copying cp0) cp0) (cpBegun cp0) (cpOps 0 0 0) 0)
      (cpIn (copying cp0) cp0) ∧
    CpGoes cp0 (cpBad (cpOps 0 0 0) false) ∧ (cpBegun cp0).owned < min ((0 : BitVec 10).toNat + 1) ((cpBegun cp0).seg + 512) ∧
    ownOk (cpOwn (cpIn (copying cp0) cp0) 0 1 (cpBegun cp0) (cpVa (cpOps 0 0 0) 0) 0 false) = 1 ∧
    ownOk (cpOwn (cpIn (copying cp0) cp0) 0 1 (cpBegun cp0) (cpVa { cpOps 0 0 0 with va := 2 ^ 31 } 0) 0 false) = 3 ∧
    (let s := copying cp0
     let s := s.setMem { s.mem with peers := [(0x200, [], 10)] }
     ownOk (cpOwn (cpIn s cp0) 0 1 (cpBegun cp0) (cpVa (cpOps 0 0 0) 0) 0 false) = 2) ∧
    cpHere (putting []) = some { cp0 with begun := true, owned := 1 } ∧
    min ((0 : BitVec 10).toNat + 1) (0 + 512) ≤ 1 ∧ (((putting []).coreAt 0).row 0).full = true ∧
    (((putting [(0, ⟨false, false, false⟩)]).coreAt 0).row 0).full = false ∧ (0 : Nat) + 1 < min ((1 : BitVec 10).toNat + 1) (0 + 512) :=
  ⟨by decide +kernel, by decide +kernel, .inl ⟨rfl, rfl⟩, .inr ⟨by decide +kernel, rfl⟩, by decide +kernel⟩

theorem witness_copy_returns :
    (let o : OwnLine := ⟨1, 0, 0, 0x200, 0, 0x8000, some (List.replicate 64 7, true), false⟩
     (copying cp0).cp? 0 o.sid = some cp0 ∧ (List.replicate 64 (7 : Byte)).length = 64 ∧ o.dev = (copying cp0).fabric.self ∧
     region (o.line * 64) < 3 ∧ ({ o with dev := 5 } : OwnLine).dev ≠ (copying cp0).fabric.self) ∧
    CpGoes cp0 (decide (768 ≤ (767 : BitVec 10).toNat)) ∧ (((copying cp0).coreAt 0).row 767).full = true ∧
    ((copying cp0).cp? 0 2 = none) ∧
    (let c := { cp0 with waitFor := some (true, 0, 5, false) }
     (copying c).cp? 0 1 = some c ∧ c.fin = none) ∧
    (let c := { cp0 with waitFor := some (false, 0, 5, true), fin := some (1, 2, 3, false, true), outstanding := 1 }
     (copying c).cp? 0 1 = some c ∧ c.outstanding ≤ 1 ∧ c.stop = false) ∧ clusterOf 0 = 0 ∧
    (∃ o ∈ ((putting []).cluster 0).copyLines, (o.dev == (putting []).fabric.self && o.line == 0x200) = true ∧ o.data = none) ∧
    (∀ o ∈ ((putting []).cluster 0).copyLines, (o.dev == (putting []).fabric.self && o.line == 0x201) = true → o.data.isSome = true) :=
  ⟨by decide +kernel, .inr ⟨by decide +kernel, rfl⟩, by decide +kernel⟩

/-! ### Ports, supervisor instructions, memory -/

/-- The start word of a chain at 0x4000: the one line there holds two matrix commands and ends the chain. -/
def starter : State :=
  let s := mapped (at_ 0 [0x4000, 0x4001, 0, 0x8000000000000000])
  let ws : List (BitVec 32) := [0x89000000, 0x04000000, 0, 0x24000001, 0] ++ List.replicate 11 0
  s.setMem { s.mem with
    cells := setBytes s.mem.cells 0x4000 (ws.flatMap (fun w => natBytes 4 w.toNat)), code := [⟨codeLoc 0, 0x100, 0, 4, ws⟩] }

def chainOk (r : ChainRes) : Bool :=
  match r with
  | .held _ _ => true
  | _ => false

/-- Tokens in q0 and q1: one without an error, one of a schedule miss. -/
def popper : State := mine plain (fun sl => { sl with toks0 := [(8, 0), (0x20001, 0)], toks1 := [(8, 0)], unackMsg := 2 })

theorem witness_ports :
    Ready starter (readsA 1 false) ∧ starter.onDcore = true ∧ badStart 0 (starter.vals (readsA 1 false)).a = false ∧
    badStart 1 (starter.vals (readsA 2 false)).a = true ∧ badStart 1 (starter.vals (readsA 1 false)).a = false ∧
    starter.me.acq = none ∧ starter.me.task.ord = false ∧
    (starter.coreAt starter.here).mx = [] ∧ starter.me.toks0.length < 4 ∧ starter.me.toks1.length + starter.me.streams1 < 8 ∧
    chainOk (readChain starter starter.here 0 true 32 (startLine 0x4000) true []).1 = true ∧
    nextStream (starter.cluster (clusterOf starter.here)).copies = some 0 ∧
    Ready popper (writesRun 9 1) ∧ popper.me.toks0 = (8, 0) :: [(0x20001, 0)] ∧ popper.me.toks1 = (8, 0) :: [] ∧
    plain.me.toks0 = [] ∧ plain.me.streams0 = 0 ∧ (withMx mx0).me.streams0 ≠ 0 ∧ (withMx mx0).me.toks0 = [] ∧
    plain.me.toks1 = [] ∧ ((withCp cp0 0).slotAt ⟨0, 0⟩).streams1 ≠ 0 ∧
    popper.me.unackMsg ≠ 0 ∧ plain.part ≠ .ny7710 ∧ ownModule plain ∧ plain.onDcore = true := by
  and_intros <;> first | decide +kernel | exact ready_of (by decide +kernel) | exact own_of (by decide +kernel)

/-- A supervisor with cached translations; 7 is a live key. -/
def keeper : State :=
  let s := super (at_ 0 [7, 0x4000, 0, 1])
  let s := s.setMgmt { s.mgmt with keys := [(7, .live), (9, .sweep)], keyWait := [(9, (⟨0, 0⟩, 5))] }
  s.setMem { s.mem with tcache := [⟨0, 0, 0, 4, 0x1000, 0⟩] }

theorem witness_supervisor :
    Ready keeper ⟨some (1, false), some (2, false), none, [], []⟩ ∧ keeper.me.sup = true ∧ keeper.me.posted = 0 ∧
    keeper.me.acq = none ∧ keeper.me.outst = 0 ∧ keeper.mem.waiters = [] ∧ keeper.fabric.enable = false ∧
    (mine keeper (fun sl => { sl with posted := 1 })).me.posted ≠ 0 ∧
    (let w : TlbWait := ⟨⟨0, 0⟩, none, none, 0, [homeAcc .syncRead], [], []⟩
     let s := keeper.setMem { keeper.mem with tlbis := [w] }
     s.mem.tlbis.find? (fun w => w.id == ⟨0, 0⟩) = some w ∧ (w.rest s).over = true ∧
     (w.rest (s.setSched { s.sched with net := [⟨0, 0, .homeAccess (homeAcc .syncRead)⟩] })).over = false ∧
     ((mine keeper (fun sl => { sl with st := .waiting })).slotAt ⟨0, 0⟩).st = .waiting) ∧ keeper.forwarded keeper.here = keeper.here ∧
    peersUnder keeper 9 = [] ∧
    peersUnder (keeper.setMem { keeper.mem with peers := [(5, ([3], 0))], keys := [(5, 9)] }) 9 ≠ [] ∧
    Ready keeper (daDemand ⟨9, 1, false⟩) ∧ cpwwOut keeper keeper.sched.cur = false ∧ ownModule keeper ∧
    bits (keeper.vals (daDemand ⟨9, 1, false⟩)).a.toNat 5 0 = 7 ∧ keeper.keyLive 7 = true ∧
    bits (keeper.vals (daDemand ⟨9, 3, false⟩)).a.toNat 5 0 = 0 ∧
    bits (keeper.vals (daDemand ⟨9, 4, false⟩)).a.toNat 5 0 = 1 ∧ keeper.keyLive 1 = false ∧
    mget keeper.mgmt.keys 9 .empty = .sweep ∧ mget keeper.mgmt.keys 7 .empty ≠ .sweep := by
  and_intros <;> first | decide +kernel | exact ready_of (by decide +kernel) | exact own_of (by decide +kernel)

/-- Another slot of the partition runs; a debug stop of it is in force; launch 3 runs. -/
def halting (stops : List GangStop) : State :=
  let s := super (at_ 0 [3, 9])
  let s := s.setSlot ⟨1, 2⟩ { Slot.reset with st := .running, halted := true, task := { Task.reset with launch := 3 } }
  s.setWork { s.work with stops := stops, launches := [(0, launch0), (3, launch0)] }

theorem witness_stops :
    Ready (halting []) (writesRun 9 1) ∧ (halting []).me.sup = true ∧ (⟨1, 2⟩ : SlotId) ≠ (halting []).sched.cur ∧
    ((halting []).slotAt ⟨1, 2⟩).st ≠ .free ∧
    (halting []).partOfTask ((halting []).slotAt ⟨1, 2⟩).task = (halting []).partOfTask (halting []).me.task ∧
    (∃ g ∈ (halting [⟨0, 0, none, false⟩]).work.stops, g.part = 0 ∧ g.fatal = false) ∧
    (∀ g ∈ (halting [⟨0, 0, none, true⟩]).work.stops, g.part = 0 → g.fatal = true) ∧
    ((halting [⟨0, 0, none, false⟩]).slotAt ⟨1, 2⟩).halted = true ∧
    stopped (halting []) ((halting [⟨0, 0, none, false⟩]).slotAt ⟨1, 2⟩).task = false ∧
    stopUnderway (halting []) 0 = false ∧ stopUnderway ((halting []).after 40 (.haltDone ⟨0, 0⟩ 9 0)) 0 = true ∧
    (halting []).forwarded (halting []).here = (halting []).here ∧
    modOf ((halting []).slotAt ⟨1, 2⟩).task.dcore = (halting []).fabric.self ∧
    Ready (halting []) (daDemand ⟨9, 1, false⟩) ∧
    (halting []).launchAt (bits ((halting []).vals (daDemand ⟨9, 1, false⟩)).a.toNat 15 0) ≠ none ∧
    (halting []).launchAt (bits ((halting []).vals (daDemand ⟨9, 2, false⟩)).a.toNat 15 0) = none ∧
    ((halting []).slotAt ⟨1, 2⟩).task.launch = 3 := by
  and_intros <;> first | decide +kernel | exact ready_of (by decide +kernel)

/-- A step that stores to memory. -/
theorem witness_memory :
    Memory.wf (State.reset.withFetchWord 32 0x0053238B).mem.cells = true ∧
    (∃ t, step (State.reset.withFetchWord 32 0x0053238B) = .next t) := by
  constructor
  · decide +kernel
  · have h : (match step (State.reset.withFetchWord 32 0x0053238B) with
      | .next _ => true
      | _ => false) = true := by decide +kernel
    revert h
    cases step (State.reset.withFetchWord 32 0x0053238B) with
    | next t => intro; exact ⟨t, rfl⟩
    | fault => intro h; cases h
    | refused => intro h; cases h

end Sys2Proof.Tests
end

section
/-! PROOF. Gang launch over several modules (spec 03 R75 to R78): what sending a gang message, replacing an entry of the
initiator's list or of the reservations, and telling the host leave of the state; then each gang message and timer. -/

namespace Sys2Proof.Gang

open Sys2Proof Sys2Proof.Machine Sys2Proof.Safety

/-! ## What sending leaves -/

/-- The state after messages have been sent: more packets in flight and more events due, and nothing else. -/
structure OnlySends (s t : State) : Prop where
  eq : t = s.setSched { s.sched with net := t.sched.net, inbox := t.sched.inbox }
  net : s.sched.net ⊆ t.sched.net
  inbox : s.sched.inbox ⊆ t.sched.inbox

theorem OnlySends.refl (s : State) : OnlySends s s := ⟨rfl, fun _ => id, fun _ => id⟩

theorem OnlySends.trans {s t u : State} (h : OnlySends s t) (h' : OnlySends t u) : OnlySends s u where
  eq := by
    have hu := h'.eq
    rw [h.eq] at hu
    exact hu
  net := fun _ hx => h'.net (h.net hx)
  inbox := fun _ hx => h'.inbox (h.inbox hx)

section
variable {s t : State} (h : OnlySends s t)
include h

theorem OnlySends.fabric : t.fabric = s.fabric := (congrArg State.fabric h.eq :)
theorem OnlySends.mem : t.mem = s.mem := (congrArg State.mem h.eq :)
theorem OnlySends.cores : t.cores = s.cores := (congrArg State.cores h.eq :)
theorem OnlySends.work : t.work = s.work := (congrArg State.work h.eq :)
theorem OnlySends.host : t.host = s.host := (congrArg State.host h.eq :)
theorem OnlySends.now : t.now = s.now := (congrArg State.now h.eq :)

end

theorem gangSend_onlySends (s : State) (mod kind : Nat) (m : GangMsg) : OnlySends s (s.gangSend mod kind m) := by
  unfold State.gangSend
  split
  · exact ⟨rfl, List.subset_append_left _ _, fun _ => id⟩
  · exact ⟨rfl, fun _ => id, List.subset_append_left _ _⟩

@[simp] theorem gangSend_fabric (s : State) (mod kind : Nat) (m : GangMsg) : (s.gangSend mod kind m).fabric = s.fabric :=
  (gangSend_onlySends s mod kind m).fabric
@[simp] theorem gangSend_mem (s : State) (mod kind : Nat) (m : GangMsg) : (s.gangSend mod kind m).mem = s.mem :=
  (gangSend_onlySends s mod kind m).mem
@[simp] theorem gangSend_cores (s : State) (mod kind : Nat) (m : GangMsg) : (s.gangSend mod kind m).cores = s.cores :=
  (gangSend_onlySends s mod kind m).cores

/-- The message sent is in flight, or asked of the other module. -/
theorem gangSend_told (s : State) (mod kind : Nat) (m : GangMsg) : GangTold (s.gangSend mod kind m) mod kind m := by
  unfold State.gangSend
  split
  next h =>
    exact ⟨fun _ => List.mem_append_right _ (List.mem_singleton.mpr rfl), fun hne => absurd h hne⟩
  next h =>
    exact ⟨fun heq => absurd heq h, fun _ => List.mem_append_right _ (List.mem_singleton.mpr rfl)⟩

/-- What has been told stays told while packets in flight and events due are only added. -/
theorem gangTold_mono {s t : State} {mod kind : Nat} {m : GangMsg} (h : GangTold s mod kind m)
    (hself : t.fabric.self = s.fabric.self) (hnet : s.sched.net ⊆ t.sched.net)
    (hinbox : s.sched.inbox ⊆ t.sched.inbox) : GangTold t mod kind m := by
  obtain ⟨hhere, hthere⟩ := h
  refine ⟨fun hm => hnet (hhere (hm.trans hself)), fun hm => ?_⟩
  have hreq := hinbox (hthere (hself ▸ hm))
  simpa [Requested, State.packet, gcid, hself] using hreq

theorem OnlySends.told {s t : State} (h : OnlySends s t) {mod kind : Nat} {m : GangMsg} (ht : GangTold s mod kind m) :
    GangTold t mod kind m :=
  gangTold_mono ht (congrArg Fabric.self h.fabric) h.net h.inbox

theorem gangMsg_congr {s t : State} (h : t.fabric.self = s.fabric.self) (init : Nat) (launch : Word) (part reason : Nat) :
    gangMsg t init launch part reason = gangMsg s init launch part reason := by
  simp [gangMsg, h]

/-- The messages of a gang launch to the modules of a list, which `State.gangAll` sends to all of its modules. -/
def tellModules (g : GangInit) (kind reason : Nat) (l : List (Nat × Nat × Word × Word)) (s : State) : State :=
  l.foldl (fun s m => s.gangSend m.1 kind (gangMsg s s.fabric.self g.launch g.part reason)) s

theorem gangAll_eq_tellModules (s : State) (g : GangInit) (kind reason : Nat) :
    s.gangAll g kind reason = tellModules g kind reason g.mods s := rfl

theorem tellModules_onlySends (g : GangInit) (kind reason : Nat) (l : List (Nat × Nat × Word × Word)) (s : State) :
    OnlySends s (tellModules g kind reason l s) := by
  induction l generalizing s with
  | nil => exact OnlySends.refl s
  | cons x l ih => exact (gangSend_onlySends s _ _ _).trans (ih _)

theorem tellModules_told (g : GangInit) (kind reason : Nat) (l : List (Nat × Nat × Word × Word)) (s : State) :
    ∀ x ∈ l, GangTold (tellModules g kind reason l s) x.1 kind (gangMsg s s.fabric.self g.launch g.part reason) := by
  induction l generalizing s with
  | nil => intro x hx; cases hx
  | cons y l ih =>
    intro x hx
    let s1 := s.gangSend y.1 kind (gangMsg s s.fabric.self g.launch g.part reason)
    rcases List.mem_cons.mp hx with rfl | hx
    · exact (tellModules_onlySends g kind reason l s1).told (gangSend_told s _ _ _)
    · have htold := ih s1 x hx
      rwa [gangMsg_congr (s := s) (by simp [s1]), show s1.fabric = s.fabric from gangSend_fabric _ _ _ _] at htold

theorem gangAll_onlySends (s : State) (g : GangInit) (kind reason : Nat) : OnlySends s (s.gangAll g kind reason) := by
  rw [gangAll_eq_tellModules]
  exact tellModules_onlySends g kind reason g.mods s

theorem gangAll_told (s : State) (g : GangInit) (kind reason : Nat) : ∀ x ∈ g.mods,
    GangTold (s.gangAll g kind reason) x.1 kind (gangMsg s s.fabric.self g.launch g.part reason) := by
  rw [gangAll_eq_tellModules]
  exact tellModules_told g kind reason g.mods s

/-! ## The initiator's list and the reservations -/

/-- Replacing what a search finds: the search then finds the replacement. -/
theorem find?_map_replace {α : Type} {p : α → Bool} {l : List α} {a b : α} (ha : l.find? p = some a) (hb : p b = true) :
    (l.map (fun x => if p x then b else x)).find? p = some b := by
  have hp : (p ∘ fun x => if p x then b else x) = p := by
    funext x
    by_cases hx : p x = true <;> simp [hx, hb]
  rw [List.find?_map, hp, ha, Option.map_some, if_pos (List.find?_some ha)]

theorem find?_filter_not {α : Type} (p : α → Bool) (l : List α) : (l.filter (fun x => !p x)).find? p = none := by
  simp [List.find?_eq_none]

theorem gangOf_congr {s t : State} (h : t.fabric = s.fabric) (launch : Word) : t.gangOf launch = s.gangOf launch := by
  simp [State.gangOf, h]

theorem prepOf_congr {s t : State} (h : t.fabric = s.fabric) (init : Nat) (launch : Word) :
    t.prepOf init launch = s.prepOf init launch := by
  simp [State.prepOf, h]

theorem launch_of_gangOf {s : State} {launch : Word} {g : GangInit} (h : s.gangOf launch = some g) : g.launch = launch :=
  eq_of_beq (List.find?_some h :)

theorem ids_of_prepOf {s : State} {init : Nat} {launch : Word} {p : Prep} (h : s.prepOf init launch = some p) :
    p.init = init ∧ p.launch = launch := by
  simpa using List.find?_some h

/-- The entry of a gang launch that is held is replaced by one of the same launch. -/
theorem gangOf_setGang {s : State} {launch : Word} {g g' : GangInit} (h : s.gangOf launch = some g)
    (hl : g'.launch = g.launch) : (s.setGang g').gangOf launch = some g' := by
  have hg' : g'.launch = launch := hl.trans (launch_of_gangOf h)
  have hfind := find?_map_replace (b := g') h (by simp [hg'])
  simpa [State.gangOf, State.setGang, hg'] using hfind

theorem gangOf_dropGang (s : State) (launch : Word) : (s.dropGang launch).gangOf launch = none :=
  find?_filter_not (fun g : GangInit => g.launch == launch) s.fabric.gangs

/-- The reservation that is held is replaced by one of the same launch. -/
theorem prepOf_setPrep {s : State} {init : Nat} {launch : Word} {p p' : Prep} (h : s.prepOf init launch = some p)
    (hi : p'.init = p.init) (hl : p'.launch = p.launch) : (s.setPrep p').prepOf init launch = some p' := by
  obtain ⟨hpi, hpl⟩ := ids_of_prepOf h
  have hi' : p'.init = init := hi.trans hpi
  have hl' : p'.launch = launch := hl.trans hpl
  have hfind := find?_map_replace (b := p') h (by simp [hi', hl'])
  simpa [State.prepOf, State.setPrep, hi', hl'] using hfind

theorem prepOf_dropPrep (s : State) (init : Nat) (launch : Word) : (s.dropPrep init launch).prepOf init launch = none :=
  find?_filter_not (fun p : Prep => p.init == init && p.launch == launch) s.fabric.preps

@[simp] theorem arrive_gangOf (s : State) (e : Ev) (launch : Word) : (s.arrive e).gangOf launch = s.gangOf launch := rfl
@[simp] theorem arrive_prepOf (s : State) (e : Ev) (init : Nat) (launch : Word) :
    (s.arrive e).prepOf init launch = s.prepOf init launch := rfl
@[simp] theorem arrive_launchAt (s : State) (e : Ev) (i : Nat) : (s.arrive e).launchAt i = s.launchAt i := rfl
@[simp] theorem arrive_now (s : State) (e : Ev) : (s.arrive e).now = s.now := rfl

/-! ## What an event for the host leaves -/

/-- The state after a message for the host: the host interface, the timers and what has left the module may differ. -/
structure OnlyTellsHost (s t : State) : Prop where
  eq : t = (s.setHost t.host).setSched { s.sched with timers := t.sched.timers, out := t.sched.out }

theorem OnlyTellsHost.trans {s t u : State} (h : OnlyTellsHost s t) (h' : OnlyTellsHost t u) : OnlyTellsHost s u where
  eq := by
    have hu := h'.eq
    rw [h.eq] at hu
    exact hu

theorem irq_onlyTellsHost (s : State) (v : Nat) : OnlyTellsHost s (s.irq v) := by
  unfold State.irq
  split
  · exact ⟨rfl⟩
  · split <;> exact ⟨rfl⟩

theorem irq_d2h (s : State) (v : Nat) : (s.irq v).host.d2h = s.host.d2h := by
  unfold State.irq
  split
  · rfl
  · split <;> rfl

/-- Vector 0 fires for the message in place `n` of the queue when THRESH is reached (R85). -/
def fireIrq (n : Nat) (s : State) : State :=
  if n < s.host.thr && s.host.thr ≤ n + 1 then (s.setHost { s.host with irqArmed := none }).irq 0 else s

/-- The timer of vector 0 is armed by a message that does not reach THRESH (R85). -/
def armIrq (n : Nat) (s : State) : State :=
  match s.host.irqArmed with
  | some _ => s
  | none => if n < s.host.thr && s.host.thr ≤ n + 1 then s
            else (s.setHost { s.host with irqArmed := some s.now }).after 34000 .mboxIrqTimeout

theorem fireIrq_keeps (n : Nat) (s : State) :
    OnlyTellsHost s (fireIrq n s) ∧ (fireIrq n s).host.d2h = s.host.d2h := by
  unfold fireIrq
  split
  · exact ⟨⟨(irq_onlyTellsHost (s.setHost _) 0).eq⟩, irq_d2h _ 0⟩
  · exact ⟨⟨rfl⟩, rfl⟩

theorem armIrq_keeps (n : Nat) (s : State) :
    OnlyTellsHost s (armIrq n s) ∧ (armIrq n s).host.d2h = s.host.d2h := by
  unfold armIrq
  split
  · exact ⟨⟨rfl⟩, rfl⟩
  · split <;> exact ⟨⟨rfl⟩, rfl⟩

theorem d2hPut_of_room {s : State} (h : s.host.d2h.length < 1024) (m : Words8) :
    s.d2hPut m = armIrq s.host.d2h.length (fireIrq s.host.d2h.length
      (s.setHost { s.host with d2h := s.host.d2h ++ [{ m with w1 := w64 s.now }] })) := by
  rw [State.d2hPut, if_pos h]
  rfl

theorem event_d2h {s : State} (h : s.host.d2h.length < 1024) (code job : Nat) (w2 w3 w4 w5 : Word) :
    (s.event code job w2 w3 w4 w5).host.d2h = s.host.d2h ++ [⟨msgHead 0x83 code job 0, w64 s.now, w2, w3, w4, w5, 0, 0⟩] := by
  rw [State.event, State.toHost, d2hPut_of_room h, (armIrq_keeps _ _).2, (fireIrq_keeps _ _).2]
  rfl

theorem event_onlyTellsHost (s : State) (code job : Nat) (w2 w3 w4 w5 : Word) :
    OnlyTellsHost s (s.event code job w2 w3 w4 w5) := by
  by_cases h : s.host.d2h.length < 1024
  · rw [State.event, State.toHost, d2hPut_of_room h]
    exact OnlyTellsHost.trans ⟨rfl⟩ ((fireIrq_keeps _ _).1.trans (armIrq_keeps _ _).1)
  · rw [State.event, State.toHost, State.d2hPut, if_neg h]
    exact ⟨rfl⟩

@[simp] theorem event_fabric (s : State) (code job : Nat) (w2 w3 w4 w5 : Word) :
    (s.event code job w2 w3 w4 w5).fabric = s.fabric := (congrArg State.fabric (event_onlyTellsHost s code job w2 w3 w4 w5).eq :)
@[simp] theorem event_mem (s : State) (code job : Nat) (w2 w3 w4 w5 : Word) :
    (s.event code job w2 w3 w4 w5).mem = s.mem := (congrArg State.mem (event_onlyTellsHost s code job w2 w3 w4 w5).eq :)
@[simp] theorem event_cores (s : State) (code job : Nat) (w2 w3 w4 w5 : Word) :
    (s.event code job w2 w3 w4 w5).cores = s.cores := (congrArg State.cores (event_onlyTellsHost s code job w2 w3 w4 w5).eq :)
@[simp] theorem event_work (s : State) (code job : Nat) (w2 w3 w4 w5 : Word) :
    (s.event code job w2 w3 w4 w5).work = s.work := (congrArg State.work (event_onlyTellsHost s code job w2 w3 w4 w5).eq :)
@[simp] theorem event_net (s : State) (code job : Nat) (w2 w3 w4 w5 : Word) :
    (s.event code job w2 w3 w4 w5).sched.net = s.sched.net :=
  (congrArg (·.sched.net) (event_onlyTellsHost s code job w2 w3 w4 w5).eq :)
@[simp] theorem event_inbox (s : State) (code job : Nat) (w2 w3 w4 w5 : Word) :
    (s.event code job w2 w3 w4 w5).sched.inbox = s.sched.inbox :=
  (congrArg (·.sched.inbox) (event_onlyTellsHost s code job w2 w3 w4 w5).eq :)

/-! ## What a unit's result and a change of a launch leave -/

theorem unitResult_onlyCores (s : State) (id : SlotId) (d : Nat) (v : Word) :
    s.unitResult id d v = { s with cores := (s.unitResult id d v).cores } := by
  unfold State.unitResult
  dsimp only
  split <;> rfl

@[simp] theorem unitResult_fabric (s : State) (id : SlotId) (d : Nat) (v : Word) :
    (s.unitResult id d v).fabric = s.fabric := (congrArg State.fabric (unitResult_onlyCores s id d v) :)
@[simp] theorem unitResult_mem (s : State) (id : SlotId) (d : Nat) (v : Word) :
    (s.unitResult id d v).mem = s.mem := (congrArg State.mem (unitResult_onlyCores s id d v) :)
@[simp] theorem unitResult_work (s : State) (id : SlotId) (d : Nat) (v : Word) :
    (s.unitResult id d v).work = s.work := (congrArg State.work (unitResult_onlyCores s id d v) :)
@[simp] theorem unitResult_host (s : State) (id : SlotId) (d : Nat) (v : Word) :
    (s.unitResult id d v).host = s.host := (congrArg State.host (unitResult_onlyCores s id d v) :)
@[simp] theorem unitResult_sched (s : State) (id : SlotId) (d : Nat) (v : Word) :
    (s.unitResult id d v).sched = s.sched := (congrArg State.sched (unitResult_onlyCores s id d v) :)

/-- A result that is still awaited is written to its register, which is then full (R388). -/
theorem unitResult_cell {s : State} {id : SlotId} {d : Nat} (v : Word) (hf : s.forwarded id.core = id.core) (hd : d ≠ 0)
    (hp : ((s.slotAt id).cell d).pend = true) : ((s.unitResult id d v).slotAt id).cell d = ⟨v, true, false⟩ := by
  have hwrite : s.unitResult id d v = s.setSlot id ((s.slotAt id).setG d v) := by
    simp [State.unitResult, hf, hd, hp]
  rw [hwrite, setSlot_slotAt_self, setG_cell_self _ _ _ hd]

theorem setLaunch_onlyLaunches (s : State) (i : Nat) (f : Launch → Launch) :
    s.setLaunch i f = s.setWork { s.work with launches := (s.setLaunch i f).work.launches } := by
  unfold State.setLaunch
  split <;> rfl

@[simp] theorem setLaunch_fabric (s : State) (i : Nat) (f : Launch → Launch) : (s.setLaunch i f).fabric = s.fabric :=
  (congrArg State.fabric (setLaunch_onlyLaunches s i f) :)
@[simp] theorem setLaunch_mem (s : State) (i : Nat) (f : Launch → Launch) : (s.setLaunch i f).mem = s.mem :=
  (congrArg State.mem (setLaunch_onlyLaunches s i f) :)
@[simp] theorem setLaunch_cores (s : State) (i : Nat) (f : Launch → Launch) : (s.setLaunch i f).cores = s.cores :=
  (congrArg State.cores (setLaunch_onlyLaunches s i f) :)
@[simp] theorem setLaunch_host (s : State) (i : Nat) (f : Launch → Launch) : (s.setLaunch i f).host = s.host :=
  (congrArg State.host (setLaunch_onlyLaunches s i f) :)
@[simp] theorem setLaunch_sched (s : State) (i : Nat) (f : Launch → Launch) : (s.setLaunch i f).sched = s.sched :=
  (congrArg State.sched (setLaunch_onlyLaunches s i f) :)
@[simp] theorem setLaunch_csweeps (s : State) (i : Nat) (f : Launch → Launch) :
    (s.setLaunch i f).work.csweeps = s.work.csweeps := (congrArg (·.work.csweeps) (setLaunch_onlyLaunches s i f) :)
@[simp] theorem setLaunch_lmigFwd (s : State) (i : Nat) (f : Launch → Launch) :
    (s.setLaunch i f).work.lmigFwd = s.work.lmigFwd := (congrArg (·.work.lmigFwd) (setLaunch_onlyLaunches s i f) :)

theorem launchAt_setLaunch (s : State) (i : Nat) (f : Launch → Launch) :
    (s.setLaunch i f).launchAt i = (s.launchAt i).map f := by
  unfold State.setLaunch
  split
  next h => simp [h]
  next l h => rw [h]; exact mget?_mput_self _ _ _

theorem launchAt_congr {s t : State} (h : t.work = s.work) (i : Nat) : t.launchAt i = s.launchAt i := by
  simp [State.launchAt, h]

theorem forwarded_congr {s t : State} (h : t.work.lmigFwd = s.work.lmigFwd) (k : Nat) : t.forwarded k = s.forwarded k := by
  simp [State.forwarded, h]

theorem slotAt_congr {s t : State} (h : t.cores = s.cores) (id : SlotId) : t.slotAt id = s.slotAt id := by
  simp [State.slotAt, State.coreAt, h]

/-! ## GPREP (R75, R76 step 1) -/

theorem gprepReason_of_noClusters {s : State} {m : GangMsg} (h : partClusters s m.part = []) : gprepReason s m = 2 := by
  simp [gprepReason, h]

theorem gprepReason_of_deadKey {s : State} {m : GangMsg} (h : partClusters s m.part ≠ [])
    (hk : s.keyLive (s.keyOf (jobOfPart s m.part)) = false) : gprepReason s m = 3 := by
  simp [gprepReason, h, hk]

/-- A module that does not refuse has room for the tasks. -/
theorem room_of_gprepReason {s : State} {m : GangMsg} (h : gprepReason s m = 0) : m.ntask ≤ queueRoom s m.part := by
  dsimp only [gprepReason] at h
  split_ifs at h with _ _ _ _ hroom
  exact Nat.le_of_not_lt hroom

/-- A module that does not refuse reserves and answers GPACK. What it checks does not depend on the packets in flight, so
`gprepReason` is the same before the GPREP is taken out of flight. -/
theorem exec_gprep_reserves {m : GangMsg} {s : State} (h : gprepReason s m = 0) :
    ∃ t, exec (.gprep m) s = .next t ∧
      t.fabric.preps = s.fabric.preps ++ [⟨m.init, m.launch, m.part, m.ntask, m.desc, jobOfPart s m.part, 1, s.now⟩] ∧
      GangTold t m.init 2 (gangMsg s m.init m.launch m.part 0) ∧
      ⟨s.now + 340000, .orphanTimeout m.init m.launch⟩ ∈ t.sched.timers ∧ t.cores = s.cores ∧ t.mem = s.mem := by
  let s1 := (s.arrive (.gprep m)).setFabric { s.fabric with preps := s.fabric.preps ++
    [⟨m.init, m.launch, m.part, m.ntask, m.desc, jobOfPart s m.part, 1, s.now⟩] }
  let s2 := s1.gangSend m.init gpackType (gangMsg s m.init m.launch m.part 0)
  have hsent : OnlySends s1 s2 := gangSend_onlySends _ _ _ _
  refine ⟨s2.after 340000 (.orphanTimeout m.init m.launch), ?_, ?_, ?_, ?_, ?_, ?_⟩
  · rw [exec_gprep]
    exact if_pos h
  · exact congrArg Fabric.preps hsent.fabric
  · exact gangSend_told _ _ _ _
  · exact List.mem_append_right _ (List.mem_singleton.mpr (by rw [hsent.now]; rfl))
  · exact hsent.cores
  · exact hsent.mem

theorem exec_gprep_refuses {m : GangMsg} {s : State} (h : gprepReason s m ≠ 0) :
    ∃ t, exec (.gprep m) s = .next t ∧ t.fabric = s.fabric ∧ t.cores = s.cores ∧ t.mem = s.mem ∧
      GangTold t m.init 3 (gangMsg s m.init m.launch m.part (gprepReason s m)) := by
  refine ⟨(s.arrive (.gprep m)).gangSend m.init gpnakType (gangMsg s m.init m.launch m.part (gprepReason s m)),
    ?_, by simp, by simp, by simp, gangSend_told _ _ _ _⟩
  rw [exec_gprep]
  exact if_neg h

/-! ## What the initiator does with answers (R76 steps 2 to 4) -/

theorem exec_gpack_of_none {m : GangMsg} {s : State} (h : s.gangOf m.launch = none) :
    exec (.gpack m) s = .next (s.arrive (.gpack m)) := by
  simp [execGpack, h]

theorem exec_gpnak_of_none {m : GangMsg} {s : State} (h : s.gangOf m.launch = none) :
    exec (.gpnak m) s = .next (s.arrive (.gpnak m)) := by
  simp [execGpnak, h]

theorem exec_gstart_of_none {m : GangMsg} {s : State} (h : s.gangOf m.launch = none) :
    exec (.gstart m) s = .next (s.arrive (.gstart m)) := by
  simp [execGstart, h]

theorem exec_gangPrepareTimeout_of_none {launch : Word} {s : State} (h : s.gangOf launch = none) :
    exec (.gangPrepareTimeout launch) s = .next s := by
  simp [execGangPrepareTimeout, h]

theorem exec_gangStartTimeout_of_none {launch : Word} {s : State} (h : s.gangOf launch = none) :
    exec (.gangStartTimeout launch) s = .next s := by
  simp [execGangStartTimeout, h]

/-- With one more answer every module of a list has answered. -/
theorem all_answered {mods : List (Nat × Nat × Word × Word)} {had : List Nat} {src : Nat}
    (h : ∀ x ∈ mods, x.1 ∈ had ∨ x.1 = src) : (mods.all fun x => (had ++ [src]).contains x.1) = true := by
  simpa [List.all_eq_true] using fun a b c d hx => h (a, b, c, d) hx

theorem not_all_answered {mods : List (Nat × Nat × Word × Word)} {had : List Nat} {src : Nat}
    (h : ∃ x ∈ mods, x.1 ∉ had ∧ x.1 ≠ src) : (mods.all fun x => (had ++ [src]).contains x.1) = false := by
  obtain ⟨x, hx, hno, hne⟩ := h
  exact List.all_eq_false.mpr ⟨x, hx, by simp [hno, hne]⟩

/-- An answer is not ignored in its phase, before the window ends, from a module that has not answered. -/
theorem answer_open {phase p ends now src : Nat} {had : List Nat} (hp : phase = p) (ht : now < ends) (hs : src ∉ had) :
    ¬(phase != p || decide (ends ≤ now) || had.contains src) = true := by
  simp [hp, ht, hs]

section
variable {m : GangMsg} {s : State} {g : GangInit} (hg : s.gangOf m.launch = some g)
include hg

theorem exec_gpack_of_closed (hc : g.phase ≠ 0 ∨ g.ends ≤ s.now) : exec (.gpack m) s = .next (s.arrive (.gpack m)) := by
  rcases hc with hc | hc <;> simp [execGpack, hg, hc]

theorem exec_gstart_of_closed (hc : g.phase ≠ 1 ∨ g.ends ≤ s.now) :
    exec (.gstart m) s = .next (s.arrive (.gstart m)) := by
  rcases hc with hc | hc <;> simp [execGstart, hg, hc]

/-- An answer in time is counted while a module has not answered (R76 step 2). -/
theorem exec_gpack_counts (hp : g.phase = 0) (ht : s.now < g.ends) (hs : m.src ∉ g.ackd)
    (hw : ∃ x ∈ g.mods, x.1 ∉ g.ackd ∧ x.1 ≠ m.src) : ∃ t, exec (.gpack m) s = .next t ∧
      t.gangOf m.launch = some { g with ackd := g.ackd ++ [m.src] } ∧ t.cores = s.cores ∧ t.mem = s.mem := by
  refine ⟨(s.arrive (.gpack m)).setGang { g with ackd := g.ackd ++ [m.src] }, ?_, gangOf_setGang hg rfl, rfl, rfl⟩
  simp only [exec_gpack, execGpack, arrive_gangOf, hg, not_all_answered hw]
  exact (if_neg (answer_open hp ht hs)).trans rfl

/-- With the last answer in time GCOMMIT goes to every module (R76 step 2). -/
theorem exec_gpack_commits (hp : g.phase = 0) (ht : s.now < g.ends) (hs : m.src ∉ g.ackd)
    (hall : ∀ x ∈ g.mods, x.1 ∈ g.ackd ∨ x.1 = m.src) : ∃ t, exec (.gpack m) s = .next t ∧
      t.gangOf m.launch = some { g with ackd := g.ackd ++ [m.src], phase := 1, ends := s.now + 85000 } ∧
      (∀ x ∈ g.mods, GangTold t x.1 4 (gangMsg s s.fabric.self g.launch g.part 0)) ∧
      ⟨s.now + 85000, .gangStartTimeout g.launch⟩ ∈ t.sched.timers ∧ t.cores = s.cores ∧ t.mem = s.mem := by
  let s1 := ((s.arrive (.gpack m)).setGang
    { g with ackd := g.ackd ++ [m.src], phase := 1, ends := s.now + 85000 }).untimer (.gangPrepareTimeout g.launch)
  let g1 : GangInit := { g with ackd := g.ackd ++ [m.src] }
  have hsent : OnlySends s1 (s1.gangAll g1 gcommitType 0) := gangAll_onlySends _ _ _ _
  refine ⟨(s1.gangAll g1 gcommitType 0).after 85000 (.gangStartTimeout g.launch), ?_, ?_, gangAll_told s1 g1 _ _, ?_,
    hsent.cores, hsent.mem⟩
  · simp only [exec_gpack, execGpack, arrive_gangOf, hg, all_answered hall]
    exact (if_neg (answer_open hp ht hs)).trans rfl
  · exact (gangOf_congr (t := (s1.gangAll g1 gcommitType 0).after _ _) hsent.fabric _).trans
      (gangOf_setGang (s := s.arrive (.gpack m)) hg rfl)
  · exact List.mem_append_right _ (List.mem_singleton.mpr (by rw [hsent.now]; rfl))

theorem exec_gpnak_of_late (ht : g.ends ≤ s.now) : exec (.gpnak m) s = .next (s.arrive (.gpnak m)) := by
  simp [execGpnak, hg, ht]

theorem exec_gpnak_fails (ht : s.now < g.ends) : exec (.gpnak m) s =
    .next ((s.arrive (.gpnak m)).failGang g (if g.phase = 0 then m.reason else 8) m.src) := by
  simp only [exec_gpnak, execGpnak, arrive_gangOf, hg]
  exact congrArg Host.Outcome.next (if_neg ht.not_ge)

theorem exec_gangPrepareTimeout_fails (hp : g.phase = 0) : exec (.gangPrepareTimeout m.launch) s =
    .next (s.failGang g 6 (((g.mods.find? (fun m => !g.ackd.contains m.1)).map (·.1)).getD 0)) := by
  simp only [exec_gangPrepareTimeout, execGangPrepareTimeout, hg, hp, if_true]

theorem exec_gangStartTimeout_fails (hp : g.phase = 1) : exec (.gangStartTimeout m.launch) s =
    .next (s.failGang g 7 (((g.mods.find? (fun m => !g.started.contains m.1)).map (·.1)).getD 0)) := by
  simp only [exec_gangStartTimeout, execGangStartTimeout, hg, hp, if_true]

/-- A GSTART in time is counted while a module has not enqueued. -/
theorem exec_gstart_counts (hp : g.phase = 1) (ht : s.now < g.ends) (hs : m.src ∉ g.started)
    (hw : ∃ x ∈ g.mods, x.1 ∉ g.started ∧ x.1 ≠ m.src) : ∃ t, exec (.gstart m) s = .next t ∧
      t.gangOf m.launch = some { g with started := g.started ++ [m.src] } ∧ t.cores = s.cores ∧ t.mem = s.mem := by
  refine ⟨(s.arrive (.gstart m)).setGang { g with started := g.started ++ [m.src] }, ?_, gangOf_setGang hg rfl, rfl, rfl⟩
  simp only [exec_gstart, execGstart, arrive_gangOf, hg, not_all_answered hw]
  exact (if_neg (answer_open hp ht hs)).trans rfl

end

/-! ## A gang launch that starts (R76, R448) -/

/-- A launch that every module has enqueued is gone from the initiator's list, and LAUNCH has its result. -/
def gangEnds (s : State) (g : GangInit) : State :=
  ((s.dropGang g.launch).untimer (.gangStartTimeout g.launch)).unitResult g.id g.d (launchWord 0 0 (gangIndex g.launch))

/-- The first completion sweep of a plain launch is due (R448). -/
def firstSweep (s : State) (g : GangInit) : State :=
  let c : CSweep :=
    { launch := gangIndex g.launch, num := 0, colour := false, accepted := true, sweeping := false, idles := 0, got := [],
      began := s.now, fail := false }
  ((s.setWork { s.work with csweeps := mput s.work.csweeps (gangIndex g.launch) c }).setLaunch (gangIndex g.launch)
    (fun l => { l with modules := g.mods.map (·.1) })).post (.csweepStart (gangIndex g.launch))

/-- What the last GSTART in time leaves of a state that it has reached. -/
def gangStarts (s : State) (g : GangInit) : State :=
  if (s.launchAt (gangIndex g.launch)).elim true Launch.ord then gangEnds s g else firstSweep (gangEnds s g) g

theorem exec_gstart_starts {m : GangMsg} {s : State} {g : GangInit} (hg : s.gangOf m.launch = some g) (hp : g.phase = 1)
    (ht : s.now < g.ends) (hs : m.src ∉ g.started) (hall : ∀ x ∈ g.mods, x.1 ∈ g.started ∨ x.1 = m.src) :
    exec (.gstart m) s = .next (gangStarts (s.arrive (.gstart m)) g) := by
  have hlaunch : (gangEnds (s.arrive (.gstart m)) g).launchAt (gangIndex g.launch) = s.launchAt (gangIndex g.launch) :=
    launchAt_congr (unitResult_work _ _ _ _) _
  simp only [exec_gstart, execGstart, arrive_gangOf, hg, all_answered hall]
  refine (if_neg (answer_open hp ht hs)).trans ?_
  unfold gangStarts
  rw [apply_ite Host.Outcome.next, arrive_launchAt, ← hlaunch]
  rfl

@[simp] theorem gangEnds_mem (s : State) (g : GangInit) : (gangEnds s g).mem = s.mem := unitResult_mem _ _ _ _
@[simp] theorem gangEnds_fabric (s : State) (g : GangInit) : (gangEnds s g).fabric = (s.dropGang g.launch).fabric :=
  unitResult_fabric _ _ _ _

theorem gangEnds_cell {s : State} {g : GangInit} (hf : s.forwarded g.id.core = g.id.core) (hd : g.d ≠ 0)
    (hp : ((s.slotAt g.id).cell g.d).pend = true) :
    ((gangEnds s g).slotAt g.id).cell g.d = ⟨w64 (gangIndex g.launch), true, false⟩ := by
  have hcell := unitResult_cell (s := (s.dropGang g.launch).untimer (.gangStartTimeout g.launch))
    (launchWord 0 0 (gangIndex g.launch)) hf hd hp
  simpa [gangEnds, launchWord] using hcell

@[simp] theorem firstSweep_mem (s : State) (g : GangInit) : (firstSweep s g).mem = s.mem := by simp [firstSweep]
@[simp] theorem firstSweep_cores (s : State) (g : GangInit) : (firstSweep s g).cores = s.cores := by simp [firstSweep]
@[simp] theorem firstSweep_fabric (s : State) (g : GangInit) : (firstSweep s g).fabric = s.fabric := by simp [firstSweep]

/-- The first sweep counts as accepted, so that it changes colour; none has been idle (R448). -/
theorem firstSweep_csweepOf (s : State) (g : GangInit) : ∃ c, (firstSweep s g).csweepOf (gangIndex g.launch) = some c ∧
    c.sweeping = false ∧ c.accepted = true ∧ c.idles = 0 := by
  have hput : (firstSweep s g).work.csweeps = _ := setLaunch_csweeps _ _ _
  simp only [State.csweepOf, hput, setWork_work, mget?_mput_self]
  exact ⟨_, rfl, rfl, rfl, rfl⟩

theorem firstSweep_due (s : State) (g : GangInit) :
    .csweepStart (gangIndex g.launch) ∈ (firstSweep s g).sched.inbox :=
  List.mem_append_right _ (List.mem_singleton.mpr rfl)

theorem gangStarts_mem (s : State) (g : GangInit) : (gangStarts s g).mem = s.mem := by
  unfold gangStarts
  split <;> simp

theorem gangStarts_gone (s : State) (g : GangInit) : (gangStarts s g).gangOf g.launch = none := by
  have hfabric : (gangStarts s g).fabric = (s.dropGang g.launch).fabric := by
    unfold gangStarts
    split <;> simp
  exact (gangOf_congr hfabric _).trans (gangOf_dropGang s g.launch)

theorem gangStarts_cell {s : State} {g : GangInit} (hf : s.forwarded g.id.core = g.id.core) (hd : g.d ≠ 0)
    (hp : ((s.slotAt g.id).cell g.d).pend = true) :
    ((gangStarts s g).slotAt g.id).cell g.d = ⟨w64 (gangIndex g.launch), true, false⟩ := by
  have hcores : (gangStarts s g).cores = (gangEnds s g).cores := by
    unfold gangStarts
    split <;> simp
  rw [slotAt_congr hcores, gangEnds_cell hf hd hp]

theorem gangStarts_sweeps {s : State} {g : GangInit} {l : Launch} (hl : s.launchAt (gangIndex g.launch) = some l)
    (ho : l.ord = false) : gangStarts s g = firstSweep (gangEnds s g) g := by
  simp [gangStarts, hl, ho]

/-- With the last GSTART in time the launch has started: LAUNCH has its result, and a plain launch its first completion
sweep (R76, R448). -/
theorem exec_gstart_last {m : GangMsg} {s : State} {g : GangInit} (hg : s.gangOf m.launch = some g) (hp : g.phase = 1)
    (ht : s.now < g.ends) (hs : m.src ∉ g.started) (hall : ∀ x ∈ g.mods, x.1 ∈ g.started ∨ x.1 = m.src) :
    ∃ t, exec (.gstart m) s = .next t ∧ t.gangOf m.launch = none ∧ t.mem = s.mem ∧
      (s.forwarded g.id.core = g.id.core → g.d ≠ 0 → ((s.slotAt g.id).cell g.d).pend = true →
        (t.slotAt g.id).cell g.d = ⟨w64 (gangIndex g.launch), true, false⟩) ∧
      (∀ l, s.launchAt (gangIndex g.launch) = some l → l.ord = false →
        (∃ c, t.csweepOf (gangIndex g.launch) = some c ∧ c.sweeping = false ∧ c.accepted = true ∧ c.idles = 0) ∧
        .csweepStart (gangIndex g.launch) ∈ t.sched.inbox) := by
  let s1 := s.arrive (.gstart m)
  refine ⟨gangStarts s1 g, exec_gstart_starts hg hp ht hs hall, ?_, gangStarts_mem s1 g, gangStarts_cell (s := s1),
    fun l hl ho => ?_⟩
  · rw [← launch_of_gangOf hg]
    exact gangStarts_gone s1 g
  · rw [gangStarts_sweeps (s := s1) hl ho]
    exact ⟨firstSweep_csweepOf _ g, firstSweep_due _ g⟩

/-! ## A gang launch that fails (R76, R77) -/

/-- A failed gang launch leaves the initiator's list, and its windows end. -/
def gangForgotten (s : State) (g : GangInit) : State :=
  ((s.dropGang g.launch).untimer (.gangPrepareTimeout g.launch)).untimer (.gangStartTimeout g.launch)

/-- Every module has GABORT before GCOMMIT, and GSTOP after it (R76). -/
def gangCalledOff (s : State) (g : GangInit) (reason : Nat) : State :=
  (gangForgotten s g).gangAll g (if g.phase = 0 then 6 else 7) reason

/-- A failed gang launch before its entry ends: the modules, the host and LAUNCH have been told (R76, R77). -/
def gangFails (s : State) (g : GangInit) (reason mod : Nat) : State :=
  (((gangCalledOff s g reason).setLaunch (gangIndex g.launch) (fun l => { l with fail := true })).event 2
    ((s.launchAt (gangIndex g.launch)).elim 0 Launch.job) g.launch (w64 (mod * 2 ^ 16 + reason))
      (w64 (gangIndex g.launch)) 0).unitResult g.id g.d (launchWord 4 reason (gangIndex g.launch))

theorem failGang_eq (s : State) (g : GangInit) (reason mod : Nat) : s.failGang g reason mod =
    if g.phase = 0 then ((gangFails s g reason mod).setLaunch (gangIndex g.launch)
      (fun l => { l with count := 0 })).endLaunch (gangIndex g.launch) 5
    else gangFails s g reason mod := rfl

theorem gangCalledOff_onlySends (s : State) (g : GangInit) (reason : Nat) :
    OnlySends (gangForgotten s g) (gangCalledOff s g reason) := gangAll_onlySends _ _ _ _

@[simp] theorem gangCalledOff_fabric (s : State) (g : GangInit) (reason : Nat) :
    (gangCalledOff s g reason).fabric = (s.dropGang g.launch).fabric := (gangCalledOff_onlySends s g reason).fabric
@[simp] theorem gangCalledOff_mem (s : State) (g : GangInit) (reason : Nat) : (gangCalledOff s g reason).mem = s.mem :=
  (gangCalledOff_onlySends s g reason).mem
@[simp] theorem gangCalledOff_cores (s : State) (g : GangInit) (reason : Nat) :
    (gangCalledOff s g reason).cores = s.cores := (gangCalledOff_onlySends s g reason).cores
@[simp] theorem gangCalledOff_work (s : State) (g : GangInit) (reason : Nat) : (gangCalledOff s g reason).work = s.work :=
  (gangCalledOff_onlySends s g reason).work
@[simp] theorem gangCalledOff_host (s : State) (g : GangInit) (reason : Nat) : (gangCalledOff s g reason).host = s.host :=
  (gangCalledOff_onlySends s g reason).host
@[simp] theorem gangCalledOff_stamp (s : State) (g : GangInit) (reason : Nat) :
    (gangCalledOff s g reason).sched.stamp = s.sched.stamp := (gangCalledOff_onlySends s g reason).now

section
variable (s : State) (g : GangInit) (reason mod : Nat)

theorem gangFails_fabric : (gangFails s g reason mod).fabric = (s.dropGang g.launch).fabric := by simp [gangFails]

theorem gangFails_mem : (gangFails s g reason mod).mem = s.mem := by simp [gangFails]

theorem gangFails_told : ∀ x ∈ g.mods, GangTold (gangFails s g reason mod) x.1 (if g.phase = 0 then 6 else 7)
    (gangMsg s s.fabric.self g.launch g.part reason) := by
  intro x hx
  have htold : GangTold (gangCalledOff s g reason) x.1 (if g.phase = 0 then 6 else 7)
      (gangMsg s s.fabric.self g.launch g.part reason) := gangAll_told (gangForgotten s g) g _ reason x hx
  refine gangTold_mono htold ?_ ?_ ?_ <;> simp [gangFails]

theorem gangFails_launchAt : (gangFails s g reason mod).launchAt (gangIndex g.launch) =
    (s.launchAt (gangIndex g.launch)).map (fun l => { l with fail := true }) := by
  rw [gangFails, launchAt_congr (unitResult_work _ _ _ _), launchAt_congr (event_work _ _ _ _ _ _ _), launchAt_setLaunch,
    launchAt_congr (gangCalledOff_work s g reason)]

theorem gangFails_cell (hf : s.forwarded g.id.core = g.id.core) (hd : g.d ≠ 0)
    (hp : ((s.slotAt g.id).cell g.d).pend = true) : ((gangFails s g reason mod).slotAt g.id).cell g.d =
      ⟨w64 (4 * 2 ^ 56 + reason * 2 ^ 48 + gangIndex g.launch), true, false⟩ := by
  refine unitResult_cell _ ?_ hd ?_
  · exact (forwarded_congr (by simp) _).trans hf
  · rwa [slotAt_congr (s := s) (by simp)]

/-- The host has EVENT 2 with the launch, the module, the reason and the launch index (R77, R88). -/
theorem gangFails_d2h (hroom : s.host.d2h.length < 1024) : (gangFails s g reason mod).host.d2h = s.host.d2h ++
    [⟨msgHead 0x83 2 ((s.launchAt (gangIndex g.launch)).elim 0 Launch.job) 0, w64 s.now, g.launch,
      w64 (mod * 2 ^ 16 + reason), w64 (gangIndex g.launch), 0, 0, 0⟩] := by
  rw [gangFails, unitResult_host, event_d2h (by simpa using hroom)]
  simp [State.now]

/-- What is left of a failed launch's entry: a state that differs from `gangFails` in the launches alone (R76, R77). -/
theorem gangFailed_of_gangFails {x : State} (hfabric : x.fabric = (gangFails s g reason mod).fabric)
    (hsched : x.sched = (gangFails s g reason mod).sched) (hcores : x.cores = (gangFails s g reason mod).cores)
    (hhost : x.host = (gangFails s g reason mod).host) (hmem : x.mem = (gangFails s g reason mod).mem)
    (hfail : ∀ l, s.launchAt (gangIndex g.launch) = some l → ∃ l', x.launchAt (gangIndex g.launch) = some l' ∧
      l'.fail = true ∧ (g.phase = 0 → l'.count = 0)) : GangFailed s x g reason mod where
  gone := by rw [gangOf_congr (hfabric.trans (gangFails_fabric s g reason mod)), gangOf_dropGang]
  told := fun m hm => gangTold_mono (gangFails_told s g reason mod m hm) (by rw [hfabric]) (by simp [hsched])
    (by simp [hsched])
  fail := hfail
  result := fun hf hd hp => by rw [slotAt_congr hcores, gangFails_cell s g reason mod hf hd hp]
  host := fun hroom => by rw [hhost, gangFails_d2h s g reason mod hroom]
  mem := by rw [hmem, gangFails_mem]

theorem failGang_fails : ∃ x, GangFailed s x g reason mod ∧
    s.failGang g reason mod = if g.phase = 0 then x.endLaunch (gangIndex g.launch) 5 else x := by
  have hlaunch := gangFails_launchAt s g reason mod
  rw [failGang_eq]
  by_cases hp : g.phase = 0
  · refine ⟨(gangFails s g reason mod).setLaunch (gangIndex g.launch) (fun l => { l with count := 0 }),
      gangFailed_of_gangFails s g reason mod (by simp) (by simp) (by simp) (by simp) (by simp) ?_, by simp [hp]⟩
    intro l hl
    exact ⟨{ l with fail := true, count := 0 }, by simp [launchAt_setLaunch, hlaunch, hl], rfl, fun _ => rfl⟩
  · refine ⟨gangFails s g reason mod, gangFailed_of_gangFails s g reason mod rfl rfl rfl rfl rfl ?_, by simp [hp]⟩
    intro l hl
    exact ⟨{ l with fail := true }, by simp [hlaunch, hl], rfl, fun h => absurd h hp⟩

end

/-! ## What a module does with its reservation (R76 step 3, R78) -/

@[simp] theorem dropPrep_host (s : State) (init : Nat) (launch : Word) : (s.dropPrep init launch).host = s.host := rfl
@[simp] theorem dropPrep_launchAt (s : State) (init : Nat) (launch : Word) (i : Nat) :
    (s.dropPrep init launch).launchAt i = s.launchAt i := rfl
@[simp] theorem setMem_launchAt (s : State) (x : Mem) (i : Nat) : (s.setMem x).launchAt i = s.launchAt i := rfl

theorem exec_gcommit_of_none {m : GangMsg} {s : State} (h : s.prepOf m.init m.launch = none) : exec (.gcommit m) s =
    .next ((s.arrive (.gcommit m)).gangSend m.init gpnakType (gangMsg s m.init m.launch m.part 4)) := by
  simp only [exec_gcommit, execGcommit, arrive_prepOf, h]
  rfl

theorem exec_gabort_of_none {m : GangMsg} {s : State} (h : s.prepOf m.init m.launch = none) :
    exec (.gabort m) s = .next (s.arrive (.gabort m)) := by
  simp [execGabort, h]

theorem exec_gangTaskFetchDone_of_none {init : Nat} {launch : Word} {s : State} (h : s.prepOf init launch = none) :
    exec (.gangTaskFetchDone init launch) s = .next s := by
  simp [execGangTaskFetchDone, h]

theorem exec_orphanTimeout_of_none {init : Nat} {launch : Word} {s : State} (h : s.prepOf init launch = none) :
    exec (.orphanTimeout init launch) s = .next s := by
  simp [execOrphanTimeout, h]

/-- The refusal of a GCOMMIT that meets no reservation enqueues nothing (R78). -/
theorem gcommitRefusal_told (m : GangMsg) (s : State) (e : Ev) :
    let t := (s.arrive e).gangSend m.init gpnakType (gangMsg s m.init m.launch m.part 4)
    t.fabric = s.fabric ∧ t.cores = s.cores ∧ GangTold t m.init 3 (gangMsg s m.init m.launch m.part 4) :=
  ⟨by simp, by simp, gangSend_told _ _ _ _⟩

/-- What the initiator has been sent is still sent once the reservation is gone. -/
theorem gangTold_dropPrep (u : State) (m : GangMsg) (part : Nat) :
    let t := (u.gangSend m.init gstartType (gangMsg u m.init m.launch part 0)).dropPrep m.init m.launch
    GangTold t m.init 5 (gangMsg t m.init m.launch part 0) := by
  intro t
  let sent := u.gangSend m.init gstartType (gangMsg u m.init m.launch part 0)
  have hself : sent.fabric.self = u.fabric.self := by simp [sent]
  rw [gangMsg_congr (show t.fabric.self = u.fabric.self from hself)]
  exact gangTold_mono (gangSend_told u m.init gstartType _) rfl (fun _ => id) (fun _ => id)

section
variable {m : GangMsg} {s : State} {p : Prep} (hp : s.prepOf m.init m.launch = some p)
include hp

/-- A GCOMMIT in time begins the task fetch, and the reservation no longer runs out (R76 step 3). -/
theorem exec_gcommit_fetches (hst : p.st = 1) (ht : s.now < p.at_ + 340000) : ∃ t, exec (.gcommit m) s = .next t ∧
    t.prepOf m.init m.launch = some { p with st := 2 } ∧ .gangTaskFetchDone m.init m.launch ∈ t.sched.inbox ∧
    (∀ x ∈ t.sched.timers, x.ev ≠ .orphanTimeout m.init m.launch) ∧ t.cores = s.cores ∧ t.mem = s.mem := by
  refine ⟨(((s.arrive (.gcommit m)).setPrep { p with st := 2 }).untimer (.orphanTimeout m.init m.launch)).post
    (.gangTaskFetchDone m.init m.launch), ?_, prepOf_setPrep (s := s.arrive (.gcommit m)) hp rfl rfl,
    List.mem_append_right _ (List.mem_singleton.mpr rfl), ?_, rfl, rfl⟩
  · simp only [exec_gcommit, execGcommit, arrive_prepOf, hp]
    exact if_pos (by simp [hst, ht])
  · intro x hx
    exact bne_iff_ne.mp (List.mem_filter.mp hx).2

theorem exec_gcommit_refused (hc : p.st ≠ 1 ∨ p.at_ + 340000 ≤ s.now) : exec (.gcommit m) s =
    .next ((s.arrive (.gcommit m)).gangSend m.init gpnakType (gangMsg s m.init m.launch m.part 4)) := by
  simp only [exec_gcommit, execGcommit, arrive_prepOf, hp]
  refine if_neg ?_
  rcases hc with hc | hc
  · simp [hc]
  · simp [Nat.not_lt.mpr hc]

theorem exec_gabort_releases (hst : p.st = 1) :
    exec (.gabort m) s = .next ((s.arrive (.gabort m)).dropPrep m.init m.launch) := by
  simp [execGabort, hp, hst]

/-- A reservation that nobody has claimed is released, and the host has EVENT 3 with the launch, its initiator and its
partition (R78, R88). -/
theorem exec_orphanTimeout_releases (hst : p.st = 1) : ∃ t, exec (.orphanTimeout m.init m.launch) s = .next t ∧
    t.prepOf m.init m.launch = none ∧ (s.host.d2h.length < 1024 → t.host.d2h = s.host.d2h ++
      [⟨w64 (0x83 * 2 ^ 56 + 3 * 2 ^ 48), w64 s.now, m.launch, w64 (m.init * 2 ^ 32 + p.part * 2 ^ 16), 0, 0, 0, 0⟩]) := by
  refine ⟨(s.dropPrep m.init m.launch).event 3 0 m.launch (w64 (m.init * 2 ^ 32 + p.part * 2 ^ 16)) 0 0, ?_, ?_,
    fun hroom => ?_⟩
  · simp [execOrphanTimeout, hp, hst]
  · rw [prepOf_congr (event_fabric _ _ _ _ _ _ _), prepOf_dropPrep]
  · rw [event_d2h (by simpa using hroom)]
    rfl

theorem exec_orphanTimeout_of_claimed (hst : p.st ≠ 1) : exec (.orphanTimeout m.init m.launch) s = .next s := by
  simp [execOrphanTimeout, hp, hst]

/-- A task fetch that waits for a line comes again (R76 step 3). -/
theorem exec_gangTaskFetchDone_waits {s1 : State} (hst : p.st = 2)
    (hread : readGang ⟨unitLaunch, p.job, true⟩ s.fabric.self p.desc s = .wait s1) :
    exec (.gangTaskFetchDone m.init m.launch) s = .next (s1.after 1 (.gangTaskFetchDone m.init m.launch)) := by
  simp [execGangTaskFetchDone, hp, hst, hread]

/-- Once everything is read and every queue has room, the tasks are enqueued and the initiator has GSTART (R76 step 3). -/
theorem exec_gangTaskFetchDone_starts {l ps ts : List Byte} {s1 : State} (hst : p.st = 2)
    (hread : readGang ⟨unitLaunch, p.job, true⟩ s.fabric.self p.desc s = .ok (l, ps, ts) s1)
    (hroom : ∀ x ∈ gangPackets ps ts (ts.length / 4), queueFull s1 (clusterOf x.2) = false) :
    ∃ t, exec (.gangTaskFetchDone m.init m.launch) s = .next t ∧ t.prepOf m.init m.launch = none ∧
      GangTold t m.init 5 (gangMsg t m.init m.launch p.part 0) := by
  have hfull : ((gangPackets ps ts (ts.length / 4)).any fun x => queueFull s1 (clusterOf x.2)) = false :=
    List.any_eq_false.mpr (fun x hx => by simp [hroom x hx])
  simp only [exec_gangTaskFetchDone, execGangTaskFetchDone, hp, hread, hfull]
  exact ⟨_, (if_neg (by simp [hst])).trans rfl, prepOf_dropPrep _ _ _, gangTold_dropPrep _ m p.part⟩

end

/-! ## GSTOP (R76 step 4) -/

/-- A GSTOP releases the reservation and withdraws a waiting task fetch, whatever runs of the launch. -/
def gangWithdrawn (m : GangMsg) (s : State) : State :=
  let s := (s.arrive (.gstop m)).dropPrep m.init m.launch
  s.setMem { s.mem with replay := s.mem.replay.filter (fun r => r.what != .gang m.init m.launch) }

theorem gangWithdrawn_prepOf (m : GangMsg) (s : State) : (gangWithdrawn m s).prepOf m.init m.launch = none :=
  prepOf_dropPrep (s.arrive (.gstop m)) m.init m.launch

theorem exec_gstop_withdraws {m : GangMsg} {s : State} (h : ∀ l, s.launchAt (gangIndex m.launch) = some l →
    l.init ≠ m.init ∨ l.multi = false ∨ l.st ≠ 2) : exec (.gstop m) s = .next (gangWithdrawn m s) := by
  simp only [exec_gstop, execGstop, setMem_launchAt, dropPrep_launchAt, arrive_launchAt]
  cases hl : s.launchAt (gangIndex m.launch) with
  | none => rfl
  | some l => exact if_pos (by simpa [or_assoc] using h l hl)

theorem exec_gstop_stops {m : GangMsg} {s : State} {l : Launch} (h : s.launchAt (gangIndex m.launch) = some l)
    (hi : l.init = m.init) (hm : l.multi = true) (hst : l.st = 2) : exec (.gstop m) s =
      .next ((((((gangWithdrawn m s).gangStop ⟨m.init, l.part, some (gangIndex m.launch), false⟩ none).cancelLaunch
        (gangIndex m.launch)).stopEnds ⟨m.init, l.part, some (gangIndex m.launch), false⟩).setLaunch (gangIndex m.launch)
          (fun l => { l with fail := true })).endLaunch (gangIndex m.launch) 5) := by
  simp only [exec_gstop, execGstop, setMem_launchAt, dropPrep_launchAt, arrive_launchAt, h]
  exact if_neg (by simp [hi, hm, hst])

/-! ## The statement -/

/-- Settles O54: each clause is what one message or timer does, in the order of the protocol. -/
theorem gangLaunch : Obligations.GangLaunch := by
  unfold Obligations.GangLaunch
  refine ⟨fun m s => ?_, fun m s => ?_, failGang_fails, fun m s => ?_, fun m s h => ?_, fun m s l h hi hm hst => ?_⟩
  · exact ⟨gprepReason_of_noClusters, gprepReason_of_deadKey, room_of_gprepReason, exec_gprep_reserves, exec_gprep_refuses⟩
  · refine ⟨fun h => ⟨exec_gpack_of_none h, exec_gpnak_of_none h, exec_gstart_of_none h,
      exec_gangPrepareTimeout_of_none h, exec_gangStartTimeout_of_none h⟩, fun g hg => ?_⟩
    exact ⟨exec_gpack_of_closed hg, exec_gstart_of_closed hg,
      fun hp ht hs => ⟨exec_gpack_counts hg hp ht hs, exec_gpack_commits hg hp ht hs⟩,
      fun hp ht hs => ⟨exec_gstart_counts hg hp ht hs, exec_gstart_last hg hp ht hs⟩,
      exec_gpnak_of_late hg, exec_gpnak_fails hg, exec_gangPrepareTimeout_fails hg, exec_gangStartTimeout_fails hg⟩
  · refine ⟨fun h => ⟨⟨_, exec_gcommit_of_none h, gcommitRefusal_told m s _⟩, exec_gabort_of_none h,
      exec_gangTaskFetchDone_of_none h, exec_orphanTimeout_of_none h⟩, fun p hp => ?_⟩
    exact ⟨exec_gcommit_fetches hp, fun hc => ⟨_, exec_gcommit_refused hp hc, gcommitRefusal_told m s _⟩,
      fun hst => ⟨_, exec_gabort_releases hp hst, prepOf_dropPrep (s.arrive (.gabort m)) _ _, rfl, rfl⟩,
      exec_orphanTimeout_releases hp, exec_orphanTimeout_of_claimed hp,
      fun hst _ _ _ _ hread hroom => exec_gangTaskFetchDone_starts hp hst hread hroom,
      fun hst _ hread => exec_gangTaskFetchDone_waits hp hst hread⟩
  · exact ⟨_, exec_gstop_withdraws h, gangWithdrawn_prepOf m s, rfl, rfl, rfl⟩
  · exact ⟨gangWithdrawn m s, gangWithdrawn_prepOf m s, h, rfl, exec_gstop_stops h hi hm hst⟩

end Sys2Proof.Gang
end

section
/-! PROOF. Integer and float instructions (spec 13 R313 to R329): an instruction of a form writes that form's result, a
division has its result in flight, and the values of divisions and rotations in the terms of N-bit words. -/

namespace Sys2Proof.Scalar

open Sys2Proof Sys2Proof.Machine Sys2Proof.Safety

/-! ## Results of latency one -/

/-- Wherever the instruction is ready and its destination lies in the allocation, it writes the result of the form
and does nothing else. -/
def Gives (i : Instr) (f : RegForm) : Prop :=
  ∀ s : State, Ready s f.demand → f.d.toNat < s.me.task.nregs →
    ∃ t, exec i s = .next t ∧ Wrote s t f.demand f.d.toNat f.tr (f.value (s.vals f.demand))

theorem gives_form3 {i : Instr} {o : Ops3} {third : Bool} {g : Word → Word → Word → Word}
    (he : ∀ s, exec i s = alu3 o third g s) : Gives i (form3 o third g) :=
  fun s hr hd => form3_result (he s) hr hd

theorem gives_form2 {i : Instr} {o : Ops2} {g : Word → Word} (he : ∀ s, exec i s = alu2 o g s) :
    Gives i (form2 o g) :=
  fun s hr hd => form2_result (he s) hr hd

theorem gives_formI {i : Instr} {d a : Reg} {sa : Bool} {g : Word → Word} (he : ∀ s, exec i s = aluI d a sa g s) :
    Gives i (formI d a sa g) :=
  fun s hr _ => formI_result (he s) hr

/-- For the long immediates, which have no operand form of their own (R320). -/
theorem gives_of_issue {i : Instr} {f : RegForm}
    (he : ∀ s, exec i s = issue s f.demand noChecks fun v sl =>
      .next (s.retire (s.writeT sl f.d.toNat f.tr (f.value v)))) : Gives i f := by
  intro s hr _
  rw [he, issue_ready hr rfl]
  exact ⟨_, rfl, wrote_retire s f.demand f.d.toNat f.d.isLt f.tr _⟩

theorem gives_of_integerForm {i : Instr} {f : RegForm} (hf : integerForm i = some f) : Gives i f := by
  cases i with
  | abs | clz | ctz | popc | brev | bswap | sext | zext =>
    cases hf
    exact gives_form2 fun _ => rfl
  | add | sub | mul | mulh | mulhn | madd | min | max | minn | maxn | and | or | xor | andn | orn | xnor | shl | shr
  | sar | rol | ror | bext | bins | addsc =>
    cases hf
    exact gives_form3 fun _ => rfl
  | _ => cases hf

theorem gives_of_compareForm {i : Instr} {f : RegForm} (hf : compareForm i = some f) : Gives i f := by
  cases i with
  | cmpeq | cmpne | cmplt | cmpltn | cmple | cmplen | sel =>
    cases hf
    exact gives_form3 fun _ => rfl
  | addi | andi | ori | xori | shli | shri | sari | cmpeqi | cmplti | muli =>
    cases hf
    exact gives_formI fun _ => rfl
  | ldi | ldih =>
    cases hf
    exact gives_of_issue fun _ => rfl
  | _ => cases hf

theorem gives_of_floatForm {i : Instr} {f : RegForm} (hf : floatForm i = some f) : Gives i f := by
  cases i with
  | fabs | fneg | fclass | fcvt | fcvti | icvtf | frnd =>
    cases hf
    exact gives_form2 fun _ => rfl
  | fadd | fsub | fmul | ffma | fmin | fmax | fcpys | fcmpeq | fcmplt | fcmple | fcmpun =>
    cases hf
    exact gives_form3 fun _ => rfl
  | _ => cases hf

/-! ## Results in flight (R221) -/

@[simp] theorem after_me (s : State) (n : Nat) (e : Ev) : (s.after n e).me = s.me := rfl

@[simp] theorem advance_late (sl : Slot) (ir : Fetched) : (sl.advance ir).late = sl.late := goTo_late _ _ _ _ _

/-- A ready instruction of several rotations goes on at once, leaves its destination's cell and has its result in flight. -/
theorem exec_of_aluLate {i : Instr} {s : State} {d : Reg} {m : Demand} {tr : Bool} {n : Nat} {g : Word → Word → Word}
    {v : Word} (he : exec i s = aluLate d m tr n g s) (ht : tr = false) (hr : Ready s m)
    (hd : d.toNat < s.me.task.nregs) (hv : g (s.vals m).a (s.vals m).b = v) :
    ∃ t, exec i s = .next t ∧ t.me.pc = s.sched.ir.npc ∧ (∀ r, t.me.cell r = cellAfter s m r) ∧
      (d ≠ 0 → t.me.late.getLast? = some ⟨d.toNat, v, s.now + 16 * n⟩ ∧
        t.sched.timers = s.sched.timers ++ [⟨s.now + 16 * n, .multiRotationResult s.sched.cur⟩]) := by
  subst ht hv
  rw [he, aluLate, issue_ready hr (by simpa using hd)]
  refine ⟨_, rfl, ?_, fun r => ?_, fun h0 => ⟨?_, rfl⟩⟩
  · rw [after_me, retire_me, advance_pc]
  · rw [after_me, retire_me, advance_cell]
    split <;> split <;> rfl
  · rw [after_me, retire_me, advance_late, if_neg h0, List.getLast?_concat]

/-! ## Divisions (R314) -/

theorem divS_eq_fin (w : BitVec 2) (a b : Word) :
    divS w a b = fin w (if uOf w b = 0 then -1 else Int.tdiv (sOf w a) (sOf w b)) :=
  (apply_ite (fin w) _ _ _).symm

theorem divU_eq_fin (w : BitVec 2) (a b : Word) :
    divU w a b = fin w (if uOf w b = 0 then 2 ^ widthOf w - 1 else (uOf w a / uOf w b : Nat)) :=
  (apply_ite (fin w) _ _ _).symm

/-- The remainder that the rule writes out is that of the division which truncates. -/
theorem remS_eq_fin (w : BitVec 2) (a b : Word) : remS w a b =
    fin w (if uOf w b = 0 then sOf w a else sOf w a - sOf w b * Int.tdiv (sOf w a) (sOf w b)) := by
  rw [← Int.tmod_def]
  exact (apply_ite (fin w) _ _ _).symm

theorem remU_eq_fin (w : BitVec 2) (a b : Word) :
    remU w a b = fin w (if uOf w b = 0 then (uOf w a : Int) else (uOf w a % uOf w b : Nat)) :=
  (apply_ite (fin w) _ _ _).symm

/-- The one overflow of a signed division wraps, as that of words does. -/
theorem ofInt_tdiv_toInt {n : Nat} (a b : BitVec n) : BitVec.ofInt n (a.toInt.tdiv b.toInt) = a.sdiv b :=
  BitVec.eq_of_toInt_eq ((BitVec.toInt_ofInt _).trans (BitVec.toInt_sdiv a b).symm)

theorem ofInt_tmod_toInt {n : Nat} (a b : BitVec n) : BitVec.ofInt n (a.toInt.tmod b.toInt) = a.srem b := by
  rw [← BitVec.toInt_srem, BitVec.ofInt_toInt]

theorem ofInt_div_toNat {n : Nat} (a b : BitVec n) : BitVec.ofInt n (a.toNat / b.toNat : Nat) = a / b :=
  (BitVec.ofInt_natCast n _).trans BitVec.udiv_def.symm

theorem ofInt_mod_toNat {n : Nat} (a b : BitVec n) : BitVec.ofInt n (a.toNat % b.toNat : Nat) = a % b :=
  (BitVec.ofInt_natCast n _).trans BitVec.umod_def.symm

/-! ## Rotations (R315) -/

theorem rolN_eq {n : Nat} (x c : Nat) (hn : 0 < n) :
    rolN n x c = 2 ^ (c % n) * (x % 2 ^ (n - c % n)) + x / 2 ^ (n - c % n) := by
  have hk : c % n < n := Nat.mod_lt c hn
  rw [rolN, ← Nat.mul_mod_mul_left, ← pow_add, Nat.add_sub_cancel' hk.le, Nat.mul_comm x]

theorem testBit_rolN {n x i : Nat} (c : Nat) (hx : x < 2 ^ n) (hi : i < n) :
    (rolN n x c).testBit i = x.testBit ((i + (n - c % n)) % n) := by
  have hk : c % n < n := Nat.mod_lt c (by omega)
  have hhigh : x / 2 ^ (n - c % n) < 2 ^ (c % n) := by
    rw [Nat.div_lt_iff_lt_mul (by positivity), ← pow_add, Nat.add_sub_cancel' hk.le]
    exact hx
  rw [rolN_eq x c (by omega), Nat.testBit_two_pow_mul_add _ hhigh]
  split
  case isTrue h => rw [Nat.testBit_div_two_pow, Nat.mod_eq_of_lt (by omega : i + (n - c % n) < n)]
  case isFalse h =>
    have hm : (i + (n - c % n)) % n = i - c % n := by
      rw [Nat.mod_eq_sub_mod (by omega), Nat.mod_eq_of_lt (by omega)]
      omega
    rw [Nat.testBit_mod_two_pow, hm, decide_eq_true (by omega), Bool.true_and]

theorem getLsbD_fin_natCast (w : BitVec 2) (m : Nat) {i : Nat} (hi : i < widthOf w) :
    (fin w (m : Int)).getLsbD i = m.testBit i := by
  unfold widthOf at hi
  unfold fin
  rw [BitVec.ofInt_natCast, BitVec.ofInt_natCast]
  split at hi
  case isTrue h => simp only [if_pos h, BitVec.getLsbD_ofNat, hi, decide_true, Bool.true_and]
  case isFalse h =>
    have hi64 : i < 64 := by omega
    rw [if_neg h]
    split <;> simp only [BitVec.getLsbD_signExtend, BitVec.getLsbD_setWidth, BitVec.getLsbD_ofNat, hi, hi64, if_true,
      decide_true, Bool.true_and]

theorem uOf_lt (w : BitVec 2) (a : Word) : uOf w a < 2 ^ widthOf w := by
  unfold uOf widthOf
  split <;> exact BitVec.isLt _

theorem testBit_uOf (w : BitVec 2) (a : Word) {j : Nat} (hj : j < widthOf w) :
    (uOf w a).testBit j = a.getLsbD j := by
  unfold widthOf at hj
  unfold uOf
  split at hj
  case isTrue h => rw [if_pos h, BitVec.testBit_toNat]
  case isFalse h => rw [if_neg h, BitVec.testBit_toNat, BitVec.getLsbD_setWidth, decide_eq_true hj, Bool.true_and]

theorem getLsbD_fin_rolN (w : BitVec 2) (a : Word) (c : Nat) {i : Nat} (hi : i < widthOf w) :
    (fin w (rolN (widthOf w) (uOf w a) c : Nat)).getLsbD i
      = a.getLsbD ((i + (widthOf w - c % widthOf w)) % widthOf w) := by
  rw [getLsbD_fin_natCast w _ hi, testBit_rolN c (uOf_lt w a) hi, testBit_uOf w a (Nat.mod_lt _ (by omega))]

/-- A rotation to the right is one to the left by the complement of its count. -/
theorem add_complement_mod {n : Nat} (c i : Nat) (hn : 0 < n) : (i + (n - (n - c % n) % n)) % n = (i + c) % n := by
  have hk : c % n < n := Nat.mod_lt c hn
  rcases Nat.eq_zero_or_pos (c % n) with h0 | hpos
  · rw [h0, Nat.sub_zero, Nat.mod_self, Nat.sub_zero, Nat.add_mod_right, Nat.add_mod i c, h0, Nat.add_zero, Nat.mod_mod]
  · rw [Nat.mod_eq_of_lt (by omega : n - c % n < n), Nat.sub_sub_self hk.le, Nat.add_mod_mod]

/-! ## The statements -/

/-- Settles O7: every instruction of the two tables runs the operand form that its row has. -/
theorem integerResults : Obligations.IntegerResults := by
  unfold Obligations.IntegerResults
  rintro i f s (hf | hf)
  · exact gives_of_integerForm hf s
  · exact gives_of_compareForm hf s

/-- Settles O8: every instruction of the float table runs the operand form that its row has. -/
theorem floatResults : Obligations.FloatResults := by
  unfold Obligations.FloatResults
  exact fun i f s hf => gives_of_floatForm hf s

/-- Settles O11: the four divisions as results in flight, and their values as those of words of 64 and of 32 bits. -/
theorem divisionCorners : Obligations.DivisionCorners := by
  unfold Obligations.DivisionCorners
  refine ⟨fun o w s ht hr => ?_, fun a b hb => ?_, fun a b hb => ?_⟩
  · have hd : o.d.toNat < s.me.task.nregs := hr.named _ (by simp [Demand.names, demand3])
    exact ⟨exec_of_aluLate (n := 4) rfl ht hr hd (divS_eq_fin w _ _),
      exec_of_aluLate (n := 4) rfl ht hr hd (divU_eq_fin w _ _),
      exec_of_aluLate (n := 4) rfl ht hr hd (remS_eq_fin w _ _),
      exec_of_aluLate (n := 4) rfl ht hr hd (remU_eq_fin w _ _)⟩
  · have h0 : uOf 0 b ≠ 0 := fun h => hb (BitVec.eq_of_toNat_eq h)
    exact ⟨(if_neg h0).trans (ofInt_tdiv_toInt a b), (if_neg h0).trans (ofInt_tmod_toInt a b),
      (if_neg h0).trans (ofInt_div_toNat a b), (if_neg h0).trans (ofInt_mod_toNat a b)⟩
  · have h1 : uOf 1 b ≠ 0 := fun h => hb (BitVec.eq_of_toNat_eq h)
    have h2 : uOf 2 b ≠ 0 := h1
    exact ⟨(if_neg h1).trans (congrArg (BitVec.signExtend 64) (ofInt_tdiv_toInt _ _)),
      (if_neg h1).trans (congrArg (BitVec.signExtend 64) (ofInt_tmod_toInt _ _)),
      (if_neg h2).trans (congrArg (BitVec.zeroExtend 64) (ofInt_div_toNat (a.truncate 32) (b.truncate 32))),
      (if_neg h2).trans (congrArg (BitVec.zeroExtend 64) (ofInt_mod_toNat (a.truncate 32) (b.truncate 32)))⟩

/-- Settles O12: the results are those of O7's table, and the bits of a rotation those of the sum that makes it. -/
theorem shiftResults : Obligations.ShiftResults := by
  unfold Obligations.ShiftResults
  refine ⟨fun o w s hr hd => ⟨?_, ?_, ?_, ?_, ?_⟩, fun w a c i _ hi => ⟨?_, ?_⟩⟩
  · exact gives_of_integerForm (i := .shl o w) rfl s hr hd
  · exact gives_of_integerForm (i := .shr o w) rfl s hr hd
  · exact gives_of_integerForm (i := .sar o w) rfl s hr hd
  · exact gives_of_integerForm (i := .rol o w) rfl s hr hd
  · exact gives_of_integerForm (i := .ror o w) rfl s hr hd
  · exact getLsbD_fin_rolN w a c hi
  · rw [getLsbD_fin_rolN w a _ hi, add_complement_mod c i (by omega)]

end Sys2Proof.Scalar
end

section
/-! PROOF. Traps (spec 16 R416): what the results in flight leave of a slot when they are written, the two ways of taking
a trap, and ERET in and out of one. -/

namespace Sys2Proof.Traps

open Sys2Proof Sys2Proof.Machine Sys2Proof.Safety

/-! ## Results in flight that are written (R221) -/

/-- Writing a list of results changes registers, with their latches and expired marks, and nothing else. -/
theorem foldl_setG_keeps (l : List Late) (sl : Slot) :
    ∃ regs latches expired, l.foldl (fun a x => a.setG x.reg x.val) sl
      = { sl with regs := regs, latches := latches, expired := expired } := by
  induction l generalizing sl with
  | nil => exact ⟨_, _, _, rfl⟩
  | cons x l ih =>
    obtain ⟨regs, latches, expired, h⟩ := ih (sl.setG x.reg x.val)
    refine ⟨regs, latches, expired, ?_⟩
    rw [List.foldl_cons, h, setG_keeps]

theorem finishLate_keeps (sl : Slot) :
    ∃ regs latches expired, sl.finishLate
      = { sl with regs := regs, latches := latches, expired := expired, late := [] } := by
  obtain ⟨regs, latches, expired, h⟩ := foldl_setG_keeps sl.late sl
  exact ⟨regs, latches, expired, by rw [Slot.finishLate, h]⟩

@[simp] theorem finishLate_task (sl : Slot) : sl.finishLate.task = sl.task := by
  obtain ⟨_, _, _, h⟩ := finishLate_keeps sl
  rw [h]

@[simp] theorem finishLate_sup (sl : Slot) : sl.finishLate.sup = sl.sup := by
  obtain ⟨_, _, _, h⟩ := finishLate_keeps sl
  rw [h]

@[simp] theorem finishLate_intrap (sl : Slot) : sl.finishLate.intrap = sl.intrap := by
  obtain ⟨_, _, _, h⟩ := finishLate_keeps sl
  rw [h]

/-! ## Transients that expire (R226) -/

@[simp] theorem expireAll_intrap (sl : Slot) : sl.expireAll.intrap = sl.intrap := rfl

/-! ## Taking a trap (R416, R417) -/

section
variable {s : State} {id : SlotId}

/-- What taking a trap asks of the slot, once its results are written, it asks of the slot as it stands. -/
theorem takeTrap_test :
    ((s.slotAt id).finishLate.expireAll.intrap || (s.coreAt id.core).tvec &&& ~~~3#64 == 0) = true ↔
      (s.slotAt id).intrap = true ∨ (s.coreAt id.core).tvec &&& ~~~3#64 = 0 := by
  rw [expireAll_intrap, finishLate_intrap, Bool.or_eq_true, beq_iff_eq]

/-- In a trap, or without a handler, it is not handled. -/
theorem takeTrap_unhandled (t : Trap)
    (h : (s.slotAt id).intrap = true ∨ (s.coreAt id.core).tvec &&& ~~~3#64 = 0) :
    s.takeTrap id t = (s.setSlot id ((s.slotAt id).finishLate.expireAll)).unhandled id t :=
  if_pos (takeTrap_test.mpr h)

/-- Outside a trap and with a handler, the slot enters it. -/
theorem takeTrap_handled (t : Trap) (hin : (s.slotAt id).intrap = false)
    (htvec : (s.coreAt id.core).tvec &&& ~~~3#64 ≠ 0) :
    s.takeTrap id t
      = s.setSlot id (((s.slotAt id).finishLate.expireAll).enterTrap (s.coreAt id.core).tvec t) :=
  if_neg fun h => (takeTrap_test.mp h).elim (Bool.eq_false_iff.mp hin) htvec

end

/-! ## ERET (R416) -/

@[simp] theorem leaveTrap_pc (sl : Slot) (ir : Fetched) : (sl.leaveTrap ir).pc = sl.tepc := goTo_pc _ _ _ _ _

@[simp] theorem leaveTrap_cell (sl : Slot) (ir : Fetched) (r : Nat) : (sl.leaveTrap ir).cell r = sl.cell r :=
  goTo_cell _ _ _ _ _ r

theorem ready_noDemand (s : State) : Ready s noDemand where
  named := fun _ h => nomatch h
  reads := fun _ h => nomatch h
  dests := fun _ h => nomatch h

/-- A check that fails traps once every register named lies in the allocation (R304). -/
theorem issue_of_check {s : State} {m : Demand} {checks : Seen → Option Trap} {k : Vals → Slot → Res} {t : Trap}
    (h : ∀ r ∈ m.names, r < s.me.task.nregs) (hc : checks (s.seen s.me m) = some t) :
    issue s m checks k = .next (s.raise s.sched.cur t) := by
  have hn : (m.names.any fun r => decide (s.me.task.nregs ≤ r)) = false := by
    simpa only [List.any_eq_false, decide_eq_true_eq, Nat.not_le] using h
  simp [issue, State.demandTrap, hn, hc]

theorem firstTrap_privTrap {s : State} (hsup : s.me.sup = true) : firstTrap [s.privTrap] = none := by
  simp [State.privTrap, hsup, firstTrap]

theorem exec_eret_in_trap {s : State} (hsup : s.me.sup = true) (hin : s.me.intrap = true) :
    exec .eret s = .next (s.setMe (s.me.leaveTrap s.sched.ir)) := by
  rw [exec_eret, execEret, issueAfter_ready (firstTrap_privTrap hsup) (ready_noDemand s) (if_pos hin)]
  rfl

theorem exec_eret_outside_trap {s : State} (hsup : s.me.sup = true) (hin : s.me.intrap = false) :
    exec .eret s = .next (s.raise s.sched.cur s.badOperand) := by
  rw [exec_eret, execEret, issueAfter, firstTrap_privTrap hsup]
  exact issue_of_check (ready_noDemand s).named (by simp [hin])

/-! ## The statement -/

/-- Settles O16: a handled trap replaces its slot alone, and ERET outside a trap fails its one check. -/
theorem trapEntryAndReturn : Obligations.TrapEntryAndReturn := by
  unfold Obligations.TrapEntryAndReturn
  refine ⟨fun s id t hin htvec => ?_, fun s id t h => takeTrap_unhandled t h, fun s hsup hin => ?_,
    fun s hsup hin => exec_eret_outside_trap hsup hin⟩
  · rw [takeTrap_handled t hin htvec, setSlot_slotAt_self]
    exact ⟨rfl, rfl, rfl, finishLate_sup _, rfl, rfl, rfl, rfl, rfl, fun _ => rfl, finishLate_task _,
      fun _ hne => setSlot_slotAt_ne _ _ _ _ hne, rfl⟩
  · refine ⟨_, exec_eret_in_trap hsup hin, ?_⟩
    rw [setMe_me]
    exact ⟨rfl, rfl, leaveTrap_pc _ _, leaveTrap_cell _ _, setMe_only _ _⟩

end Sys2Proof.Traps
end
